-- ==== Sys2Proof/Word.lean ====
section
/-! DEFINITION. Bytes, words and the plainest counting operations of the NL24 (00_scope.md, section 6). -/
namespace Sys2Proof

/-- One byte of a frame, a message or a report (11, section 11.1). -/
abbrev Byte := BitVec 8

/-- A field of two bytes. -/
abbrev Word16 := BitVec 16

/-- A card serial as carried in a card image: four bytes (11, Card image). -/
abbrev Serial32 := BitVec 32

/-- One more, staying at `top` once there (the saturating counts of the spec). -/
def satInc (top n : Nat) : Nat := if n < top then n + 1 else top

/-- One more, `top` followed by 0 (the wrapping counters of the spec). -/
def wrapInc (top n : Nat) : Nat := if n < top then n + 1 else 0

/-- Replaced by the nearer end of the range when outside it (00_scope.md, section 6, Arithmetic). -/
def clamp (lo hi x : Nat) : Nat := max lo (min hi x)

end Sys2Proof
end

