-- ==== Sys2Proof/Config.lean ====
section
/-! DEFINITION. The fixed figures of the NL24 that its rules name, and the two values its spec leaves open. -/
namespace Sys2Proof.Config

/-- The largest card balance the NL24 orders written and the largest refund entry (R76, R118), in cu. -/
def maxBalance : Nat := 99999
/-- The largest charge of one purchase (R100, R102), in cu. -/
def maxCharge : Nat := 9999
/-- The largest amount of a host grant (R127), in cu. -/
def maxGrant : Nat := 9999
/-- The counter value that marks an exhausted card (R81). -/
def exhaustedCounter : Nat := 65535
/-- Journal slots (R148). -/
def journalSlots : Nat := 128
/-- Reservations of an exchange in ORDERED (R154). -/
def exchangeReservations : Nat := 3
/-- Reservations of a host grant (R155). -/
def grantReservations : Nat := 2
/-- Most refund credit entries (R118). -/
def refundEntries : Nat := 32
/-- Most pending debit entries (R124). -/
def pendingEntries : Nat := 8
/-- Most serials of the perfect list (R113). -/
def perfectSerials : Nat := 16
/-- Unload timer at entering DONE (R18), in seconds. -/
def unloadSeconds : Nat := 1800
/-- Silence timer of a session (R23), in seconds. -/
def silenceSeconds : Nat := 300
/-- Result timer of an exchange (R85), in seconds. -/
def resultSeconds : Nat := 5
/-- Debounce timer of the DEMAND line (R51), in seconds. -/
def debounceSeconds : Nat := 2
/-- The recovery window (R28), in seconds. -/
def recoverySeconds : Nat := 30
/-- Block timer of a dryer (R15), in seconds. -/
def blockSeconds : Nat := 60
/-- Missed beacons that make a node silent (R35). -/
def silentBeacons : Nat := 8
/-- Most sends of a command (R43). -/
def sendLimit : Nat := 3
/-- Beacon periods of the first slot scan (R48). -/
def scanPeriods : Nat := 8
/-- Purchases one session can hold (R17). -/
def maxPurchases : Nat := 4
/-- Payload bytes of one frame (R183). -/
def maxPayload : Nat := 250

/-- FREE VALUE, DESIGN CHOICE (log entry 20). R183 has a good frame of an unknown kind answered BAD_ARG, and R185 gives the
reply the request's kind plus 80h; for a kind of 80h or above that sum is no byte, and the spec states no kind. -/
opaque replyKindOver : Byte → Byte

/-- FREE VALUE, DESIGN CHOICE (log entry 13): whether the CLASH record of a fault that ended a session bears its payer and its
refund. R139 gives them in the record of every fault, R149 and R150 give a CLASH record the fault kind alone, and no rule says
which holds. -/
opaque clashBearsSession : Bool

end Sys2Proof.Config
end

