-- ==== Sys2Proof/Syntax.lean ====
section
/-! DEFINITION. The commands of the NL24: one constructor for each row of spec/opcode_table.json, with the operands its rule
gives it, at the widths of chapter 11. The rows of the table carry no bits. Periods and gaps have no measured length: their
ends are commands (log entry 39). -/
namespace Sys2Proof

/-- A machine, which is the same as a node address (00_scope.md, section 6): `0` stands for machine 1, `23` for machine 24. -/
abbrev Addr := Fin 24

/-- The machine number 1 to 24 of an address. -/
def addrNumber (m : Addr) : Nat := m.val + 1

/-- The two pay stations (04). -/
inductive Station where
  | a | b
  deriving DecidableEq, Repr

/-- The two classes of a bus command that name a node (R39). -/
inductive CommandClass where
  | control | level
  deriving DecidableEq, Repr

/-- A reading of the DEMAND input (R51). -/
inductive Demand where
  | normal | shed
  deriving DecidableEq, Repr

/-- The kind of a machine (R1, R32). -/
inductive Kind where
  | washer | dryer
  deriving DecidableEq, Repr

/-- A door position (R1). -/
inductive Door where
  | opened | closed
  deriving DecidableEq, Repr

/-- The levels: BASE and HEAT for a washer, AIR, LOW and HIGH for a dryer (R32). -/
inductive Level where
  | base | heat | air | low | high
  deriving DecidableEq, Repr

/-- The option of a wash (R2). -/
inductive WashOption where
  | cold | warm | hot
  deriving DecidableEq, Repr

/-- The seven node report states (section 2.2). -/
inductive NodeState where
  | nIdle | nArmed | nStart | nRun | nEnd | nStopped | nFault
  deriving DecidableEq, Repr

/-- The twelve fault kinds (R130). The persisting form of DRAW_EXCESS is the same kind. -/
inductive FaultKind where
  | doorLock | noFill | noDrain | overTemp | motor | drawExcess | nodeStale | nodeSilent | cmdLost | cycleOverrun
  | heldTooLong | addressClash
  deriving DecidableEq, Repr

/-- A node's report with its fields read (section 2.2). -/
structure NodeReport where
  state      : NodeState
  door       : Door
  kind       : Kind
  actual     : Level
  actualFill : Bool
  wanted     : Level
  wantedFill : Bool
  keepAlive  : Nat
  ctlTag     : Nat
  lvlTag     : Nat
  fault      : Option FaultKind
  deriving DecidableEq, Repr

/-- A node slot report as carried, less its check: nine bytes (11, Machine bus frames). -/
structure SlotReport where
  address   : Byte
  nodeState : Byte
  flags     : Byte
  actual    : Byte
  wanted    : Byte
  keepAlive : Byte
  ctlTag    : Byte
  lvlTag    : Byte
  fault     : Byte
  deriving DecidableEq, Repr

/-- A PURCHASE as carried: the card image and the resident's choice (R75; 11, Station messages). -/
structure PurchaseMsg where
  serial  : Serial32
  issuer  : Word16
  balance : BitVec 24
  counter : Word16
  machine : Byte
  program : Byte
  option  : Byte
  minutes : Byte
  deriving DecidableEq, Repr

/-- A RESULT as carried; the counter read back is present with DONE only (R75). -/
structure ResultMsg where
  order   : Byte
  outcome : Byte
  counter : Option Word16
  deriving DecidableEq, Repr

/-- The arguments of SET LIMITS in the order of the table of R174 (R187). -/
structure LimitArgs where
  fillSlots   : Byte
  startWindow : Byte
  startWait   : Byte
  raiseWait   : Byte
  guardMargin : Byte
  grace       : Byte
  lockout     : Byte
  dryerMin    : Byte
  dryerMax    : Byte
  expiry      : Byte
  issuer      : Word16
  deriving DecidableEq, Repr

/-- What SET PROGRAM asks for (R175; form byte 0, 1 or 2, R187). -/
inductive ProgramForm where
  | removal
  | washer (base warm hot : Word16) (planned : Byte) (drawBase drawHeat : Word16) (name : List Byte)
  | dryer (rate drawAir drawLow drawHigh : Word16) (name : List Byte)
  deriving DecidableEq, Repr

/-- What SET TARIFF asks for (R176; form byte 0 or 1, R187). -/
inductive TariffForm where
  | removal
  | band (start : Word16) (percent : Byte)
  deriving DecidableEq, Repr

/-- The commands. Operands that the table's row does not name are those its rule gives; the four of `coldReset` and the one of
`warmResetEnd` are what the part finds at its connections at that moment (R180, R188; log entry 32). -/
inductive Instr where
  -- resets and link
  | coldReset (retainedOk serviceFitted imageOk baudFitted : Bool)
  | resetInputAsserted
  | warmResetEnd (baudFitted : Bool)
  | goodFrame (kind : Byte) (payload : List Byte)
  | badFrame
  | frameGap
  | replySent
  -- host requests
  | getStatus (page : Option Byte)
  | getMachine (machine : Byte)
  | getNodes (page : Option Byte)
  | getQueue (page : Option Byte)
  | getFault (machine : Byte)
  | getCredits (page : Option Byte)
  | getPending (page : Option Byte)
  | readEvents (clear : Byte)
  | setEventMask (masks : BitVec 24) (enables : Byte)
  | journalRead (count : Byte)
  | journalRelease (sequence : Word16)
  | setRoomMode (mode : Byte)
  | setClock (day minute : Word16)
  | setProgram (id : Byte) (form : ProgramForm)
  | setTariff (index : Byte) (form : TariffForm)
  | setBudget (budget : Word16) (percent : Byte)
  | setLimits (limits : LimitArgs)
  | commitSettings
  | commitWriteEnd
  | lockPrices
  | setScreenMode (mode : Byte)
  | screenAdd (serial : Serial32)
  | screenRemove (serial : Serial32)
  | setHashBit (index : Word16) (value : Byte)
  | clearHash
  | serviceOut (machine confirmedOff : Byte)
  | serviceReturn (machine : Byte)
  | abortCycle (machine refund : Byte)
  | rediscover
  | refundGrant (serial : Serial32) (amount : Word16)
  | reset
  -- stations
  | purchase (station : Station) (msg : PurchaseMsg)
  | result (station : Station) (msg : ResultMsg)
  | cancel (station : Station)
  | stationMessageDiscarded (station : Station)
  | resultTimerExpiry (station : Station)
  -- machine bus
  | beacon
  | validReport (slot : Addr) (report : SlotReport)
  | malformedReport (slot : Addr)
  | checkError (slot : Addr)
  | emptySlot (slot : Addr)
  | periodClose
  | silenceNotice (machine : Addr)
  | nodeStale (machine : Addr)
  | addressClash (machine : Addr)
  | cmdLost (machine : Addr) (cls : CommandClass)
  | answerWindowClose
  | firstSlotScanComplete
  -- timers and lines
  | startWindowExpiry (machine : Addr)
  | startWaitExpiry (machine : Addr)
  | cycleOverrun (machine : Addr)
  | blockTimerExpiry (machine : Addr)
  | unloadTimerExpiry (machine : Addr)
  | nodeSilent (machine : Addr)
  | recoveryWindowEnd
  | demandLineChange (reading : Demand)
  | debounceTimerExpiry
  | heldTooLong (machine : Addr)
  | drawExcess (machine : Addr)
  | drawExcessPersisting (machine : Addr)
  | dayRollover
  | powerFailure
  | clockSecond
  deriving DecidableEq, Repr

end Sys2Proof
end

