-- ==== Sys2Proof/WellFormed.lean ====
section
/-! DEFINITION. Which commands are well formed: those whose operands a working line can carry for that row. A command that is
not is still given the effect its rule has for such a frame, message or report (R31, R75, R183). -/
namespace Sys2Proof

/-- R32: the contents of a node report are in range and its address is the slot's (R31). -/
def SlotReport.inRange (slot : Addr) (r : SlotReport) : Bool :=
  r.address.toNat == addrNumber slot &&
  r.nodeState.toNat ≤ 6 &&
  r.flags.toNat < 16 &&
  (if r.flags.getLsbD 1
   then r.actual.toNat ≤ 2 && r.wanted.toNat ≤ 2 && !r.flags.getLsbD 2 && !r.flags.getLsbD 3
   else r.actual.toNat ≤ 1 && r.wanted.toNat ≤ 1) &&
  (if r.nodeState.toNat = 6 then 1 ≤ r.fault.toNat && r.fault.toNat ≤ 5 else r.fault.toNat == 0)

/-- R75: every coded field of a PURCHASE holds a listed code. -/
def PurchaseMsg.codesListed (m : PurchaseMsg) : Bool := m.option.toNat ≤ 3

/-- R75: the outcome is a listed code and the length suits it (the counter is there with DONE only). -/
def ResultMsg.codesListed (m : ResultMsg) : Bool :=
  m.outcome.toNat ≤ 2 && (m.counter.isSome == (m.outcome.toNat == 0))

/-- The SET PROGRAM request fits in one frame (R183, R187). -/
def ProgramForm.fits : ProgramForm → Bool
  | .removal => true
  | .washer _ _ _ _ _ _ name => name.length + 14 ≤ 250
  | .dryer _ _ _ _ name => name.length + 11 ≤ 250

/-- A well-formed command. -/
def Instr.wellFormed : Instr → Bool
  | .goodFrame _ payload => payload.length ≤ 250
  | .setProgram _ form => form.fits
  | .purchase _ msg => msg.codesListed
  | .result _ msg => msg.codesListed
  | .validReport slot report => report.inRange slot
  | .coldReset _ _ _ _ | .resetInputAsserted | .warmResetEnd _ | .badFrame | .frameGap | .replySent => true
  | .getStatus _ | .getMachine _ | .getNodes _ | .getQueue _ | .getFault _ | .getCredits _ | .getPending _ => true
  | .readEvents _ | .setEventMask _ _ | .journalRead _ | .journalRelease _ | .setRoomMode _ | .setClock _ _ => true
  | .setTariff _ _ | .setBudget _ _ | .setLimits _ | .commitSettings | .commitWriteEnd | .lockPrices => true
  | .setScreenMode _ | .screenAdd _ | .screenRemove _ | .setHashBit _ _ | .clearHash => true
  | .serviceOut _ _ | .serviceReturn _ | .abortCycle _ _ | .rediscover | .refundGrant _ _ | .reset => true
  | .cancel _ | .stationMessageDiscarded _ | .resultTimerExpiry _ => true
  | .beacon | .malformedReport _ | .checkError _ | .emptySlot _ | .periodClose => true
  | .silenceNotice _ | .nodeStale _ | .addressClash _ | .cmdLost _ _ => true
  | .answerWindowClose | .firstSlotScanComplete => true
  | .startWindowExpiry _ | .startWaitExpiry _ | .cycleOverrun _ | .blockTimerExpiry _ | .unloadTimerExpiry _ => true
  | .nodeSilent _ | .recoveryWindowEnd | .demandLineChange _ | .debounceTimerExpiry => true
  | .heldTooLong _ | .drawExcess _ | .drawExcessPersisting _ | .dayRollover | .powerFailure | .clockSecond => true

end Sys2Proof
end

