-- ==== Sys2Proof/Decode.lean ====
section
/-! DEFINITION. From bits to commands and back. The table gives its rows no bits, so no word spells a command; the wires do, by
the layouts of chapter 11: host frames and request payloads (R183, R187), station messages (R75) and node slot reports (R31). -/
namespace Sys2Proof

/-- The rows of spec/opcode_table.json carry no bits: no word spells a command. -/
def decodeTableWord (_nbits _w : Nat) : Option Instr := none

/-! ## Bytes and the check -/

/-- The two bytes of a field, high byte first (section 11.1). -/
def bytes16 (w : Word16) : List Byte := [w.extractLsb' 8 8, w.extractLsb' 0 8]

/-- The three bytes of a field, high byte first. -/
def bytes24 (w : BitVec 24) : List Byte := [w.extractLsb' 16 8, w.extractLsb' 8 8, w.extractLsb' 0 8]

/-- The four bytes of a field, high byte first. -/
def bytes32 (w : BitVec 32) : List Byte :=
  [w.extractLsb' 24 8, w.extractLsb' 16 8, w.extractLsb' 8 8, w.extractLsb' 0 8]

/-- Two bytes, high byte first, read as one field. -/
def word16 (hi lo : Byte) : Word16 := hi ++ lo

/-- Three bytes read as one field. -/
def word24 (a b c : Byte) : BitVec 24 := a ++ b ++ c

/-- Four bytes read as one field. -/
def word32 (a b c d : Byte) : BitVec 32 := a ++ b ++ c ++ d

/-- One bit of the CRC-16 of polynomial 1021h. -/
def crcShift (c : Word16) : Word16 := if c.getLsbD 15 then (c <<< 1) ^^^ 0x1021#16 else c <<< 1

/-- One byte into the CRC-16, most significant bit first. -/
def crcByte (c : Word16) (b : Byte) : Word16 :=
  let c0 := c ^^^ (b ++ 0#8)
  crcShift (crcShift (crcShift (crcShift (crcShift (crcShift (crcShift (crcShift c0)))))))

/-- The check of section 11.1: CRC-16, polynomial 1021h, initial value FFFFh, no final inversion. -/
def crc16 (bytes : List Byte) : Word16 := bytes.foldl crcByte 0xFFFF#16

/-! ## Request payloads (R187) -/

/-- A payload without arguments. -/
def noArg (i : Instr) : List Byte → Option Instr
  | [] => some i
  | _ => none

/-- The page byte that a paged kind may carry (R186). -/
def pageArg (f : Option Byte → Instr) : List Byte → Option Instr
  | [] => some (f none)
  | [p] => some (f (some p))
  | _ => none

/-- One byte. -/
def byteArg (f : Byte → Instr) : List Byte → Option Instr
  | [a] => some (f a)
  | _ => none

/-- Two arguments of one byte. -/
def byteByteArg (f : Byte → Byte → Instr) : List Byte → Option Instr
  | [a, b] => some (f a b)
  | _ => none

/-- One argument of two bytes. -/
def wordArg (f : Word16 → Instr) : List Byte → Option Instr
  | [a, b] => some (f (word16 a b))
  | _ => none

/-- A card serial. -/
def serialArg (f : Serial32 → Instr) : List Byte → Option Instr
  | [a, b, c, d] => some (f (word32 a b c d))
  | _ => none

/-- A name: a length byte and that many characters (R187). -/
def nameArg (f : List Byte → Instr) : List Byte → Option Instr
  | n :: name => if name.length = n.toNat then some (f name) else none
  | [] => none

/-- SET PROGRAM: id, form byte, the numeric fields in the order of R175, the name last (R187). -/
def programArg : List Byte → Option Instr
  | id :: 0#8 :: [] => some (.setProgram id .removal)
  | id :: 1#8 :: b1 :: b0 :: w1 :: w0 :: h1 :: h0 :: pl :: x1 :: x0 :: y1 :: y0 :: rest =>
    nameArg (fun name => .setProgram id
      (.washer (word16 b1 b0) (word16 w1 w0) (word16 h1 h0) pl (word16 x1 x0) (word16 y1 y0) name)) rest
  | id :: 2#8 :: r1 :: r0 :: a1 :: a0 :: l1 :: l0 :: h1 :: h0 :: rest =>
    nameArg (fun name => .setProgram id
      (.dryer (word16 r1 r0) (word16 a1 a0) (word16 l1 l0) (word16 h1 h0) name)) rest
  | _ => none

/-- SET TARIFF: index, form byte, start and percent (R187). -/
def tariffArg : List Byte → Option Instr
  | [index, 0#8] => some (.setTariff index .removal)
  | [index, 1#8, s1, s0, pct] => some (.setTariff index (.band (word16 s1 s0) pct))
  | _ => none

/-- SET LIMITS: the limits in the order of the table of R174, then the issuer code (R187). -/
def limitsArg : List Byte → Option Instr
  | [a, b, c, d, e, f, g, h, i, j, k1, k0] => some (.setLimits ⟨a, b, c, d, e, f, g, h, i, j, word16 k1 k0⟩)
  | _ => none

/-- The request that a frame's kind and payload spell, by the catalogue of section 11.3; none where the kind names no request
or the payload's length does not suit it (R183). -/
def decodeRequest (kind : Byte) (p : List Byte) : Option Instr :=
  match kind.toNat with
  | 0x01 => pageArg .getStatus p
  | 0x02 => byteArg .getMachine p
  | 0x03 => pageArg .getNodes p
  | 0x04 => pageArg .getQueue p
  | 0x05 => byteArg .getFault p
  | 0x06 => pageArg .getCredits p
  | 0x07 => pageArg .getPending p
  | 0x08 => byteArg .readEvents p
  | 0x09 => match p with
    | [a, b, c, e] => some (.setEventMask (word24 a b c) e)
    | _ => none
  | 0x0A => byteArg .journalRead p
  | 0x0B => wordArg .journalRelease p
  | 0x0C => byteArg .setRoomMode p
  | 0x0D => match p with
    | [a, b, c, d] => some (.setClock (word16 a b) (word16 c d))
    | _ => none
  | 0x0E => programArg p
  | 0x0F => tariffArg p
  | 0x10 => match p with
    | [a, b, c] => some (.setBudget (word16 a b) c)
    | _ => none
  | 0x11 => limitsArg p
  | 0x12 => noArg .commitSettings p
  | 0x13 => noArg .lockPrices p
  | 0x14 => byteArg .setScreenMode p
  | 0x15 => serialArg .screenAdd p
  | 0x16 => serialArg .screenRemove p
  | 0x17 => match p with
    | [a, b, v] => some (.setHashBit (word16 a b) v)
    | _ => none
  | 0x18 => noArg .clearHash p
  | 0x19 => byteByteArg .serviceOut p
  | 0x1A => byteArg .serviceReturn p
  | 0x1B => byteByteArg .abortCycle p
  | 0x1C => noArg .rediscover p
  | 0x1D => match p with
    | [a, b, c, d, x, y] => some (.refundGrant (word32 a b c d) (word16 x y))
    | _ => none
  | 0x1E => noArg .reset p
  | _ => none

/-- The payload of SET PROGRAM (R187). -/
def encodeProgram : ProgramForm → List Byte
  | .removal => [0#8]
  | .washer base warm hot planned dBase dHeat name =>
    [1#8] ++ bytes16 base ++ bytes16 warm ++ bytes16 hot ++ [planned] ++ bytes16 dBase ++ bytes16 dHeat
      ++ [BitVec.ofNat 8 name.length] ++ name
  | .dryer rate air low high name =>
    [2#8] ++ bytes16 rate ++ bytes16 air ++ bytes16 low ++ bytes16 high ++ [BitVec.ofNat 8 name.length] ++ name

/-- The kind byte and the payload of a host request; none for the commands that are no host request. -/
def encodeRequest : Instr → Option (Byte × List Byte)
  | .getStatus page => some (0x01#8, page.toList)
  | .getMachine m => some (0x02#8, [m])
  | .getNodes page => some (0x03#8, page.toList)
  | .getQueue page => some (0x04#8, page.toList)
  | .getFault m => some (0x05#8, [m])
  | .getCredits page => some (0x06#8, page.toList)
  | .getPending page => some (0x07#8, page.toList)
  | .readEvents clear => some (0x08#8, [clear])
  | .setEventMask masks enables => some (0x09#8, bytes24 masks ++ [enables])
  | .journalRead count => some (0x0A#8, [count])
  | .journalRelease sequence => some (0x0B#8, bytes16 sequence)
  | .setRoomMode mode => some (0x0C#8, [mode])
  | .setClock day minute => some (0x0D#8, bytes16 day ++ bytes16 minute)
  | .setProgram id form => some (0x0E#8, id :: encodeProgram form)
  | .setTariff index .removal => some (0x0F#8, [index, 0#8])
  | .setTariff index (.band start pct) => some (0x0F#8, [index, 1#8] ++ bytes16 start ++ [pct])
  | .setBudget budget pct => some (0x10#8, bytes16 budget ++ [pct])
  | .setLimits l => some (0x11#8, [l.fillSlots, l.startWindow, l.startWait, l.raiseWait, l.guardMargin, l.grace, l.lockout,
      l.dryerMin, l.dryerMax, l.expiry] ++ bytes16 l.issuer)
  | .commitSettings => some (0x12#8, [])
  | .lockPrices => some (0x13#8, [])
  | .setScreenMode mode => some (0x14#8, [mode])
  | .screenAdd serial => some (0x15#8, bytes32 serial)
  | .screenRemove serial => some (0x16#8, bytes32 serial)
  | .setHashBit index value => some (0x17#8, bytes16 index ++ [value])
  | .clearHash => some (0x18#8, [])
  | .serviceOut m off => some (0x19#8, [m, off])
  | .serviceReturn m => some (0x1A#8, [m])
  | .abortCycle m refund => some (0x1B#8, [m, refund])
  | .rediscover => some (0x1C#8, [])
  | .refundGrant serial amount => some (0x1D#8, bytes32 serial ++ bytes16 amount)
  | .reset => some (0x1E#8, [])
  | .coldReset _ _ _ _ | .resetInputAsserted | .warmResetEnd _ | .goodFrame _ _ | .badFrame | .frameGap | .replySent => none
  | .commitWriteEnd | .purchase _ _ | .result _ _ | .cancel _ | .stationMessageDiscarded _ | .resultTimerExpiry _ => none
  | .beacon | .validReport _ _ | .malformedReport _ | .checkError _ | .emptySlot _ | .periodClose => none
  | .silenceNotice _ | .nodeStale _ | .addressClash _ | .cmdLost _ _ | .answerWindowClose | .firstSlotScanComplete => none
  | .startWindowExpiry _ | .startWaitExpiry _ | .cycleOverrun _ | .blockTimerExpiry _ | .unloadTimerExpiry _ => none
  | .nodeSilent _ | .recoveryWindowEnd | .demandLineChange _ | .debounceTimerExpiry | .heldTooLong _ => none
  | .drawExcess _ | .drawExcessPersisting _ | .dayRollover | .powerFailure | .clockSecond => none

/-! ## Frames on the host link (R183) -/

/-- The envelope of section 11.1 around a kind and a payload. -/
def frameBytes (kind : Byte) (payload : List Byte) : List Byte :=
  let body := [BitVec.ofNat 8 payload.length, kind] ++ payload
  0xA5#8 :: (body ++ bytes16 (crc16 body))

/-- A received byte, with whether more than 20 ms passed before it. -/
structure RxByte where
  value : Byte
  gap   : Bool
  deriving DecidableEq, Repr

/-- What the check of an envelope covers, of its bytes after the start byte: length, kind and payload (section 11.1). -/
def checkedPart (body : List Byte) : List Byte := body.take (body.length - 2)

/-- The check of an envelope passes (section 11.1). -/
def checkPasses (body : List Byte) : Bool := bytes16 (crc16 (checkedPart body)) = body.drop (body.length - 2)

/-- The command of a whole frame: its bytes after the start byte, good or with a wrong check. -/
def wholeFrame (body : List Byte) : Instr :=
  if checkPasses body then .goodFrame (body.getD 1 0#8) ((checkedPart body).drop 2) else .badFrame

/-- R183, byte by byte: what is held of the frame (its bytes after A5h; none while waiting for a start byte), and the command
that the byte brings about. -/
def receiveByte (held : Option (List Byte)) (b : RxByte) : Option (List Byte) × List Instr :=
  let start : Option (List Byte) := if b.value = 0xA5#8 then some [] else none
  match held with
  | none => (start, [])
  | some body =>
    if b.gap then (start, [.frameGap])
    else
      let body' := body ++ [b.value]
      if 250 < (body'.headD 0#8).toNat then (none, [.badFrame])
      else if body'.length = (body'.headD 0#8).toNat + 4 then (none, [wholeFrame body'])
      else (some body', [])

/-- The commands that a run of received bytes brings about (log entry 29). -/
def receiveBytes : Option (List Byte) → List RxByte → List Instr
  | _, [] => []
  | held, b :: bs =>
    match receiveByte held b with
    | (held', cmds) => cmds ++ receiveBytes held' bs

/-! ## Station messages (R75; 11, Station messages) -/

/-- The command of a station's message whose check passes: a message whose kind, length or codes do not suit is discarded. -/
def stationCommand (st : Station) (kind : Byte) (p : List Byte) : Instr :=
  match kind.toNat, p with
  | 1, [s3, s2, s1, s0, i1, i0, b2, b1, b0, c1, c0, m, prog, opt, mins] =>
    let msg : PurchaseMsg := ⟨word32 s3 s2 s1 s0, word16 i1 i0, word24 b2 b1 b0, word16 c1 c0, m, prog, opt, mins⟩
    if msg.codesListed then .purchase st msg else .stationMessageDiscarded st
  | 2, [order, outcome, c1, c0] =>
    let msg : ResultMsg := ⟨order, outcome, some (word16 c1 c0)⟩
    if msg.codesListed then .result st msg else .stationMessageDiscarded st
  | 2, [order, outcome] =>
    let msg : ResultMsg := ⟨order, outcome, none⟩
    if msg.codesListed then .result st msg else .stationMessageDiscarded st
  | 3, [] => .cancel st
  | _, _ => .stationMessageDiscarded st

/-- R75: the command of a message from a station, of its bytes after the start byte: a message whose check fails, or whose length
byte does not count its payload, is discarded (section 11.4; log entry 29). -/
def stationMessage (st : Station) (body : List Byte) : Instr :=
  if checkPasses body ∧ body.length = (body.headD 0#8).toNat + 4
  then stationCommand st (body.getD 1 0#8) ((checkedPart body).drop 2) else .stationMessageDiscarded st

/-- The kind byte and payload of a station's message. -/
def encodeStation : Instr → Option (Station × Byte × List Byte)
  | .purchase st m => some (st, 1#8, bytes32 m.serial ++ bytes16 m.issuer ++ bytes24 m.balance ++ bytes16 m.counter
      ++ [m.machine, m.program, m.option, m.minutes])
  | .result st m => some (st, 2#8, [m.order, m.outcome] ++ (m.counter.map bytes16).getD [])
  | .cancel st => some (st, 3#8, [])
  | _ => none

/-! ## Node slot reports (R31, R32; 11, Machine bus frames) -/

/-- Codes of the node report states. -/
def nodeStateOf : Nat → Option NodeState
  | 0 => some .nIdle
  | 1 => some .nArmed
  | 2 => some .nStart
  | 3 => some .nRun
  | 4 => some .nEnd
  | 5 => some .nStopped
  | 6 => some .nFault
  | _ => none

/-- Codes of the levels of a kind. -/
def levelOf : Kind → Nat → Option Level
  | .washer, 0 => some .base
  | .washer, 1 => some .heat
  | .dryer, 0 => some .air
  | .dryer, 1 => some .low
  | .dryer, 2 => some .high
  | _, _ => none

/-- The node fault codes that go with a report state: one of the five with N_FAULT, none with any other (R32). The outer option
says whether the code is in range. -/
def nodeFaultOf : NodeState → Nat → Option (Option FaultKind)
  | .nFault, 1 => some (some .doorLock)
  | .nFault, 2 => some (some .noFill)
  | .nFault, 3 => some (some .noDrain)
  | .nFault, 4 => some (some .overTemp)
  | .nFault, 5 => some (some .motor)
  | .nFault, _ => none
  | _, 0 => some none
  | _, _ => none

/-- A report heard in a slot, read by the layout of chapter 11; none when it is malformed (R31, R32). -/
def decodeReport (slot : Addr) (r : SlotReport) : Option NodeReport :=
  let kind : Kind := if r.flags.getLsbD 1 then .dryer else .washer
  let actualFill := r.flags.getLsbD 2
  let wantedFill := r.flags.getLsbD 3
  match nodeStateOf r.nodeState.toNat, levelOf kind r.actual.toNat, levelOf kind r.wanted.toNat with
  | some state, some actual, some wanted =>
    match nodeFaultOf state r.fault.toNat with
    | some fault =>
      if r.address.toNat = addrNumber slot ∧ r.flags.toNat < 16 ∧ (kind = .dryer → actualFill = false ∧ wantedFill = false)
      then some
        { state := state, door := if r.flags.getLsbD 0 then .opened else .closed, kind := kind
          actual := actual, actualFill := actualFill, wanted := wanted, wantedFill := wantedFill
          keepAlive := r.keepAlive.toNat, ctlTag := r.ctlTag.toNat, lvlTag := r.lvlTag.toNat, fault := fault }
      else none
    | none => none
  | _, _, _ => none

/-- The nine bytes that the check of a slot report covers. -/
def reportBytes (r : SlotReport) : List Byte :=
  [r.address, r.nodeState, r.flags, r.actual, r.wanted, r.keepAlive, r.ctlTag, r.lvlTag, r.fault]

/-- The eleven bytes of a node slot report. -/
def slotBytes (r : SlotReport) : List Byte := reportBytes r ++ bytes16 (crc16 (reportBytes r))

/-- R31: the outcome of a report slot, from the bytes heard in it. -/
def slotCommand (slot : Addr) : List Byte → Instr
  | [] => .emptySlot slot
  | [a, n, f, x, w, k, c, l, e, h1, h0] =>
    let r : SlotReport := ⟨a, n, f, x, w, k, c, l, e⟩
    if bytes16 (crc16 (reportBytes r)) = [h1, h0]
    then if r.inRange slot then .validReport slot r else .malformedReport slot
    else .checkError slot
  | _ => .checkError slot

end Sys2Proof
end

