-- ==== Sys2Proof/Machine/State.lean ====
section
/-! DEFINITION. The state of the NL24, block by block (00_scope.md, section 3), as plain data; its named updates; and the state
right after reset. -/
namespace Sys2Proof.Machine

/-! ## Tables of 24 -/

/-- One value for each machine or address 1 to 24. -/
abbrev PerMachine (α : Type) := Vector α 24

/-- The machines in ascending number. -/
def allMachines : List Addr :=
  [0, 1, 2, 3, 4, 5, 6, 7, 8, 9, 10, 11, 12, 13, 14, 15, 16, 17, 18, 19, 20, 21, 22, 23]

/-! ## Clock and stamps -/

/-- A day number and a minute of day (R129, R149). -/
structure Stamp where
  day    : Nat
  minute : Nat
  deriving DecidableEq, Repr

/-- The clock while it is set (R178). `rollover` stands from the second in which the day advances until DAY_ROLLOVER has CRU make
the expiry check of that rollover (log entry 5). -/
structure Clock where
  day      : Nat
  minute   : Nat
  second   : Nat
  rollover : Bool
  deriving DecidableEq, Repr

/-! ## Settings (10) -/

/-- The fields of a program that its kind gives it (R175). -/
inductive ProgramBody where
  | washer (base warm hot planned drawBase drawHeat : Nat)
  | dryer (rate drawAir drawLow drawHigh : Nat)
  deriving DecidableEq, Repr

/-- A program record (R175). -/
structure Program where
  body : ProgramBody
  name : List Byte
  deriving DecidableEq, Repr

/-- A tariff band (R176). -/
structure Band where
  start   : Nat
  percent : Nat
  deriving DecidableEq, Repr

/-- The limits and the room issuer code (R174). -/
structure Limits where
  fillSlots   : Nat
  startWindow : Nat
  startWait   : Nat
  raiseWait   : Nat
  guardMargin : Nat
  grace       : Nat
  lockout     : Nat
  dryerMin    : Nat
  dryerMax    : Nat
  expiry      : Nat
  issuer      : Nat
  deriving DecidableEq, Repr

/-- R113: the three screen modes. -/
inductive ScreenMode where
  | opened | deny | allow
  deriving DecidableEq, Repr

/-- The card screen (R113); bit i of the hash set is bit i of `hash`. -/
structure Screen where
  mode : ScreenMode
  list : List Nat
  hash : BitVec 512
  deriving DecidableEq, Repr

/-- The working settings, and what the stored image holds (R174). Entry `i` of a table is id or index `i + 1`. -/
structure Settings where
  programs : Vector (Option Program) 16
  bands    : Vector (Option Band) 6
  budget   : Nat
  shed     : Nat
  limits   : Limits
  screen   : Screen
  deriving DecidableEq, Repr

/-- The factory defaults of R174. -/
def Settings.factory : Settings where
  programs := Vector.replicate 16 none
  bands := Vector.replicate 6 none
  budget := 1600
  shed := 60
  limits :=
    { fillSlots := 3, startWindow := 10, startWait := 20, raiseWait := 30, guardMargin := 15, grace := 3, lockout := 3
      dryerMin := 10, dryerMax := 90, expiry := 30, issuer := 0 }
  screen := { mode := .opened, list := [], hash := 0#512 }

/-- R164: the room modes. -/
inductive RoomMode where
  | opened | quiet | closed
  deriving DecidableEq, Repr

/-- R173: the kind of a reset. -/
inductive ResetKind where
  | cold | warmPin | warmRequest
  deriving DecidableEq, Repr

/-- SST's state (10). `commit` holds the copy being written while the commit state is IN_PROGRESS (R177). The stored image is
valid when `imageMarked` and `imageCheck` both hold (R177). -/
structure Sst where
  working     : Settings
  image       : Settings
  imageMarked : Bool
  imageCheck  : Bool
  commit      : Option Settings
  unsaved     : Bool
  lock        : Bool
  lockCode    : Option Word16
  clock       : Option Clock
  roomMode    : RoomMode
  lastReset   : ResetKind
  deriving DecidableEq, Repr

/-! ## Machine sessions (01) -/

/-- The draws of the levels of a kind (R53, R54): the base and heat figures, or those of AIR, LOW and HIGH. -/
inductive LevelDraws where
  | washer (base heat : Nat)
  | dryer (air low high : Nat)
  deriving DecidableEq, Repr

/-- The copy of the program figures a session carries (R2): kind, planned minutes or rate, and draws. -/
inductive Figures where
  | washer (planned drawBase drawHeat : Nat)
  | dryer (rate drawAir drawLow drawHigh : Nat)
  deriving DecidableEq, Repr

/-- The paid session (R2). -/
structure Session where
  payer       : Nat
  program     : Nat
  figures     : Figures
  option      : Option WashOption
  total       : Nat
  value       : Nat
  consumed    : Nat
  minutes     : Option Nat
  purchases   : Nat
  runClock    : Nat
  guardTimer  : Nat
  blockTimer  : Nat
  startWindow : Nat
  startWait   : Nat
  startTime   : Option Stamp
  ending      : Bool
  armAcked    : Bool
  deriving DecidableEq, Repr

/-- The twelve states of a machine record (section 1.2). -/
inductive MState where
  | absent | offline | idle | reserved | armed | starting | running | done | aborting | faulted | outOfService | recovering
  deriving DecidableEq, Repr

/-- R1: the state that follows the node's stop. -/
inductive StopDest where
  | faulted | outOfService
  deriving DecidableEq, Repr

/-- R1: the state a RECOVERING record's session had at reset. -/
inductive Retained where
  | armed | starting | running
  deriving DecidableEq, Repr

/-- The machine record (R1). -/
structure MachineRecord where
  state          : MState
  kind           : Option Kind
  door           : Option Door
  silent         : Bool
  reserving      : Option Station
  lockoutPending : Bool
  stopDest       : Option StopDest
  unloadTimer    : Nat
  silenceTimer   : Nat
  retained       : Option Retained
  session        : Option Session
  deriving DecidableEq, Repr

/-- A cleared machine record (R26). -/
def MachineRecord.cleared : MachineRecord :=
  { state := .absent, kind := none, door := none, silent := false, reserving := none, lockoutPending := false, stopDest := none
    unloadTimer := 0, silenceTimer := 0, retained := none, session := none }

/-- MSV's state: the records, and the seconds left of the recovery window, none when it is over (R28). -/
structure Msv where
  records        : PerMachine MachineRecord
  recoveryWindow : Option Nat
  deriving DecidableEq, Repr

/-! ## The machine bus (02) -/

/-- A node-table entry (R33). `heardNow`: a valid report was heard in the open period (R35). `inHand`: the report whose stale run
reached 3, taken as far as step 5 of R32; NODE_STALE goes to FLM before its steps 6 to 8 follow (R36; log entry 6). `clashOwed`:
three check errors in a row were heard and the clash is still to be acted on (R37). -/
structure NodeEntry where
  known      : Bool
  kind       : Option Kind
  heard      : Bool
  missed     : Nat
  silentMark : Bool
  lastKeep   : Option Nat
  staleRun   : Nat
  errorRun   : Nat
  errors     : Nat
  malformed  : Nat
  clash      : Bool
  lastFault  : Option FaultKind
  ctlEcho    : Nat
  lvlEcho    : Nat
  ctlTag     : Nat
  lvlTag     : Nat
  heardNow   : Bool
  inHand     : Option NodeReport
  clashOwed  : Bool
  deriving DecidableEq, Repr

/-- An entry after a reset, with the retained presence and kind (R33). -/
def NodeEntry.afterReset (known : Bool) (kind : Option Kind) : NodeEntry :=
  { known := known, kind := kind, heard := false, missed := 0, silentMark := false, lastKeep := none, staleRun := 0, errorRun := 0
    errors := 0, malformed := 0, clash := false, lastFault := none, ctlEcho := 0, lvlEcho := 0, ctlTag := 0, lvlTag := 0
    heardNow := false, inHand := none, clashOwed := false }

/-- The bus commands with their arguments (section 2.5). STOP carries whether it is STOP(abort). -/
inductive BusCommand where
  | arm (program : Nat) (option : Option WashOption)
  | disarm
  | stop (abort : Bool)
  | hold
  | grant (level : Level) (fill : Bool)
  | assign
  deriving DecidableEq, Repr

/-- The blocks that queue bus commands (R39). -/
inductive BusOwner where
  | msv | fba | mbc
  deriving DecidableEq, Repr

/-- An entry of the bus command queue (R39); for ASSIGN the address is the one given. `sentNow`: it went into the beacon of
the open period (R43). -/
structure BusEntry where
  addr    : Addr
  command : BusCommand
  sends   : Nat
  tag     : Option Nat
  owner   : BusOwner
  sentNow : Bool
  deriving DecidableEq, Repr

/-- The cause of a discovery (R45). -/
inductive DiscoveryCause where
  | startUp | host
  deriving DecidableEq, Repr

/-- The discovery record (R45). `fresh`: the ASSIGN went out in the open period, which the answer window does not cover. -/
structure Discovery where
  active     : Bool
  cause      : Option DiscoveryCause
  offered    : Option Addr
  window     : Nat
  unanswered : Nat
  occupied   : List Addr
  fresh      : Bool
  deriving DecidableEq, Repr

/-- The discovery record after a reset (R45). -/
def Discovery.idle : Discovery :=
  { active := false, cause := none, offered := none, window := 0, unanswered := 0, occupied := [], fresh := false }

/-- MBC's state (02). `scanSkip`: the open period began before the scan and does not count for it (R48). -/
structure Mbc where
  nodes        : PerMachine NodeEntry
  queue        : List BusEntry
  beacons      : Nat
  discovery    : Discovery
  scanComplete : Bool
  scanCount    : Nat
  scanSkip     : Bool
  periodOpen   : Bool
  deriving DecidableEq, Repr

/-! ## Feeder budget (03) -/

/-- A grant table entry (R53). `held`: FBA has told MSV that a dryer's hold began and not yet that it ended (R63; log entry 41).
`excessOwed` and `persistOwed`: DRAW_EXCESS, and DRAW_EXCESS persisting, is owed to FLM (R72). -/
structure GrantEntry where
  granted     : Option Level
  fill        : Bool
  draws       : Option LevelDraws
  draw        : Nat
  heldSilent  : Bool
  held        : Bool
  wanted      : Option (Level × Bool)
  actual      : Option (Level × Bool)
  pending     : Bool
  excessRun   : Nat
  excessOwed  : Bool
  persistOwed : Bool
  deriving DecidableEq, Repr

/-- An entry without a grant (R53). -/
def GrantEntry.empty : GrantEntry :=
  { granted := none, fill := false, draws := none, draw := 0, heldSilent := false, held := false, wanted := none
    actual := none, pending := false, excessRun := 0, excessOwed := false, persistOwed := false }

/-- An admission-queue entry (R57). The group it stands in says whether it is START or RAISE; `timer` is the raise-wait timer. -/
structure AdmEntry where
  machine : Addr
  level   : Level
  fill    : Bool
  arrival : Nat
  timer   : Nat
  deriving DecidableEq, Repr

/-- FBA's state (03). The admission queue is `raises` followed by `starts` (R57). -/
structure Fba where
  entries     : PerMachine GrantEntry
  startList   : List Addr
  raises      : List AdmEntry
  starts      : List AdmEntry
  arrivals    : Nat
  beff        : Nat
  overBudget  : Bool
  line        : Demand
  demand      : Demand
  debounce    : Nat
  deriving DecidableEq, Repr

/-! ## Pay stations (04) -/

/-- R77: the purchase types. -/
inductive PurchaseType where
  | new | topup | creditOnly
  deriving DecidableEq, Repr

/-- R77: how the card's pending entry was resolved; TOOK with the overflow remainder R. -/
inductive Resolution where
  | took (remainder : Nat)
  | notTaken
  deriving DecidableEq, Repr

/-- What an exchange holds while ORDERED (R77). `figures`: the program figures the purchase was priced from (log entry 11). -/
structure Order where
  number         : Nat
  ptype          : PurchaseType
  serial         : Nat
  balanceRead    : Nat
  counterRead    : Nat
  machine        : Addr
  program        : Nat
  option         : Option WashOption
  minutes        : Option Nat
  tariff         : Nat
  charge         : Nat
  newBalance     : Nat
  newCounter     : Nat
  folded         : Option Nat
  reversal       : Option Nat
  resolution     : Option Resolution
  timer          : Nat
  figures        : Figures
  deriving DecidableEq, Repr

/-- One station's exchange record and counts (R77): ORDERED exactly while `order` is present. -/
structure Exchange where
  orderCounter : Nat
  order        : Option Order
  conflicts    : Nat
  lates        : Nat
  lineErrors   : Nat
  deriving DecidableEq, Repr

/-- PAY's state (04, R96). -/
structure Pay where
  a      : Exchange
  b      : Exchange
  halted : Bool
  deriving DecidableEq, Repr

/-- The decline reasons, in the order of their codes (11, Station messages). -/
inductive DeclineReason where
  | startingUp | roomQuiet | roomClosed | payHalted | journalFull | cardInvalid | cardExhausted | cardBusy | cardDenied
  | machineBusy | machineOut | wrongProgram | timeFull | insufficient | stationBusy
  deriving DecidableEq, Repr

/-- The messages PAY sends (R76). -/
inductive StationMsg where
  | order (number newBalance newCounter amount : Nat) (creditOnly : Bool)
  | decline (reason : DeclineReason) (balance : Nat)
  | receiptWasher (machine : Addr) (program : Nat)
  | receiptDryer (machine : Addr) (added remaining : Nat)
  deriving DecidableEq, Repr

/-! ## Card records (06) -/

/-- A refund credit entry (R118). -/
structure RefundEntry where
  serial  : Nat
  amount  : Nat
  created : Option Nat
  pledged : Bool
  hold    : Option Station
  origin  : Nat
  deriving DecidableEq, Repr

/-- A pending debit entry (R82). The pledged refund entry is the one of the same serial whose `pledged` mark is set. -/
structure PendingEntry where
  serial        : Nat
  counterRead   : Nat
  balanceRead   : Nat
  targetBalance : Nat
  targetCounter : Nat
  amount        : Nat
  reversal      : Nat
  folded        : Nat
  machine       : Addr
  day           : Option Nat
  deriving DecidableEq, Repr

/-- CRU's tables (06), oldest entry first. -/
structure Cru where
  refunds  : List RefundEntry
  pendings : List PendingEntry
  deriving DecidableEq, Repr

/-! ## Faults (07) -/

/-- The severities, in their order (R129). -/
inductive Severity where
  | retry | stop | lockout
  deriving DecidableEq, Repr

/-- R129: what started the order. -/
inductive FaultCause where
  | fault | hostOut | hostAbort | kindChanged | runLost
  deriving DecidableEq, Repr

/-- The current fault (R129). -/
structure CurrentFault where
  kind      : Option FaultKind
  cause     : FaultCause
  severity  : Severity
  escalated : Bool
  stamp     : Option Stamp
  state     : MState
  payer     : Option Nat
  refund    : Option Nat
  secondary : Option FaultKind
  deriving DecidableEq, Repr

/-- A machine's fault record (R129); history counts in the order of R130. -/
structure FaultRecord where
  current   : Option CurrentFault
  openMark  : Bool
  stopCount : Nat
  history   : Vector Nat 12
  deriving DecidableEq, Repr

/-- A cleared fault record (R129). -/
def FaultRecord.cleared : FaultRecord :=
  { current := none, openMark := false, stopCount := 0, history := Vector.replicate 12 0 }

/-! ## Journal (08) -/

/-- The thirteen record kinds, in the order of R150. -/
inductive RecordKind where
  | sale | topup | creditApplied | refundCredited | refundGranted | refundExpired | debitUncertain | debitUnresolved
  | cycleEnd | fault | clash | service | mode
  deriving DecidableEq, Repr

/-- The detail of a record (R150; 11, Journal record). -/
inductive Detail where
  | none
  | severity (s : Severity) (escalated secondary : Bool)
  | lostToCap (lost : Nat)
  | topupRefused (lost : Nat)
  | reversalRemainder
  | evicted | aged | torn | counter | timeout | reset | kindChanged | runLost | out | returned | abort
  | mode (m : RoomMode)
  deriving DecidableEq, Repr

/-- What the writing block gives of a journal record (R149, R150). `minutes`: the minutes sold, which R101 has a SALE or TOPUP
record hold, and which the fields of R149 and the layout of section 11.4 do not carry (log entry 57). -/
structure RecordBody where
  kind         : RecordKind
  machine      : Nat
  serial       : Option Nat := .none
  amount       : Option Nat := .none
  balanceAfter : Option Nat := .none
  counterAfter : Option Nat := .none
  folded       : Option Nat := .none
  reversal     : Option Nat := .none
  faultKind    : Option FaultKind := .none
  minutes      : Option Nat := .none
  detail       : Detail := .none
  deriving DecidableEq, Repr

/-- A journal record (R149). -/
structure JournalRecord where
  sequence : Nat
  stamp    : Option Stamp
  body     : RecordBody
  deriving DecidableEq, Repr

/-- JRN's state (R148): the host-owned run, oldest first; it ends at the slot before `writePos`. -/
structure Jrn where
  records      : List JournalRecord
  writePos     : Nat
  reservations : Nat
  sequence     : Nat
  overflow     : Nat
  deriving DecidableEq, Repr

/-! ## Events (09) -/

/-- EVU's state (R167 to R169): bit i of `flags` and `masks` belongs to the flag in place i of the table of R167; a mask bit of 1
means unmasked; `attn` is the ATTN output, true while active. -/
structure Evu where
  flags       : BitVec 19
  masks       : BitVec 19
  routine     : Bool
  exceptional : Bool
  attn        : Bool
  deriving DecidableEq, Repr

/-! ## Host link (11) -/

/-- The reply status codes (R185). -/
inductive Status where
  | ok | busy | refused | badArg | badFrame | locked | badSeq
  deriving DecidableEq, Repr

/-- The reasons of a REFUSED reply (R185). -/
inductive RefusedReason where
  | listFull | noNode | notOut | clash | noSession
  deriving DecidableEq, Repr

/-- A reply (R185, R186): kind byte, status, reason, page byte and page count, and the data. -/
structure Reply where
  kind   : Byte
  status : Status
  reason : Option RefusedReason
  page   : Option (Nat × Nat)
  data   : List Byte
  deriving DecidableEq, Repr

/-- What the request buffer holds (R184): a request being served, or a reply whose last byte has not been sent; `resetAfter`
marks the OK reply to a RESET request (R181). -/
inductive Buffered where
  | request (command : Instr)
  | reply (r : Reply) (resetAfter : Bool)
  deriving DecidableEq, Repr

/-- HLI's state (11); `fast`: the baud rate read at the end of the last reset is 115,200 (R188; log entry 40). -/
structure Hli where
  buffer     : Option Buffered
  linkErrors : Nat
  fast       : Bool
  deriving DecidableEq, Repr

/-! ## Outputs and the whole -/

/-- A beacon (R30): its number and up to two command entries with the tag each carries. -/
structure BeaconFrame where
  number  : Nat
  entries : List (Addr × BusCommand × Nat)
  deriving DecidableEq, Repr

/-- The last message sent on each output line (log entry 30). -/
structure Outputs where
  lineA  : Option StationMsg
  lineB  : Option StationMsg
  beacon : Option BeaconFrame
  deriving DecidableEq, Repr

/-- What the part is doing (R180, R181): running, in a warm reset (with whether its load found the image invalid), or without
power. -/
inductive Phase where
  | running
  | warmReset (settingsLost : Bool)
  | off
  deriving DecidableEq, Repr

/-- The state of the NL24. `pending` is the queue of commands that wait, first in, first out. -/
structure State where
  phase     : Phase
  resetHeld : Bool
  msv       : Msv
  mbc       : Mbc
  fba       : Fba
  pay       : Pay
  cru       : Cru
  flm       : PerMachine FaultRecord
  jrn       : Jrn
  evu       : Evu
  sst       : Sst
  hli       : Hli
  out       : Outputs
  pending   : List Instr
  deriving DecidableEq, Repr

/-- No command of this block stops the machine with a fault: the spec gives each one an effect, so nothing raises one and
nothing about it can be safe or unsafe. -/
inductive Fault
  deriving DecidableEq, Repr

/-- Why a command has no meaning. -/
inductive Refusal where
  /-- Raised by an arm of `exec` whose command is not modelled yet. Safe: the model stops where the part goes on. -/
  | notModelled (mnemonic : String)
  deriving DecidableEq, Repr

/-! ## Named updates -/

/-- The state with another phase. -/
def State.withPhase (s : State) (x : Phase) : State := { s with phase := x }
/-- The state with the RESET input as given. -/
def State.withResetHeld (s : State) (x : Bool) : State := { s with resetHeld := x }
/-- The state with another MSV. -/
def State.withMsv (s : State) (x : Msv) : State := { s with msv := x }
/-- The state with another MBC. -/
def State.withMbc (s : State) (x : Mbc) : State := { s with mbc := x }
/-- The state with another FBA. -/
def State.withFba (s : State) (x : Fba) : State := { s with fba := x }
/-- The state with another PAY. -/
def State.withPay (s : State) (x : Pay) : State := { s with pay := x }
/-- The state with another CRU. -/
def State.withCru (s : State) (x : Cru) : State := { s with cru := x }
/-- The state with another FLM. -/
def State.withFlm (s : State) (x : PerMachine FaultRecord) : State := { s with flm := x }
/-- The state with another JRN. -/
def State.withJrn (s : State) (x : Jrn) : State := { s with jrn := x }
/-- The state with another EVU. -/
def State.withEvu (s : State) (x : Evu) : State := { s with evu := x }
/-- The state with another SST. -/
def State.withSst (s : State) (x : Sst) : State := { s with sst := x }
/-- The state with another HLI. -/
def State.withHli (s : State) (x : Hli) : State := { s with hli := x }
/-- The state with other outputs. -/
def State.withOut (s : State) (x : Outputs) : State := { s with out := x }
/-- The state with another queue of commands. -/
def State.withPending (s : State) (x : List Instr) : State := { s with pending := x }

/-! ## Reset values -/

/-- An exchange record after a cold reset whose retained check failed (R77). -/
def Exchange.cleared : Exchange := { orderCounter := 0, order := none, conflicts := 0, lates := 0, lineErrors := 0 }

/-- The journal after a cold reset whose retained check failed (R162). -/
def Jrn.cleared : Jrn := { records := [], writePos := 0, reservations := 0, sequence := 0, overflow := 0 }

/-- EVU after the clearing that every reset makes (R168, R172). -/
def Evu.cleared : Evu := { flags := 0#19, masks := 0#19, routine := false, exceptional := false, attn := false }

/-- The machine right after reset: the end of the power-on cold reset whose retained check failed and which found no valid
settings image (R180; log entries 3 and 4). RETAINED_LOST and SETTINGS_LOST are set (R172), the START_UP discovery has queued
its first offer (R45, R48), the recovery window has begun (R28), and everything else is as the rules give it for that reset. -/
def State.reset : State where
  phase := .running
  resetHeld := false
  msv := { records := Vector.replicate 24 .cleared, recoveryWindow := some 30 }
  mbc :=
    { nodes := Vector.replicate 24 (.afterReset false none)
      queue := [{ addr := 0, command := .assign, sends := 0, tag := none, owner := .mbc, sentNow := false }]
      beacons := 0
      discovery :=
        { active := true, cause := some .startUp, offered := some 0, window := 0, unanswered := 0, occupied := []
          fresh := false }
      scanComplete := false, scanCount := 0, scanSkip := false, periodOpen := false }
  fba :=
    { entries := Vector.replicate 24 .empty, startList := [], raises := [], starts := [], arrivals := 0, beff := 1600
      overBudget := false, line := .normal, demand := .normal, debounce := 0 }
  pay := { a := .cleared, b := .cleared, halted := false }
  cru := { refunds := [], pendings := [] }
  flm := Vector.replicate 24 .cleared
  jrn := .cleared
  evu := { flags := 0b0110000000000000000#19, masks := 0#19, routine := false, exceptional := false, attn := false }
  sst :=
    { working := .factory, image := .factory, imageMarked := false, imageCheck := true, commit := none, unsaved := false
      lock := false, lockCode := none, clock := none, roomMode := .opened, lastReset := .cold }
  hli := { buffer := none, linkErrors := 0, fast := false }
  out := { lineA := none, lineB := none, beacon := none }
  pending := []

end Sys2Proof.Machine
end

