-- ==== Sys2Proof/Machine/Flags.lean ====
section
/-! DEFINITION. EVU: the 19 event flags, their masks and classes, and ATTN (09, R167 to R172). -/
namespace Sys2Proof.Machine

/-- The 19 event flags, in the order of the table of R167. -/
inductive EventFlag where
  | sale | topup | cycleEnd | refundCredited | journalWaiting
  | fault | lockout | nodeSilent | addressClash | overBudget | demandShed | journalTight | journalFull | debitUncertain
  | debitUnresolved | payHalted | settingsLost | retainedLost | linkOverrun
  deriving DecidableEq, Repr

/-- The place of a flag in the table of R167, which is its bit (11, section 11.3). -/
def EventFlag.index : EventFlag → Nat
  | .sale => 0
  | .topup => 1
  | .cycleEnd => 2
  | .refundCredited => 3
  | .journalWaiting => 4
  | .fault => 5
  | .lockout => 6
  | .nodeSilent => 7
  | .addressClash => 8
  | .overBudget => 9
  | .demandShed => 10
  | .journalTight => 11
  | .journalFull => 12
  | .debitUncertain => 13
  | .debitUnresolved => 14
  | .payHalted => 15
  | .settingsLost => 16
  | .retainedLost => 17
  | .linkOverrun => 18

/-- The flags of the routine class, the first five of R167. -/
def routineFlags : BitVec 19 := 0x1F#19

/-- The flags of the exceptional class, the other fourteen of R167. -/
def exceptionalFlags : BitVec 19 := 0x7FFE0#19

/-- R168: the flags whose class is enabled. -/
def Evu.enabledFlags (e : Evu) : BitVec 19 :=
  (if e.routine then routineFlags else 0#19) ||| (if e.exceptional then exceptionalFlags else 0#19)

/-- R169: some flag is set, unmasked and in an enabled class. -/
def Evu.calls (e : Evu) : Bool := (e.flags &&& e.masks &&& e.enabledFlags) != 0#19

/-- R169: EVU finds ATTN again. -/
def Evu.findAttn (e : Evu) : Evu := { e with attn := e.calls }

/-- R167: a flag is set, and ATTN is found again. -/
def Evu.set (e : Evu) (f : EventFlag) : Evu :=
  { e with flags := e.flags ||| (1#19 <<< f.index) }.findAttn

/-- Whether a flag is set. -/
def Evu.isSet (e : Evu) (f : EventFlag) : Bool := e.flags.getLsbD f.index

/-- R171: the flags returned are cleared, and ATTN is found again. -/
def Evu.clearAll (e : Evu) : Evu := { e with flags := 0#19 }.findAttn

/-- R170: all 21 values are replaced, and ATTN is found again. -/
def Evu.setMasks (e : Evu) (masks : BitVec 19) (routine exceptional : Bool) : Evu :=
  { e with masks := masks, routine := routine, exceptional := exceptional }.findAttn

/-- A block sets an event flag (R167). -/
def setEvent (f : EventFlag) (s : State) : State := s.withEvu (s.evu.set f)

/-- A block sets an event flag where a condition holds. -/
def setEventIf (c : Bool) (f : EventFlag) (s : State) : State := if c then setEvent f s else s

end Sys2Proof.Machine
end

