-- ==== Sys2Proof/Machine/Ops.lean ====
section
/-! DEFINITION. The operations every block shares: table access, the clock, the journal (08). -/
namespace Sys2Proof.Machine

/-- What a command answers. -/
abbrev Result := Host.Outcome State Fault Refusal

/-! ## Tables -/

/-- The entry of a machine. -/
def PerMachine.at {α : Type} (v : PerMachine α) (m : Addr) : α := v[m]

/-- The table with another entry for one machine. -/
def PerMachine.put {α : Type} (v : PerMachine α) (m : Addr) (x : α) : PerMachine α := v.set m.val x m.isLt

/-- The table with every entry changed. -/
def PerMachine.mapAll {α β : Type} (v : PerMachine α) (f : α → β) : PerMachine β :=
  ⟨⟨v.toArray.toList.map f⟩, by simp⟩

/-- The table with every entry changed by its machine and its value. -/
def PerMachine.mapWith {α β : Type} (v : PerMachine α) (f : Addr → α → β) : PerMachine β :=
  ⟨⟨List.zipWith f allMachines v.toArray.toList⟩, by simp [allMachines]⟩

/-- Do something for every machine, in ascending number. -/
def forMachines (f : Addr → State → State) (s : State) : State := allMachines.foldl (fun s m => f m s) s

/-- A machine's record (R1). -/
def State.record (s : State) (m : Addr) : MachineRecord := s.msv.records.at m

/-- A machine's record changed. -/
def State.setRecord (s : State) (m : Addr) (r : MachineRecord) : State :=
  s.withMsv { s.msv with records := s.msv.records.put m r }

/-- A machine's session changed where there is one. -/
def State.mapSession (s : State) (m : Addr) (f : Session → Session) : State :=
  s.setRecord m { s.record m with session := (s.record m).session.map f }

/-- An address's node-table entry (R33). -/
def State.node (s : State) (m : Addr) : NodeEntry := s.mbc.nodes.at m

/-- An address's node-table entry changed. -/
def State.setNode (s : State) (m : Addr) (n : NodeEntry) : State :=
  s.withMbc { s.mbc with nodes := s.mbc.nodes.put m n }

/-- A machine's grant table entry (R53). -/
def State.grant (s : State) (m : Addr) : GrantEntry := s.fba.entries.at m

/-- A machine's grant table entry changed. -/
def State.setGrant (s : State) (m : Addr) (e : GrantEntry) : State :=
  s.withFba { s.fba with entries := s.fba.entries.put m e }

/-- A machine's fault record (R129). -/
def State.faults (s : State) (m : Addr) : FaultRecord := s.flm.at m

/-- A machine's fault record changed. -/
def State.setFaults (s : State) (m : Addr) (r : FaultRecord) : State := s.withFlm (s.flm.put m r)

/-- A station's exchange (R77). -/
def State.exchange (s : State) : Station → Exchange
  | .a => s.pay.a
  | .b => s.pay.b

/-- A station's exchange changed. -/
def State.setExchange (s : State) (st : Station) (x : Exchange) : State :=
  match st with
  | .a => s.withPay { s.pay with a := x }
  | .b => s.withPay { s.pay with b := x }

/-- The other pay station. -/
def otherStation : Station → Station
  | .a => .b
  | .b => .a

/-- PAY sends a message to a station (R76). -/
def sendStation (st : Station) (msg : StationMsg) (s : State) : State :=
  match st with
  | .a => s.withOut { s.out with lineA := some msg }
  | .b => s.withOut { s.out with lineB := some msg }

/-! ## The clock -/

/-- The present day and minute; none while the clock is UNSET (R149, R178) (log entry 23). -/
def State.stamp (s : State) : Option Stamp := s.sst.clock.map fun c => ⟨c.day, c.minute⟩

/-- The present day number; none while the clock is UNSET. -/
def State.today (s : State) : Option Nat := s.sst.clock.map (·.day)

/-- The part is out of reset and has power. -/
def State.isRunning (s : State) : Bool := s.phase == .running

/-- What a command does while the part runs; in a reset and without power it is not received (R75, R178, R188; log entry 31). -/
def whenRunning (f : State → State) (s : State) : State := if s.isRunning then f s else s

/-! ## The journal (08) -/

/-- R158: the journal state. -/
inductive JournalState where
  | opened | tight | full
  deriving DecidableEq, Repr

/-- R148: the free count. -/
def Jrn.free (j : Jrn) : Nat := Config.journalSlots - (j.records.length + j.reservations)

/-- R158: the state follows the free count. -/
def Jrn.state (j : Jrn) : JournalState :=
  if 3 ≤ j.free then .opened else if 1 ≤ j.free then .tight else .full

/-- R158: the journal has changed, and JRN finds its state again. -/
def withJournal (j : Jrn) (s : State) : State :=
  let s1 := s.withJrn j
  if j.state = s.jrn.state then s1
  else match j.state with
    | .opened => s1
    | .tight => setEvent .journalTight s1
    | .full => setEvent .journalFull s1

/-- R155: new reservations are taken, or refused when fewer slots are free. -/
def reserveSlots (n : Nat) (s : State) : Option State :=
  if s.jrn.free < n then none
  else some (withJournal { s.jrn with reservations := s.jrn.reservations + n } s)

/-- R156: reservations are returned, those of one act together (log entry 10). -/
def returnSlots (n : Nat) (s : State) : State :=
  withJournal { s.jrn with reservations := s.jrn.reservations - n } s

/-- R148, R151: a record is put at the write position and takes the next sequence number. -/
def Jrn.append (j : Jrn) (stamp : Option Stamp) (body : RecordBody) : Jrn :=
  { j with
    records := j.records ++ [{ sequence := j.sequence, stamp := stamp, body := body }]
    writePos := wrapInc 127 j.writePos
    sequence := wrapInc 65535 j.sequence }

/-- R159: the host-owned count rises from 0 to 1. -/
def noteWaiting (before : Jrn) (s : State) : State := setEventIf before.records.isEmpty .journalWaiting s

/-- R153: a non-money record is written into a free slot, or dropped with the overflow count incremented. -/
def writeFree (body : RecordBody) (s : State) : State :=
  if s.jrn.free = 0 then s.withJrn { s.jrn with overflow := satInc 65535 s.jrn.overflow }
  else noteWaiting s.jrn (withJournal (s.jrn.append s.stamp body) s)

/-- R152: a money record is written against a reservation. A reservation always stands ready (R152); were there none, the record
would be written into a free slot, so that the sum of R154 stays within 128 (log entry 24). -/
def writeMoney (body : RecordBody) (s : State) : State :=
  if s.jrn.reservations = 0 then writeFree body s
  else noteWaiting s.jrn
    (withJournal { s.jrn.append s.stamp body with reservations := s.jrn.reservations - 1 } s)

/-- R161: the number of records up to and with the one of a sequence number; none when no host-owned record bears it. -/
def releaseCount (q : Nat) : List JournalRecord → Option Nat
  | [] => none
  | r :: rs => if r.sequence = q then some 1 else (releaseCount q rs).map (· + 1)

/-- R161: the oldest records are freed. -/
def releaseRecords (n : Nat) (s : State) : State :=
  withJournal { s.jrn with records := s.jrn.records.drop n } s

end Sys2Proof.Machine
end

