-- ==== Sys2Proof/Machine/Money.lean ====
section
/-! DEFINITION. The formulas of chapter 05: tariff, charges, minutes, fold, meter step and refunds. -/
namespace Sys2Proof.Machine

/-- The present tariff bands. -/
def Settings.presentBands (g : Settings) : List Band := g.bands.toArray.toList.filterMap id

/-- The band with the largest start of a list. -/
def latestBand : List Band → Option Band
  | [] => none
  | b :: bs =>
    match latestBand bs with
    | none => some b
    | some c => if c.start < b.start then some b else some c

/-- R99: the tariff percent of a minute of day; `clockSet` says whether the clock is set. -/
def tariffPercent (bands : List Band) (clockSet : Bool) (t : Nat) : Nat :=
  if !clockSet || bands.isEmpty then 100
  else match latestBand (bands.filter fun b => b.start ≤ t) with
    | some b => b.percent
    | none => ((latestBand bands).map (·.percent)).getD 100

/-- The tariff percent of this moment (R99). -/
def State.tariff (s : State) : Nat :=
  match s.sst.clock with
  | none => tariffPercent s.sst.working.presentBands false 0
  | some c => tariffPercent s.sst.working.presentBands true c.minute

/-- R100: the wash charge of a gross price at a tariff percent. -/
def washCharge (gross pct : Nat) : Nat := min ((gross * pct + 50) / 100) Config.maxCharge

/-- R100: the gross price of a wash. -/
def washGross (base warm hot : Nat) : WashOption → Nat
  | .cold => base
  | .warm => base + warm
  | .hot => base + hot

/-- R101: the minutes sold of a new dryer purchase. -/
def newMinutes (lim : Limits) (asked : Nat) : Nat := clamp lim.dryerMin lim.dryerMax asked

/-- R101: the minutes sold of a top-up; none when the cap is below 1 (TIME_FULL). -/
def topupMinutes (lim : Limits) (left asked : Nat) : Option Nat :=
  let cap := lim.dryerMax - left
  if cap < 1 then none else some (clamp 1 cap asked)

/-- R102: the dryer charge of the minutes sold. -/
def dryerCharge (rate10 minutes pct : Nat) (isNew : Bool) : Nat :=
  let p := min ((rate10 * minutes * pct + 500) / 1000) Config.maxCharge
  if isNew then max p 1 else p

/-- What the fold gives (R84, R103 to R105). -/
inductive Fold where
  | full (balance folded : Nat)
  | creditOnly (balance folded : Nat)
  | short
  deriving DecidableEq, Repr

/-- R103 to R105: the new balance and the credit folded, from the balance read, the reversal, the usable credit and the
charge. -/
def foldOrder (b x c p : Nat) : Fold :=
  if p ≤ b + x + c then
    let t := b + x + c - p
    if t ≤ Config.maxBalance then .full t c
    else .full Config.maxBalance (c - (t - Config.maxBalance))
  else if 0 < x + c then .creditOnly (min (b + x + c) Config.maxBalance) c
  else .short

/-- R106: one meter step of a dryer session. -/
def Session.meterStep (z : Session) : Session :=
  let m := z.minutes.getD 0
  let c := z.value / m
  { z with value := z.value - c, consumed := z.consumed + c, minutes := some (m - 1) }

/-- R109: the refund of a running washer. -/
def washerRefund (total planned grace run : Nat) : Nat :=
  let e := run / 60
  if e < grace then total
  else if planned ≤ e then 0
  else total * (planned - e) / planned

/-- R108: the refund of a session ended with refund in a state. -/
def Session.refund (z : Session) (state : MState) (grace : Nat) : Nat :=
  match state with
  | .running =>
    match z.figures with
    | .dryer _ _ _ _ => z.value
    | .washer planned _ _ => washerRefund z.total planned grace z.runClock
  | _ => z.total

/-- The level draws of a session's program copy (R53). -/
def Figures.draws : Figures → LevelDraws
  | .washer _ b h => .washer b h
  | .dryer _ a l h => .dryer a l h

/-- The kind of a program copy. -/
def Figures.kind : Figures → Kind
  | .washer _ _ _ => .washer
  | .dryer _ _ _ _ => .dryer

/-- The figures a session copies from a program (R2). -/
def ProgramBody.figures : ProgramBody → Figures
  | .washer _ _ _ planned b h => .washer planned b h
  | .dryer rate a l h => .dryer rate a l h

/-- R114: the hash index of a card serial. -/
def hashIndex (serial : Nat) : Nat :=
  (serial % 512 + serial / 512 % 512 + serial / 262144 % 512 + serial / 134217728 % 512) % 512

end Sys2Proof.Machine
end

