-- ==== Sys2Proof/Machine/Credit.lean ====
section
/-! DEFINITION. CRU: the card screen, the refund credit table and the pending debit table (06). -/
namespace Sys2Proof.Machine

/-! ## The screen -/

/-- A serial is marked: it is in the perfect list or its hash bit is set (section 6.1). -/
def Screen.marked (sc : Screen) (serial : Nat) : Bool := sc.list.contains serial || sc.hash.getLsbD (hashIndex serial)

/-- R113: the screen passes a serial. -/
def Screen.passes (sc : Screen) (serial : Nat) : Bool :=
  match sc.mode with
  | .opened => true
  | .deny => !sc.marked serial
  | .allow => sc.marked serial

/-! ## The refund credit table -/

/-- The refund entry of a serial. -/
def Cru.refund (c : Cru) (serial : Nat) : Option RefundEntry := c.refunds.find? (·.serial == serial)

/-- The pending entry of a serial. -/
def Cru.pendingOf (c : Cru) (serial : Nat) : Option PendingEntry := c.pendings.find? (·.serial == serial)

/-- The refund entry of a serial changed in place. -/
def mapRefund (serial : Nat) (f : RefundEntry → RefundEntry) (s : State) : State :=
  s.withCru { s.cru with refunds := s.cru.refunds.map fun e => if e.serial == serial then f e else e }

/-- The refund entry of a serial removed; the entries behind it keep their order. -/
def removeRefund (serial : Nat) (s : State) : State :=
  s.withCru { s.cru with refunds := s.cru.refunds.filter (·.serial != serial) }

/-- The pending entry of a serial removed. -/
def removePending (serial : Nat) (s : State) : State :=
  s.withCru { s.cru with pendings := s.cru.pendings.filter (·.serial != serial) }

/-- R118: neither pledge nor hold. -/
def RefundEntry.evictable (e : RefundEntry) : Bool := !e.pledged && e.hold.isNone

/-- R121: the pledge on a serial's refund entry is cleared. -/
def unpledge (serial : Nat) (s : State) : State := mapRefund serial (fun e => { e with pledged := false }) s

/-- R120: the oldest evictable entry is evicted. An evictable entry always exists when the table is full (R120); were there
none, the oldest entry would leave (log entry 25). -/
def evictRefund (s : State) : State :=
  match (s.cru.refunds.find? RefundEntry.evictable).or s.cru.refunds.head? with
  | none => s
  | some e =>
    removeRefund e.serial
      (writeMoney { kind := .refundExpired, machine := e.origin, serial := some e.serial, amount := some e.amount
                    detail := .evicted } s)

/-- Which credit R119 takes: a refund, a refused top-up (R88) or a host grant (R127). -/
inductive CreditKind where
  | refund | topupRefused | grant
  deriving DecidableEq, Repr

/-- R119: the detail of the record of a credit that lost an amount to the cap. -/
def CreditKind.detail (k : CreditKind) (lost : Nat) : Detail :=
  match k with
  | .topupRefused => .topupRefused lost
  | .refund | .grant => if lost = 0 then .none else .lostToCap lost

/-- R127: a grant writes REFUND_GRANTED in place of REFUND_CREDITED. -/
def CreditKind.record : CreditKind → RecordKind
  | .grant => .refundGranted
  | .refund | .topupRefused => .refundCredited

/-- R119: the record of a credit, written with the caller's first reservation, and its event. -/
def recordCredit (k : CreditKind) (serial amount origin after lost : Nat) (s : State) : State :=
  setEvent .refundCredited
    (writeMoney { kind := k.record, machine := origin, serial := some serial, amount := some amount
                  balanceAfter := some after, detail := k.detail lost } s)

/-- R119 step 1: the amount joins the serial's entry. -/
def creditExisting (k : CreditKind) (e : RefundEntry) (amount origin : Nat) (s : State) : State :=
  let after := min (e.amount + amount) Config.maxBalance
  returnSlots 1
    (recordCredit k e.serial amount origin after (e.amount + amount - after)
      (mapRefund e.serial (fun x => { x with amount := after, origin := origin }) s))

/-- R119 steps 2 and 3: a new entry at the newest end, after an eviction when the table is full. -/
def creditNew (k : CreditKind) (serial amount origin : Nat) (s : State) : State :=
  let s1 := if Config.refundEntries ≤ s.cru.refunds.length then evictRefund s else s
  let after := min amount Config.maxBalance
  recordCredit k serial amount origin after (amount - after)
    (s1.withCru { s1.cru with
      refunds := s1.cru.refunds ++
        [{ serial := serial, amount := after, created := s.today, pledged := false, hold := none, origin := origin }] })

/-- R119: a credit reaches CRU with the caller's two reservations. -/
def creditSerial (k : CreditKind) (serial amount origin : Nat) (s : State) : State :=
  match s.cru.refund serial with
  | some e => creditExisting k e amount origin s
  | none => creditNew k serial amount origin s

/-- R123 steps 1 and 2: the created day as the check finds it. -/
def RefundEntry.dated (e : RefundEntry) (today : Nat) : RefundEntry :=
  match e.created with
  | none => { e with created := some today }
  | some d => if today < d then { e with created := some today } else e

/-- R123 for one entry of the table. -/
def expireEntry (today : Nat) (s : State) (old : RefundEntry) : State :=
  let e := old.dated today
  if e.evictable && decide (s.sst.working.limits.expiry ≤ today - e.created.getD today) then
    removeRefund e.serial
      (writeMoney { kind := .refundExpired, machine := e.origin, serial := some e.serial, amount := some e.amount
                    detail := .aged } s)
  else mapRefund e.serial (fun x => x.dated today) s

/-- R123: the expiry check, through the table in its order; none while the clock is UNSET. -/
def expiryCheck (s : State) : State :=
  match s.today with
  | none => s
  | some today => s.cru.refunds.foldl (expireEntry today) s

/-! ## Settlement (R87 step 2, R122) -/

/-- R122: the new amount of a refund entry; `taken` is what leaves it and `r` the remainder added back. An entry brought to 0 is
removed and its reservation returned. -/
def settleRefund (serial taken r : Nat) (s : State) : State :=
  match s.cru.refund serial with
  | none => s
  | some e =>
    let after := e.amount - taken + r
    if after = 0 then returnSlots 1 (removeRefund serial s)
    else mapRefund serial (fun x => { x with amount := after }) s

/-- R119, R122: REFUND_CREDITED for a reversal remainder, with the detail REVERSAL_REMAINDER, and its event. It names the origin
machine that the entry keeps (log entry 53). -/
def recordRemainder (serial r : Nat) (s : State) : State :=
  match s.cru.refund serial with
  | none => s
  | some e =>
    setEvent .refundCredited
      (writeMoney { kind := .refundCredited, machine := e.origin, serial := some serial, amount := some r
                    balanceAfter := some e.amount, detail := .reversalRemainder } s)

/-- The remainder R of a resolution; 0 but for TOOK (R82). -/
def Resolution.remainder : Resolution → Nat
  | .took r => r
  | .notTaken => 0

/-- The credit F of the resolved pending entry that is known to have been folded: F for TOOK, 0 otherwise (R82). -/
def tookFolded (res : Option Resolution) (p : Option PendingEntry) : Nat :=
  match res with
  | some (.took _) => (p.map (·.folded)).getD 0
  | _ => 0

/-- R87 step 2, R122: CRU settles the card's tables at a DONE outcome. The hold is cleared, a resolved pending entry is removed
with its pledge, and its reservation writes REFUND_CREDITED for R when R > 0 and is returned otherwise. -/
def settleTables (o : Order) (s : State) : State :=
  let taken := o.folded.getD 0 + tookFolded o.resolution (s.cru.pendingOf o.serial)
  let r := (o.resolution.map Resolution.remainder).getD 0
  let s1 := settleRefund o.serial taken r (mapRefund o.serial (fun e => { e with hold := none }) s)
  match o.resolution with
  | none => s1
  | some _ =>
    let s2 := removePending o.serial (unpledge o.serial s1)
    if 0 < r then recordRemainder o.serial r s2 else returnSlots 1 s2

/-! ## The pending debit table -/

/-- R124: the pending entry of a serial is resolved-in-flight at a station. -/
def Exchange.resolves (x : Exchange) (serial : Nat) : Bool :=
  match x.order with
  | some o => o.serial == serial && o.resolution.isSome
  | none => false

/-- R124: an ORDERED exchange has resolved the serial's pending entry and awaits its outcome. -/
def State.inFlight (s : State) (serial : Nat) : Bool := s.pay.a.resolves serial || s.pay.b.resolves serial

/-- The amount where it is above 0 (R150, the fields of DEBIT_UNRESOLVED). -/
def positive (n : Nat) : Option Nat := if n = 0 then none else some n

/-- R82, R125: DEBIT_UNRESOLVED for a pending entry, with its own reservation; the event; the pledge cleared; the entry
removed. -/
def dropPending (p : PendingEntry) (balance counter : Option Nat) (detail : Detail) (s : State) : State :=
  removePending p.serial (unpledge p.serial
    (setEvent .debitUnresolved
      (writeMoney { kind := .debitUnresolved, machine := addrNumber p.machine, serial := some p.serial
                    amount := some p.amount, balanceAfter := balance, counterAfter := counter, folded := positive p.folded
                    reversal := positive p.reversal, detail := detail } s)))

/-- R125: in a full table the oldest entry that is not resolved-in-flight is evicted. One such entry always exists (R125); were
there none, the oldest would leave (log entry 25). -/
def evictPending (s : State) : State :=
  match (s.cru.pendings.find? fun p => !s.inFlight p.serial).or s.cru.pendings.head? with
  | none => s
  | some p => dropPending p none none .evicted s

/-- The pending entry that describes an order (R90 step 2). -/
def Order.pendingEntry (o : Order) (day : Option Nat) : PendingEntry :=
  { serial := o.serial, counterRead := o.counterRead, balanceRead := o.balanceRead, targetBalance := o.newBalance
    targetCounter := o.newCounter, amount := o.charge, reversal := o.reversal.getD 0, folded := o.folded.getD 0
    machine := o.machine, day := day }

/-- R121, R90: the hold ends, and the pledge stands exactly when the order folded credit. -/
def pledgeFor (o : Order) (s : State) : State :=
  mapRefund o.serial (fun e => { e with hold := none, pledged := decide (0 < o.folded.getD 0) }) s

/-- R90 step 2: the purchase resolved no pending entry; one is created at the newest end. It takes one of the exchange's
reservations, and the third is returned. -/
def createPending (o : Order) (s : State) : State :=
  let s1 := if Config.pendingEntries ≤ s.cru.pendings.length then evictPending s else s
  returnSlots 1
    (pledgeFor o (s1.withCru { s1.cru with pendings := s1.cru.pendings ++ [o.pendingEntry s.today] }))

/-- R90 step 3, R125: the purchase resolved the card's entry; CRU settles F and R for TOOK, rewrites the entry and moves it to
the newest end. Reservations not used are returned. -/
def updatePending (o : Order) (res : Resolution) (s : State) : State :=
  let taken := tookFolded (some res) (s.cru.pendingOf o.serial)
  let r := res.remainder
  let s1 := settleRefund o.serial taken r s
  let s2 := if 0 < r then recordRemainder o.serial r s1 else s1
  let s3 := removePending o.serial s2
  returnSlots (if 0 < r then 1 else 2)
    (pledgeFor o (s3.withCru { s3.cru with pendings := s3.cru.pendings ++ [o.pendingEntry s.today] }))

end Sys2Proof.Machine
end

