-- ==== Sys2Proof/Machine/Bus.lean ====
section
/-! DEFINITION. MBC: the bus command queue, beacons, acknowledgements and discovery (02). -/
namespace Sys2Proof.Machine

/-- An address's node-table entry changed by a function. -/
def mapNode (m : Addr) (f : NodeEntry → NodeEntry) (s : State) : State := s.setNode m (f (s.node m))

/-! ## The command queue -/

/-- The class of a command that names a node; none for ASSIGN (section 2.5). -/
def BusCommand.cls : BusCommand → Option CommandClass
  | .arm _ _ | .disarm | .stop _ | .hold => some .control
  | .grant _ _ => some .level
  | .assign => none

/-- The entry fills a class's place for an address (R39). -/
def BusEntry.fills (e : BusEntry) (m : Addr) (c : CommandClass) : Bool := e.addr == m && e.command.cls == some c

/-- The entry of a class waiting for an address. -/
def Mbc.waiting (b : Mbc) (m : Addr) (c : CommandClass) : Option BusEntry := b.queue.find? (·.fills m c)

/-- R39: a command joins the tail, or replaces the address's command of its class in place. -/
def enqueueIn (q : List BusEntry) (m : Addr) (c : CommandClass) (cmd : BusCommand) (owner : BusOwner) : List BusEntry :=
  let e : BusEntry := { addr := m, command := cmd, sends := 0, tag := none, owner := owner, sentNow := false }
  if q.any (·.fills m c) then q.map fun x => if x.fills m c then e else x else q ++ [e]

/-- R39: a control or level command is queued; one for an address whose presence is NONE is discarded. -/
def queueCommand (m : Addr) (cmd : BusCommand) (owner : BusOwner) (s : State) : State :=
  match cmd.cls with
  | none => s
  | some c =>
    if (s.node m).known then s.withMbc { s.mbc with queue := enqueueIn s.mbc.queue m c cmd owner } else s

/-- The entry of a class leaves the queue. -/
def dropCommand (m : Addr) (c : CommandClass) (s : State) : State :=
  s.withMbc { s.mbc with queue := s.mbc.queue.filter fun e => !e.fills m c }

/-- MSV queues a control command. -/
def queueControl (m : Addr) (cmd : BusCommand) (s : State) : State := queueCommand m cmd .msv s

/-- R9: MSV queues ARM for the session, and clears the ARM-acknowledged mark. -/
def queueArm (m : Addr) (s : State) : State :=
  match (s.record m).session with
  | none => s
  | some z => queueControl m (.arm z.program z.option) (s.mapSession m fun z => { z with armAcked := false })

/-- FBA queues GRANT, and GRANT pending becomes yes (R71). -/
def queueGrant (m : Addr) (level : Level) (fill : Bool) (s : State) : State :=
  if (s.node m).known then
    queueCommand m (.grant level fill) .fba (s.setGrant m { s.grant m with pending := true })
  else s

/-- R42, R43: the block that queued a command is told that it was taken (`taken`) or lost. MSV keeps that an ARM was taken
(R9); FBA's GRANT pending becomes no (R71). -/
def tellOwner (m : Addr) (cmd : BusCommand) (taken : Bool) (s : State) : State :=
  match cmd with
  | .arm _ _ => if taken then s.mapSession m fun z => { z with armAcked := true } else s
  | .grant _ _ => s.setGrant m { s.grant m with pending := false }
  | .disarm | .stop _ | .hold | .assign => s

/-- R42 for one class: an echo equal to the tag of an entry sent at least once acknowledges it. -/
def acknowledge (m : Addr) (c : CommandClass) (echo : Nat) (s : State) : State :=
  match s.mbc.waiting m c with
  | none => s
  | some e =>
    if 0 < e.sends && e.tag == some echo then tellOwner m e.command true (dropCommand m c s) else s

/-! ## Beacons -/

/-- R41: the tag after a counter's value, 255 being followed by 1. -/
def nextTag (n : Nat) : Nat := if n < 255 then n + 1 else 1

/-- R41: the tag given from a counter, avoiding the last echo (log entry 37). -/
def giveTag (counter echo : Nat) : Nat :=
  let t := nextTag counter
  if t = echo then nextTag t else t

/-- R40: the entry may go into the beacon of this period. -/
def BusEntry.eligible (b : Mbc) (e : BusEntry) : Bool :=
  match e.command with
  | .assign => b.discovery.window == 0
  | _ =>
    let n := b.nodes.at e.addr
    n.heard && !n.silentMark && decide (e.sends < Config.sendLimit)

/-- R41: the tag an entry goes out with. -/
def BusEntry.sendTag (n : NodeEntry) (c : CommandClass) (e : BusEntry) : Nat :=
  match e.tag, c with
  | some t, _ => t
  | none, .control => giveTag n.ctlTag n.ctlEcho
  | none, .level => giveTag n.lvlTag n.lvlEcho

/-- R41, R43: a control or level entry goes into the beacon: its send count rises, and a first send gives it its tag. -/
def sendCommand (e : BusEntry) (c : CommandClass) (s : State) : State :=
  let t := e.sendTag (s.node e.addr) c
  let s1 := s.withMbc { s.mbc with
    queue := s.mbc.queue.map fun x =>
      if x.fills e.addr c then { x with sends := x.sends + 1, tag := some t, sentNow := true } else x }
  if e.tag.isSome then s1
  else mapNode e.addr (fun n => match c with
    | .control => { n with ctlTag := t }
    | .level => { n with lvlTag := t }) s1

/-- R45 step 2: the ASSIGN leaves the queue and opens an answer window of the two periods after this one (log entry 33). -/
def sendAssign (s : State) : State :=
  s.withMbc { s.mbc with
    queue := s.mbc.queue.filter (·.command != .assign)
    discovery := { s.mbc.discovery with window := 2, fresh := true } }

/-- An entry goes into the beacon. -/
def sendEntry (s : State) (e : BusEntry) : State :=
  match e.command.cls with
  | none => sendAssign s
  | some c => sendCommand e c s

/-- What the beacon carries of an entry: the address, the command and its tag, 0 for ASSIGN (11, Machine bus frames). -/
def BusEntry.carried (b : Mbc) (e : BusEntry) : Addr × BusCommand × Nat :=
  (e.addr, e.command, match e.command.cls with
    | none => 0
    | some c => e.sendTag (b.nodes.at e.addr) c)

/-- R30, R40: the first two eligible entries, in queue order. -/
def Mbc.chosen (b : Mbc) : List BusEntry := (b.queue.filter fun e => e.eligible b).take 2

/-! ## Discovery -/

/-- R45: the discovery ends. The scan that follows a START_UP discovery begins with the next period (R48) (log entry 34). -/
def endDiscovery (s : State) : State :=
  s.withMbc { s.mbc with
    discovery := { s.mbc.discovery with active := false, offered := none, window := 0, fresh := false }
    scanSkip := s.mbc.periodOpen }

/-- R45 step 1: the lowest address that is neither held nor in the occupied set. -/
def Mbc.lowestFree (b : Mbc) : Option Addr :=
  allMachines.find? fun a => !(b.nodes.at a).known && !b.discovery.occupied.contains a

/-- R45 step 1: MBC offers the lowest free address, or the discovery ends. -/
def offerNext (s : State) : State :=
  match s.mbc.lowestFree with
  | none => endDiscovery s
  | some a =>
    s.withMbc { s.mbc with
      discovery := { s.mbc.discovery with offered := some a, window := 0, fresh := false }
      queue := s.mbc.queue ++
        [{ addr := a, command := .assign, sends := 0, tag := none, owner := .mbc, sentNow := false }] }

/-- R45: a discovery is started. -/
def startDiscovery (cause : DiscoveryCause) (s : State) : State :=
  offerNext (s.withMbc { s.mbc with
    discovery := { active := true, cause := some cause, offered := none, window := 0, unanswered := 0, occupied := []
                   fresh := false } })

/-- R45: while a discovery is ACTIVE, an address in whose slot something was heard joins the occupied set. -/
def noteOccupied (m : Addr) (s : State) : State :=
  let d := s.mbc.discovery
  if d.active && !d.occupied.contains m then
    s.withMbc { s.mbc with discovery := { d with occupied := d.occupied ++ [m] } }
  else s

/-- R45: the answer window is open in this period. -/
def Discovery.windowOpen (d : Discovery) : Bool := decide (0 < d.window) && !d.fresh

/-- R45 step 3: a valid report in the offered slot while the window is open answers the ASSIGN. -/
def Discovery.answeredBy (d : Discovery) (m : Addr) : Bool := d.active && d.offered == some m && d.windowOpen

/-- R45 step 3: after an answer the count is 0, the window closes, and the next address is offered. -/
def assignAnswered (s : State) : State :=
  offerNext (s.withMbc { s.mbc with
    discovery := { s.mbc.discovery with unanswered := 0, offered := none, window := 0, fresh := false } })

/-- R45 step 4: the window has closed without an answer. -/
def Mbc.windowClosed (b : Mbc) : Bool :=
  b.discovery.active && b.discovery.offered.isSome && b.discovery.window == 0 && !b.queue.any (·.command == .assign)

/-- R45 step 4: the unanswered offer is counted; the third ends the discovery, and otherwise MBC offers again. -/
def assignUnanswered (s : State) : State :=
  let n := s.mbc.discovery.unanswered + 1
  let s1 := s.withMbc { s.mbc with discovery := { s.mbc.discovery with unanswered := n, offered := none } }
  if 3 ≤ n then endDiscovery s1 else offerNext s1

/-- R48: the period being closed counts for the first slot scan. -/
def Mbc.scanning (b : Mbc) : Bool :=
  !b.scanComplete && !b.scanSkip && !(b.discovery.active && b.discovery.cause == some .startUp)

end Sys2Proof.Machine
end

