-- ==== Sys2Proof/Machine/Feeder.lean ====
section
/-! DEFINITION. FBA: draws, the admission queue, grants, shedding, rebuilds and releases (03), with the notice by which MSV
enters RUNNING (R13). Each operation that FBA does as a whole ends in one review of the queue (log entry 35). -/
namespace Sys2Proof

/-- The order of the levels of a kind (R55, R61). -/
def Level.rank : Level → Nat
  | .base | .air => 0
  | .heat | .low => 1
  | .high => 2

/-- The kind a level belongs to (R32). -/
def Level.kind : Level → Kind
  | .base | .heat => .washer
  | .air | .low | .high => .dryer

/-- The lowest level of a kind (section 3.2). -/
def lowestLevel : Kind → Level
  | .washer => .base
  | .dryer => .air

end Sys2Proof

namespace Sys2Proof.Machine

/-! ## Levels and draws -/

/-- R54: the draw of a level. -/
def LevelDraws.draw : LevelDraws → Level → Nat
  | .washer b _, .base => b
  | .washer b h, .heat => b + h
  | .dryer a _ _, .air => a
  | .dryer _ l _, .low => l
  | .dryer _ _ h, .high => h
  | _, _ => 0

/-- The draw of a level by an entry's level draws; 0 where it has none. -/
def GrantEntry.drawOf (e : GrantEntry) (l : Level) : Nat :=
  match e.draws with
  | some d => d.draw l
  | none => 0

/-- R54: committed draw, the sum of the draws of all 24 entries. -/
def Fba.committed (f : Fba) : Nat := (f.entries.toArray.toList.map (·.draw)).sum

/-- R54: the fill count, the number of entries with fill held. -/
def Fba.fillCount (f : Fba) : Nat := (f.entries.toArray.toList.filter (·.fill)).length

/-- The fill-slot limit (R56). -/
def State.fillLimit (s : State) : Nat := s.sst.working.limits.fillSlots

/-- A machine's grant table entry changed by a function. -/
def mapGrant (m : Addr) (f : GrantEntry → GrantEntry) (s : State) : State := s.setGrant m (f (s.grant m))

/-- The wanted level last reported is above AIR (R16, R63). -/
def GrantEntry.wantsHeat (e : GrantEntry) : Bool := e.wanted.any fun w => decide (0 < w.1.rank)

/-- R63: the mark of a dryer's hold once the grant takes a level: the hold begins where the level becomes AIR while more is
wanted, goes on where AIR is only granted again, and ends with a level above AIR (log entry 41). -/
def GrantEntry.holdAt (e : GrantEntry) (l : Level) : Bool :=
  l == .air && (if e.granted = some .air then e.held else e.wantsHeat)

/-- The grant takes a level and a fill, and its draw is found again (R54). -/
def GrantEntry.regrant (e : GrantEntry) (l : Level) (fill : Bool) : GrantEntry :=
  { e with granted := some l, fill := fill, draw := e.drawOf l, held := e.holdAt l }

/-- The grant is changed, GRANT is queued and GRANT pending set (R55, R62, R66, R69). -/
def changeGrant (m : Addr) (l : Level) (fill : Bool) (s : State) : State :=
  queueGrant m l fill (mapGrant m (·.regrant l fill) s)

/-! ## The admission queue -/

/-- R57: the next arrival number is used. -/
def Fba.nextArrival (f : Fba) : Nat := wrapInc 65535 f.arrivals

/-- A machine has a RAISE entry. -/
def Fba.hasRaise (f : Fba) (m : Addr) : Bool := f.raises.any (·.machine == m)

/-- A machine has a START entry. -/
def Fba.hasStart (f : Fba) (m : Addr) : Bool := f.starts.any (·.machine == m)

/-- R58: a RAISE entry at the tail of the RAISE group, with a fresh raise-wait timer (R64) (log entry 9). -/
def addRaise (m : Addr) (l : Level) (fill : Bool) (s : State) : State :=
  s.withFba { s.fba with
    raises := s.fba.raises ++
      [{ machine := m, level := l, fill := fill, arrival := s.fba.arrivals
         timer := s.sst.working.limits.raiseWait * 60 }]
    arrivals := s.fba.nextArrival }

/-- R55: a RAISE entry is added, or the target of the machine's RAISE entry is set in place. -/
def setRaise (m : Addr) (l : Level) (fill : Bool) (s : State) : State :=
  if s.fba.hasRaise m then
    s.withFba { s.fba with
      raises := s.fba.raises.map fun e => if e.machine == m then { e with level := l, fill := fill } else e }
  else addRaise m l fill s

/-- R66: a shed machine gets a RAISE entry unless it has one. -/
def ensureRaise (m : Addr) (l : Level) (fill : Bool) (s : State) : State :=
  if s.fba.hasRaise m then s else addRaise m l fill s

/-- R58: a machine's RAISE entry is removed. -/
def removeRaise (m : Addr) (s : State) : State :=
  s.withFba { s.fba with raises := s.fba.raises.filter (·.machine != m) }

/-- R58: a machine's START entry is removed. -/
def removeStart (m : Addr) (s : State) : State :=
  s.withFba { s.fba with starts := s.fba.starts.filter (·.machine != m) }

/-- R58: a machine's entry is removed, whichever it is. -/
def removeEntries (m : Addr) (s : State) : State := removeStart m (removeRaise m s)

/-- R58: a START entry at the tail of the START group, or the target of the machine's START entry set in place
(log entry 9). -/
def addStart (m : Addr) (l : Level) (fill : Bool) (s : State) : State :=
  if s.fba.hasStart m then
    s.withFba { s.fba with
      starts := s.fba.starts.map fun e => if e.machine == m then { e with level := l, fill := fill } else e }
  else
    s.withFba { s.fba with
      starts := s.fba.starts ++ [{ machine := m, level := l, fill := fill, arrival := s.fba.arrivals, timer := 0 }]
      arrivals := s.fba.nextArrival }

/-! ## Grants -/

/-- R59: an entry fits: the draw of its target within B_eff, and a fill slot where one is needed. -/
def Fba.fits (f : Fba) (limit : Nat) (present target : Nat) (needsSlot : Bool) : Bool :=
  decide (f.committed - present + target ≤ f.beff) && (!needsSlot || decide (f.fillCount + 1 ≤ limit))

/-- R14: the guard timer of a washer entering RUNNING, in seconds. -/
def guardLoad (planned margin : Nat) : Nat := (planned + margin) * 60

/-- R13: what MSV does to the session when FBA grants the START entry (log entry 23). -/
def Session.started (z : Session) (now : Option Stamp) (margin : Nat) : Session :=
  { z with
    startWait := 0, startWindow := 0, startTime := now, runClock := 0
    guardTimer := match z.figures with
      | .washer planned _ _ => guardLoad planned margin
      | .dryer _ _ _ _ => 0
    blockTimer := match z.figures with
      | .washer _ _ _ => 0
      | .dryer _ _ _ _ => Config.blockSeconds }

/-- R13: FBA tells MSV of a granted START, and the record enters RUNNING. -/
def enterRunning (m : Addr) (s : State) : State :=
  let r := s.record m
  s.setRecord m { r with
    state := .running
    session := r.session.map fun z => z.started s.stamp s.sst.working.limits.guardMargin }

/-- R55 for RUNNING: a decrease is taken at once; an increase still wanted adds or sets the RAISE entry; where none is wanted
the RAISE entry is removed. The queue is reviewed by the caller (log entry 35). -/
def compareWanted (m : Addr) (s : State) : State :=
  let e := s.grant m
  match e.granted, e.wanted with
  | some g, some (w, wf) =>
    if g.kind = w.kind then
      let g' := if w.rank < g.rank then w else g
      let f' := e.fill && wf
      let s1 := if g' = g ∧ f' = e.fill then s else changeGrant m g' f' s
      if g'.rank < w.rank || (wf && !f') then setRaise m w wf s1 else removeRaise m s1
    else s
  | _, _ => s

/-- R60: a washer's START entry is granted, and the wanted levels last reported are compared with the grant (log entry 7). -/
def grantWasherStart (m : Addr) (d : LevelDraws) (s : State) : State :=
  let s1 := mapGrant m (fun e => { e with draws := some d }.regrant .base true) s
  let s2 := removeStart m (s1.withFba { s1.fba with startList := s1.fba.startList ++ [m] })
  compareWanted m (enterRunning m (queueGrant m .base true s2))

/-- R61: a dryer's START entry is granted at a level; below the target a RAISE entry for the target joins, and at AIR the dryer
starts on hold (R13, R63). -/
def grantDryerStart (m : Addr) (d : LevelDraws) (level target : Level) (s : State) : State :=
  let s1 := mapGrant m (fun e =>
    { { e with draws := some d }.regrant level false with held := level == .air && decide (level.rank < target.rank) }) s
  let s2 := removeStart m (s1.withFba { s1.fba with startList := s1.fba.startList ++ [m] })
  let s3 := enterRunning m (queueGrant m level false s2)
  if level.rank < target.rank then addRaise m target false s3 else s3

/-- R61: the levels of a dryer from a target downward to AIR. -/
def dryerLevels : Level → List Level
  | .high => [.high, .low, .air]
  | .low => [.low, .air]
  | _ => [.air]

/-- R60, R61: the START entry at the head is granted where it fits. -/
def grantStart (e : AdmEntry) (s : State) : Option State :=
  match (s.record e.machine).session with
  | none => none
  | some z =>
    match z.figures.draws with
    | .washer b h =>
      if s.fba.fits s.fillLimit 0 b true then some (grantWasherStart e.machine (.washer b h) s) else none
    | .dryer a l h =>
      match (dryerLevels e.level).find? fun x => s.fba.fits s.fillLimit 0 ((LevelDraws.dryer a l h).draw x) false with
      | some x => some (grantDryerStart e.machine (.dryer a l h) x e.level s)
      | none => none

/-- R62: the RAISE entry at the head is granted whole where it fits. -/
def grantRaise (e : AdmEntry) (s : State) : Option State :=
  let x := s.grant e.machine
  if s.fba.fits s.fillLimit x.draw (x.drawOf e.level) (e.fill && !x.fill) then
    some (changeGrant e.machine e.level (x.fill || e.fill) (removeRaise e.machine s))
  else none

/-- R59: the head of the queue is the first RAISE entry, or else the first START entry; it is granted if it fits. -/
def grantHead (s : State) : Option State :=
  match s.fba.raises, s.fba.starts with
  | e :: _, _ => grantRaise e s
  | [], e :: _ => grantStart e s
  | [], [] => none

/-- R59: heads are granted one after the other until one does not fit. A START grant leaves at most one RAISE entry more and a
RAISE grant one fewer, so twice the queue's length bounds the turns. -/
def grantHeads : Nat → State → State
  | 0, s => s
  | n + 1, s =>
    match grantHead s with
    | none => s
    | some s' => grantHeads n s'

/-- R59: the queue is re-examined; while OVER_BUDGET is declared nothing is granted. -/
def reexamine (s : State) : State :=
  if s.fba.overBudget then s else grantHeads (s.fba.raises.length + 2 * s.fba.starts.length) s

/-- R67: OVER_BUDGET is cleared when committed draw is at or below B_eff. -/
def clearOverBudget (s : State) : State :=
  if s.fba.committed ≤ s.fba.beff then s.withFba { s.fba with overBudget := false } else s

/-- R59, R67: what follows a change of committed draw, B_eff, the fill count, the fill-slot limit or the queue. -/
def review (s : State) : State := reexamine (clearOverBudget s)

/-! ## Shedding -/

/-- R65: a grant may be shed from one level to the lower one. -/
def State.sheddable (s : State) (m : Addr) (upper lower : Level) : Bool :=
  let e := s.grant m
  (s.record m).state == .running && !e.heldSilent && e.granted == some upper && decide (e.drawOf lower < e.draw)

/-- R66: one machine is shed. -/
def shedOne (m : Addr) (lower : Level) (s : State) : State :=
  let e := s.grant m
  let target := e.wanted.getD (e.granted.getD lower, e.fill)
  ensureRaise m target.1 target.2 (changeGrant m lower e.fill s)

/-- R65: one step of the check, newest started first, until committed draw is within B_eff. -/
def shedStep (upper lower : Level) (s : State) : State :=
  s.fba.startList.reverse.foldl
    (fun s m => if s.fba.beff < s.fba.committed && s.sheddable m upper lower then shedOne m lower s else s) s

/-- R65, R67: the budget check. -/
def budgetCheck (s : State) : State :=
  let s1 := shedStep .heat .base (shedStep .low .air (shedStep .high .low s))
  if s1.fba.committed ≤ s1.fba.beff then review s1
  else setEventIf (!s1.fba.overBudget) .overBudget (s1.withFba { s1.fba with overBudget := true })

/-- R65, R67: the check where committed draw is above B_eff, and the review otherwise. -/
def checkOrReview (s : State) : State := if s.fba.beff < s.fba.committed then budgetCheck s else review s

/-- R55, R67: what follows a report's decrease. A decrease may raise the draw, since a program may give a lower level the greater
figure; then the check is made unless OVER_BUDGET is declared already, so that committed draw exceeds B_eff only while it is
(log entry 28). -/
def reviewDecrease (s : State) : State := if s.fba.overBudget then review s else checkOrReview s

/-- R52: the effective budget of the demand state and the working settings. -/
def State.effectiveBudget (s : State) : Nat :=
  match s.fba.demand with
  | .normal => s.sst.working.budget
  | .shed => s.sst.working.budget * s.sst.working.shed / 100

/-- R52: FBA recomputes B_eff and compares committed draw with it. -/
def recomputeBudget (s : State) : State := checkOrReview (s.withFba { s.fba with beff := s.effectiveBudget })

/-! ## Release, silence, reports -/

/-- R70: MSV asks FBA to release a machine's grant. -/
def releaseGrant (m : Addr) (s : State) : State :=
  let e := s.grant m
  match e.granted with
  | none => review (removeEntries m s)
  | some g =>
    let s1 := mapGrant m (fun e =>
      { e with granted := none, fill := false, draw := 0, heldSilent := false, held := false, draws := none }) s
    let s2 := removeEntries m (s1.withFba { s1.fba with startList := s1.fba.startList.filter (· != m) })
    review (if e.pending then queueGrant m (lowestLevel g.kind) false s2 else s2)

/-- R68: a silence notice reaches FBA. -/
def feederSilent (m : Addr) (s : State) : State :=
  let e := s.grant m
  if e.heldSilent then s
  else
    review (removeEntries m
      (mapGrant m (fun e => { e with heldSilent := e.granted.isSome, excessRun := 0 }) s))

/-- R68: a heard-again notice reaches FBA. -/
def feederHeard (m : Addr) (s : State) : State := mapGrant m (fun e => { e with excessRun := 0 }) s

/-- R72: a reported actual level is above the grant. -/
def GrantEntry.exceededBy (e : GrantEntry) (actual : Level) (fill : Bool) : Bool :=
  match e.granted with
  | some g =>
    if g.kind = actual.kind then decide (g.rank < actual.rank) || (fill && !e.fill)
    else decide (0 < actual.rank) || fill
  | none => decide (0 < actual.rank) || fill

/-- R72: the excess run after a report, and the reports owed to FLM when it reaches 2 and 10. -/
def GrantEntry.countExcess (e : GrantEntry) (actual : Level) (fill : Bool) : GrantEntry :=
  if e.pending then { e with excessRun := 0 }
  else if e.exceededBy actual fill then
    { e with
      excessRun := satInc 10 e.excessRun
      excessOwed := e.excessOwed || e.excessRun == 1
      persistOwed := e.persistOwed || e.excessRun == 9 }
  else { e with excessRun := 0 }

/-- R69: the level of a grant after a rebuild: the reported actual level, but never above the held level. -/
def rebuiltLevel (g actual : Level) : Level := if actual.rank ≤ g.rank then actual else g

/-- R69, R27: the grant after a rebuild from the reported actual level and fill. The hold is reported of the rebuilt grant: a dryer
at AIR that wants more is on hold from then on, be AIR the level reported or the held level that a higher actual level leaves, as
for a grant kept at AIR through a reset, which forgets the notices given before (R16, R63; log entry 41). -/
def GrantEntry.rebuilt (e : GrantEntry) (g actual : Level) (fill : Bool) : GrantEntry :=
  { e.regrant (rebuiltLevel g actual) (e.fill && fill) with
    heldSilent := false, held := rebuiltLevel g actual == .air && e.wantsHeat }

/-- R69: a held-silent grant is rebuilt from the node's report. -/
def rebuildGrant (m : Addr) (g actual : Level) (fill : Bool) (s : State) : State :=
  let s1 := mapGrant m (fun e => e.rebuilt g actual fill) s
  let e := s1.grant m
  checkOrReview
    (if (s.record m).state = .running then queueGrant m (e.granted.getD g) e.fill s1 else s1)

/-- R69: the rebuild where the grant is held silent. -/
def rebuildIfHeld (m : Addr) (actual : Level) (fill : Bool) (s : State) : State :=
  match (s.grant m).heldSilent, (s.grant m).granted with
  | true, some g => rebuildGrant m g actual fill s
  | _, _ => s

/-- R55, R63: an entry with the levels of a report stored and the excess check made; a wanted level of AIR ends a dryer's
hold. -/
def GrantEntry.reported (e : GrantEntry) (r : NodeReport) : GrantEntry :=
  { e.countExcess r.actual r.actualFill with
    actual := some (r.actual, r.actualFill), wanted := some (r.wanted, r.wantedFill), held := e.held && r.wanted != .air }

/-- R55: FBA takes the levels of a report, by the state MSV has just set. -/
def feederReport (m : Addr) (r : NodeReport) (s : State) : State :=
  let s1 := mapGrant m (·.reported r) s
  if (s1.grant m).granted.any (fun g => g.kind != r.kind) then s1
  else match (s1.record m).state with
    | .running => reviewDecrease (compareWanted m (rebuildIfHeld m r.actual r.actualFill s1))
    | .aborting => rebuildIfHeld m r.actual r.actualFill s1
    | .starting =>
      if r.kind = .dryer && s1.fba.hasStart m then review (addStart m r.wanted false s1) else s1
    | _ => s1

/-! ## Holds -/

/-- R16, R63: the machine's session is on hold: a washer's while it has a RAISE entry, a dryer's from the notice that its hold
began to the notice that it ended (log entry 41). -/
def State.onHold (s : State) (m : Addr) : Bool :=
  match (s.record m).session with
  | none => false
  | some z =>
    match z.figures.kind with
    | .washer => s.fba.hasRaise m
    | .dryer => (s.grant m).held

end Sys2Proof.Machine
end

