-- ==== Sys2Proof/Machine/Sessions.lean ====
section
/-! DEFINITION. MSV: entering states, arming, starting, ending, disarming and aborting sessions (01). -/
namespace Sys2Proof.Machine

/-! ## Records and states -/

/-- A machine's record changed by a function. -/
def mapRecord (m : Addr) (f : MachineRecord → MachineRecord) (s : State) : State := s.setRecord m (f (s.record m))

/-- R131: the open mark of a machine's fault record set or cleared. -/
def setOpenMark (m : Addr) (b : Bool) (s : State) : State := s.setFaults m { s.faults m with openMark := b }

/-- R23: IDLE, DONE and FAULTED become OFFLINE while the silent flag is set. -/
def MachineRecord.landing (r : MachineRecord) (target : MState) : MState :=
  match target with
  | .idle | .done | .faulted => if r.silent then .offline else target
  | _ => target

/-- A record enters a state. The unload timer is loaded on entering DONE and is 0 in every other state (R18, R19); FLM clears the
open mark of a record that enters IDLE or OFFLINE (R131). -/
def enterState (m : Addr) (target : MState) (s : State) : State :=
  let dest := (s.record m).landing target
  let s1 := mapRecord m (fun r =>
    { r with state := dest, unloadTimer := if dest = .done then Config.unloadSeconds else 0 }) s
  if dest = .idle ∨ dest = .offline then setOpenMark m false s1 else s1

/-- The state a retained state names (R1). -/
def Retained.state : Retained → MState
  | .armed => .armed
  | .starting => .starting
  | .running => .running

/-- R27: the recovery ends, and the record takes its retained state. -/
def endRecovery (m : Addr) (s : State) : State :=
  mapRecord m (fun r =>
    match r.state, r.retained with
    | .recovering, some t => { r with state := t.state, retained := none }
    | _, _ => r) s

/-- The state that a fault or an order finds: for a RECOVERING record the retained state (R129, R142). -/
def MachineRecord.effective (r : MachineRecord) : MState :=
  match r.state, r.retained with
  | .recovering, some t => t.state
  | x, _ => x

/-- The machine's session is standing in a state that a timer of its own may run in (R14, R15, R16): RUNNING, not silent and not
on hold. -/
def State.meterRuns (s : State) (m : Addr) : Bool :=
  (s.record m).state == .running && !(s.record m).silent && !s.onHold m

/-! ## Ending a session -/

/-- R10, R20, R157: the session's refund is credited with its two reservations, or both are returned; the session and the silence
timer go. -/
def disposeSession (m : Addr) (r : Nat) (s : State) : State :=
  match (s.record m).session with
  | none => s
  | some z =>
    let s1 := if 0 < r then creditSerial .refund z.payer r (addrNumber m) s else returnSlots 2 s
    mapRecord m (fun x => { x with session := none, silenceTimer := 0 }) s1

/-- R10: disarm with full refund. -/
def disarmRefund (m : Addr) (s : State) : State :=
  match (s.record m).session with
  | none => s
  | some z =>
    enterState m .idle (disposeSession m z.total (review (removeEntries m (queueControl m .disarm s))))

/-- R18: the normal end of a run; `target` is DONE, or IDLE where R27 says so. -/
def normalEnd (m : Addr) (target : MState) (s : State) : State :=
  match (s.record m).session with
  | none => s
  | some z =>
    let s1 := releaseGrant m s
    let s2 := writeFree { kind := .cycleEnd, machine := addrNumber m, serial := some z.payer, amount := some z.total } s1
    let s3 := s2.setFaults m { s2.faults m with stopCount := 0 }
    let s4 := disposeSession m 0 (setEvent .cycleEnd s3)
    enterState m target (mapRecord m (fun x => { x with retained := none }) s4)

/-! ## Aborts (R20) -/

/-- What MSV reports to FLM of a session that an order ended: the payer serial and the refund. -/
abbrev Ended := Option (Nat × Nat)

/-- The refund of an order for the session of a machine (R20, R108). -/
def State.orderRefund (s : State) (m : Addr) (withRefund : Bool) : Nat :=
  match (s.record m).session with
  | some z => if withRefund then z.refund (s.record m).state s.sst.working.limits.grace else 0
  | none => 0

/-- R20: the session of an ARMED or STARTING record is ended by an order; `dest` is FAULTED or OUT_OF_SERVICE. -/
def abortUnstarted (m : Addr) (withRefund : Bool) (dest : MState) (s : State) : State :=
  enterState m dest
    (disposeSession m (s.orderRefund m withRefund) (queueControl m .disarm (review (removeEntries m s))))

/-- R20: a RUNNING session is ended by an order; the grant stays until the node stops (R21). -/
def abortRunning (m : Addr) (withRefund : Bool) (dest : StopDest) (s : State) : State :=
  let s1 := review (removeEntries m (queueControl m (.stop true) s))
  mapRecord m (fun x => { x with state := .aborting, stopDest := some dest })
    (disposeSession m (s.orderRefund m withRefund) s1)

/-- R20, R11: a STARTING record goes back to ARMED; the start-window timer goes on from its remaining time. -/
def backToArmed (m : Addr) (s : State) : State :=
  review (removeEntries m
    ((mapRecord m (fun x => { x with state := .armed }) s).mapSession m fun z => { z with startWait := 0 }))

/-- R20: the table of abort orders, for a record that is not RECOVERING. -/
def abortIn (m : Addr) (sev : Severity) (withRefund : Bool) (s : State) : State :=
  match (s.record m).state, sev with
  | .armed, .stop => abortUnstarted m withRefund .faulted s
  | .armed, .lockout => abortUnstarted m withRefund .outOfService s
  | .starting, .retry => backToArmed m s
  | .starting, .stop => abortUnstarted m withRefund .faulted s
  | .starting, .lockout => abortUnstarted m withRefund .outOfService s
  | .running, .stop => abortRunning m withRefund .faulted s
  | .running, .lockout => abortRunning m withRefund .outOfService s
  | .reserved, .lockout => mapRecord m (fun x => { x with lockoutPending := true }) s
  | .aborting, .lockout => mapRecord m (fun x => { x with stopDest := some .outOfService }) s
  | .faulted, .lockout | .idle, .lockout | .done, .lockout | .offline, .lockout | .absent, .lockout =>
    enterState m .outOfService s
  | _, _ => s

/-- R20: MSV applies an abort order, a RECOVERING record taking its retained state first (R27). -/
def applyAbort (m : Addr) (sev : Severity) (withRefund : Bool) (s : State) : State :=
  abortIn m sev withRefund (endRecovery m s)

/-- R20 step 4: what MSV reports of an order that ends a session: one of STOP or LOCKOUT severity that finds one. -/
def abortReport (m : Addr) (sev : Severity) (withRefund : Bool) (s : State) : Ended :=
  let s1 := endRecovery m s
  match (s1.record m).session, (s1.record m).state, sev with
  | _, _, .retry => none
  | some z, .armed, _ | some z, .starting, _ | some z, .running, _ => some (z.payer, s1.orderRefund m withRefund)
  | _, _, _ => none

/-- R135: MSV reports a refund to FLM, which stores it in the current fault. -/
def storeRefund (m : Addr) (e : Ended) (s : State) : State :=
  match e, (s.faults m).current with
  | some (payer, r), some c =>
    s.setFaults m { s.faults m with current := some { c with payer := some payer, refund := some r } }
  | _, _ => s

/-- R21: an ABORTING node has stopped. -/
def abortingStopped (m : Addr) (s : State) : State :=
  let dest := match (s.record m).stopDest with
    | some .outOfService => MState.outOfService
    | _ => MState.faulted
  enterState m dest (mapRecord m (fun x => { x with stopDest := none }) (releaseGrant m s))

/-! ## Arming and starting -/

/-- R2: the session that an exchange's DONE creates. -/
def Order.session (o : Order) (window : Nat) : Session :=
  { payer := o.serial, program := o.program, figures := o.figures, option := o.option, total := o.charge, value := o.charge
    consumed := 0, minutes := o.minutes, purchases := 1, runClock := 0, guardTimer := 0, blockTimer := 0
    startWindow := window * 60, startWait := 0, startTime := none, ending := false, armAcked := false }

/-- R8, DONE: the session is created and ARM queued. A lockout pending is then applied to the new session; otherwise, in CLOSED,
it is disarmed at once (log entry 12). The start window is that of the working settings now: the model's choice between R2 and R98
(log entry 67). -/
def armMachine (o : Order) (s : State) : State :=
  let m := o.machine
  let r := s.record m
  let s1 := s.setRecord m { r with
    state := .armed, reserving := none, lockoutPending := false
    session := some (o.session s.sst.working.limits.startWindow)
    silenceTimer := if r.silent then Config.silenceSeconds else 0 }
  let s2 := queueArm m s1
  if r.lockoutPending then
    storeRefund m (abortReport m .lockout true s2) (applyAbort m .lockout true s2)
  else if s.sst.roomMode = .closed then disarmRefund m s2
  else s2

/-- R8: an outcome other than DONE frees the machine. -/
def freeMachine (m : Addr) (s : State) : State :=
  let s1 := mapRecord m (fun x => { x with reserving := none, lockoutPending := false }) s
  if (s.record m).lockoutPending then enterState m .outOfService s1 else enterState m .idle s1

/-- R17: MSV adds a top-up to the session. -/
def Session.topup (z : Session) (charge minutes : Nat) : Session :=
  { z with total := z.total + charge, value := z.value + charge, minutes := some (z.minutes.getD 0 + minutes)
           purchases := z.purchases + 1 }

/-- R17: a top-up by a payer may be added to the record's session. -/
def MachineRecord.takesTopup (r : MachineRecord) (payer : Nat) : Bool :=
  match r.session with
  | none => false
  | some z =>
    (r.state == .armed || r.state == .starting || r.state == .running) && z.payer == payer && !z.ending &&
      decide (z.purchases < Config.maxPurchases)

/-- R11 step 5, R58: the START entry that MSV asks for. -/
def askStart (m : Addr) (wanted : Level) (s : State) : State :=
  match (s.record m).session with
  | none => s
  | some z =>
    match z.figures.kind with
    | .washer => addStart m .base true s
    | .dryer => addStart m wanted false s

/-- R11: steps 1 to 4 of entering STARTING. -/
def beginStarting (m : Addr) (s : State) : State :=
  queueControl m .hold
    ((mapRecord m (fun x => { x with state := .starting }) s).mapSession m fun z =>
      { z with startWait := s.sst.working.limits.startWait * 60 })

/-- R11: an ARMED record enters STARTING. -/
def enterStarting (m : Addr) (wanted : Level) (s : State) : State := review (askStart m wanted (beginStarting m s))

/-- R9: the node has not kept the arming; ARM is queued again if the last was acknowledged. -/
def rearm (m : Addr) (s : State) : State :=
  if (s.record m).session.any (·.armAcked) then queueArm m s else s

/-- R27: a record resolves to ARMED with the start-window timer loaded anew. -/
def resolveArmed (m : Addr) (s : State) : State :=
  (mapRecord m (fun x => { x with state := .armed, retained := none }) s).mapSession m fun z =>
    { z with startWindow := s.sst.working.limits.startWindow * 60, startWait := 0 }

/-- R27, R22: after a resolution to ARMED or STARTING, a disarm with full refund while the room is CLOSED. -/
def disarmIfClosed (m : Addr) (s : State) : State := if s.sst.roomMode = .closed then disarmRefund m s else s

/-! ## Silence (R23) -/

/-- R23: a silence notice reaches MSV. That nothing changes in ABSENT and OFFLINE is read of what follows the flag and the event,
which are set for such a record as well (log entry 48). -/
def sessionsSilent (m : Addr) (s : State) : State :=
  let r := s.record m
  if r.state = .recovering then s
  else
    let s1 := setEvent .nodeSilent s
    if r.silent then s1
    else
      let s2 := mapRecord m (fun x =>
        { x with silent := true, silenceTimer := if x.session.isSome then Config.silenceSeconds else 0 }) s1
      match r.state with
      | .idle | .done | .faulted => enterState m .offline s2
      | _ => s2

/-- R35: a silence notice is given to MSV and FBA (log entry 26). -/
def giveSilence (m : Addr) (s : State) : State := feederSilent m (sessionsSilent m s)

end Sys2Proof.Machine
end

