-- ==== Sys2Proof/Machine/Faults.lean ====
section
/-! DEFINITION. FLM: severities, primary and secondary faults, records and events (07). -/
namespace Sys2Proof.Machine

/-- The place of a fault kind in the list of R130, from 0. -/
def faultIndex : FaultKind → Fin 12
  | .doorLock => 0
  | .noFill => 1
  | .noDrain => 2
  | .overTemp => 3
  | .motor => 4
  | .drawExcess => 5
  | .nodeStale => 6
  | .nodeSilent => 7
  | .cmdLost => 8
  | .cycleOverrun => 9
  | .heldTooLong => 10
  | .addressClash => 11

/-- The order of the severities: RETRY < STOP < LOCKOUT (R129). -/
def Severity.rank : Severity → Nat
  | .retry => 0
  | .stop => 1
  | .lockout => 2

/-- The greater of two severities. -/
def Severity.max (a b : Severity) : Severity := if a.rank < b.rank then b else a

/-- R130: the severity of a fault by its kind, whether it is the persisting form, and the record's state. -/
def severityOf (k : FaultKind) (persisting : Bool) (state : MState) : Severity :=
  match k with
  | .doorLock =>
    match state with
    | .armed | .starting => .retry
    | _ => .stop
  | .noDrain | .motor | .addressClash => .lockout
  | .drawExcess => if persisting then .lockout else .stop
  | .noFill | .overTemp | .nodeStale | .nodeSilent | .cmdLost | .cycleOverrun | .heldTooLong => .stop

/-- R138: the history count of a kind rises. -/
def FaultRecord.counted (r : FaultRecord) (k : FaultKind) : FaultRecord :=
  { r with history := r.history.set (faultIndex k).val (satInc 255 (r.history[faultIndex k])) (faultIndex k).isLt }

/-- The record of a fault's kind (R139). -/
def faultRecordKind : FaultKind → RecordKind
  | .addressClash => .clash
  | _ => .fault

/-- R139: the ended session whose payer and refund the record of a fault bears. For CLASH, R150 gives neither, and
Config.clashBearsSession is which of the two rules holds (log entry 13). -/
def recordedEnd (k : FaultKind) (e : Ended) : Ended :=
  match k with
  | .addressClash => if Config.clashBearsSession then e else none
  | _ => e

/-- R139, R150: the journal record of a fault, with payer and refund when the order ended a session. -/
def faultBody (m : Addr) (k : FaultKind) (sev : Severity) (escalated secondary : Bool) (e : Ended) : RecordBody :=
  { kind := faultRecordKind k, machine := addrNumber m
    serial := (recordedEnd k e).map (·.1), amount := (recordedEnd k e).map (·.2), faultKind := some k
    detail := .severity sev escalated secondary }

/-- R132 step 6: the open mark is set when the record stands in ABORTING, FAULTED or OUT_OF_SERVICE, or with lockout pending. -/
def MachineRecord.opensMark (r : MachineRecord) : Bool :=
  r.state == .aborting || r.state == .faulted || r.state == .outOfService || r.lockoutPending

/-- R132 step 4: the new current fault. -/
def newCurrent (m : Addr) (kind : Option FaultKind) (cause : FaultCause) (sev : Severity) (escalated : Bool) (s : State) :
    CurrentFault :=
  { kind := kind, cause := cause, severity := sev, escalated := escalated, stamp := s.stamp
    state := (s.record m).effective, payer := none, refund := none, secondary := none }

/-- R132 step 5: the abort order, whose refund is stored in the current fault. -/
def orderAbort (m : Addr) (sev : Severity) (withRefund : Bool) (s : State) : State :=
  storeRefund m (abortReport m sev withRefund s) (applyAbort m sev withRefund s)

/-- R133: the consecutive-STOP count after a fault of STOP or LOCKOUT severity on a session. -/
def countStop (r : FaultRecord) : Nat := satInc 9 r.stopCount

/-- R132: FLM takes a primary fault. -/
def takePrimary (m : Addr) (k : FaultKind) (persisting : Bool) (s : State) : State :=
  let session := (s.record m).session.isSome
  let own := severityOf k persisting (s.record m).effective
  let counts := session && decide (own ≠ .retry)
  let r1 := (s.faults m).counted k
  let n := if counts then countStop r1 else r1.stopCount
  let escalated := counts && own == .stop && decide (s.sst.working.limits.lockout ≤ n)
  let sev := if escalated then .lockout else own
  let s1 := s.setFaults m
    { r1 with stopCount := n, current := some (newCurrent m (some k) .fault sev escalated s) }
  let ended := abortReport m sev true s1
  let s2 := orderAbort m sev true s1
  let opens := (s2.record m).opensMark && (session || sev != .stop)
  let s3 := if opens then setOpenMark m true s2 else s2
  let s4 := writeFree (faultBody m k sev escalated false ended) s3
  setEventIf (sev == .lockout) .lockout (setEvent .fault s4)

/-- R136 steps 3 and 4: the current fault after a secondary. -/
def CurrentFault.joined (c : CurrentFault) (k : FaultKind) (sev : Severity) : CurrentFault :=
  { c with
    secondary := if c.secondary.isNone || decide (c.severity.rank < sev.rank) then some k else c.secondary
    severity := c.severity.max sev }

/-- R136: FLM takes a secondary fault (log entry 14). -/
def takeSecondary (m : Addr) (k : FaultKind) (persisting : Bool) (s : State) : State :=
  let own := severityOf k persisting (s.record m).effective
  let r1 := (s.faults m).counted k
  let raised := r1.current.any fun c => c.severity != .lockout && own == .lockout
  let s1 := s.setFaults m { r1 with current := r1.current.map fun c => c.joined k own }
  let s2 := if raised then applyAbort m .lockout false s1 else s1
  let s3 := setEventIf raised .lockout s2
  setEvent .fault (writeFree (faultBody m k own false true none) s3)

/-- R131: FLM takes a fault, as a primary or as a secondary by the open mark. -/
def takeFault (m : Addr) (k : FaultKind) (persisting : Bool) (s : State) : State :=
  if (s.faults m).openMark then takeSecondary m k persisting s else takePrimary m k persisting s

/-- The detail of the record of an abort that MSV gives itself (R146). -/
def FaultCause.detail : FaultCause → Detail
  | .kindChanged => .kindChanged
  | .runLost => .runLost
  | _ => .none

/-- R146: MSV gives itself an abort order with refund, which FLM records as a primary without a kind. -/
def selfAbort (m : Addr) (cause : FaultCause) (s : State) : State :=
  let s1 := s.setFaults m { s.faults m with current := some (newCurrent m none cause .stop false s) }
  let ended := abortReport m .stop true s1
  let s2 := orderAbort m .stop true s1
  let s3 := if (s2.record m).opensMark then setOpenMark m true s2 else s2
  setEvent .fault
    (writeFree { kind := .fault, machine := addrNumber m, serial := ended.map (·.1), amount := ended.map (·.2)
                 detail := cause.detail } s3)

end Sys2Proof.Machine
end

