-- ==== Sys2Proof/Machine/Reports.lean ====
section
/-! DEFINITION. A valid node report, as MBC, MSV, FBA and FLM take it (R32, R3 to R5, R9, R11, R18, R19, R21, R27, R36, R38), and
the end of the recovery window (R28). -/
namespace Sys2Proof.Machine

/-! ## MSV -/

/-- R5: the control command that a node state calls for on a machine that nothing is paid on. -/
def unpaidCommand : NodeState → Option BusCommand
  | .nArmed | .nStart => some .disarm
  | .nRun => some (.stop true)
  | _ => none

/-- R5: MSV queues that command. -/
def commandUnpaid (m : Addr) (n : NodeState) (s : State) : State :=
  match unpaidCommand n with
  | some c => queueControl m c s
  | none => s

/-- R19, R21: a report with the door OPEN moves a DONE or FAULTED record to IDLE. -/
def doorRelease (m : Addr) (d : Door) (s : State) : State :=
  match d with
  | .opened => enterState m .idle s
  | .closed => s

/-- R9: an ARMED record takes a node state. -/
def armedReport (m : Addr) (r : NodeReport) (s : State) : State :=
  match r.state with
  | .nStart | .nRun => enterStarting m r.wanted s
  | .nIdle | .nEnd | .nStopped => rearm m s
  | .nArmed | .nFault => s

/-- R11: a STARTING record takes a node state. -/
def startingReport (m : Addr) (r : NodeReport) (s : State) : State :=
  match r.state with
  | .nArmed => backToArmed m s
  | .nIdle | .nEnd | .nStopped => rearm m (backToArmed m s)
  | .nStart | .nRun => if s.fba.hasStart m then s else review (askStart m r.wanted s)
  | .nFault => s

/-- R18: a RUNNING record takes a node state. -/
def runningReport (m : Addr) (r : NodeReport) (s : State) : State :=
  match r.state with
  | .nEnd | .nIdle | .nStopped => normalEnd m .done s
  | _ => s

/-- R21: an ABORTING record takes a node state. -/
def abortingReport (m : Addr) (r : NodeReport) (s : State) : State :=
  match r.state with
  | .nStopped | .nEnd | .nIdle => abortingStopped m s
  | .nRun | .nStart | .nArmed => queueControl m (.stop true) s
  | .nFault => s

/-- R27: a retained ARMED or STARTING session whose node is starting enters STARTING as R11 states. In CLOSED the disarm follows
at once, before the entry could be granted (log entry 36). -/
def resolveStarting (m : Addr) (wanted : Level) (s : State) : State :=
  let s1 := askStart m wanted (beginStarting m (endRecovery m s))
  if s.sst.roomMode = .closed then disarmRefund m s1 else review s1

/-- R27: a RECOVERING record resolves by its retained state and the node state; its kind has been found right. -/
def resolveReport (m : Addr) (r : NodeReport) (s : State) : State :=
  match (s.record m).retained, r.state with
  | none, _ => s
  | some _, .nFault => disarmIfNotRunning (endRecovery m s)
  | some .running, .nRun => endRecovery m s
  | some .running, .nEnd => normalEnd m .done (endRecovery m s)
  | some .running, .nIdle | some .running, .nStopped => normalEnd m .idle (endRecovery m s)
  | some .running, .nArmed | some .running, .nStart => selfAbort m .runLost (endRecovery m s)
  | some .armed, .nArmed | some .starting, .nArmed => disarmIfClosed m (resolveArmed m s)
  | some .armed, .nIdle | some .armed, .nEnd | some .armed, .nStopped
  | some .starting, .nIdle | some .starting, .nEnd | some .starting, .nStopped =>
    disarmIfClosed m (queueArm m (resolveArmed m s))
  | some .armed, .nStart | some .armed, .nRun | some .starting, .nStart | some .starting, .nRun =>
    resolveStarting m r.wanted s
where
  disarmIfNotRunning (s : State) : State := if (s.record m).state = .running then s else disarmIfClosed m s

/-- R4: the report's kind differs from that of the paid session. -/
def MachineRecord.kindDiffers (r : MachineRecord) (k : Kind) : Bool :=
  match r.effective with
  | .armed | .starting | .running => r.kind.any (· != k)
  | _ => false

/-- R4: whether the reported kind is stored. -/
def MachineRecord.storesKind (r : MachineRecord) : Bool :=
  match r.state with
  | .absent | .offline | .idle | .done | .faulted | .outOfService => true
  | _ => r.kind.isNone

/-- R3: the door is stored, and a silent flag cleared with the silence timer (R24); then the kind, where R4 stores it. -/
def MachineRecord.heard (r : MachineRecord) (rep : NodeReport) : MachineRecord :=
  { r with
    door := some rep.door, silent := false
    silenceTimer := if r.silent then 0 else r.silenceTimer
    kind := if r.storesKind then some rep.kind else r.kind }

/-- R3: the node state is applied to the record's state, by the rules of chapter 01 for that state. -/
def applyNodeState (m : Addr) (r : NodeReport) (s : State) : State :=
  match (s.record m).state with
  | .absent | .offline => commandUnpaid m r.state (enterState m .idle s)
  | .idle | .outOfService => commandUnpaid m r.state s
  | .reserved => s
  | .armed => armedReport m r s
  | .starting => startingReport m r s
  | .running => runningReport m r s
  | .done | .faulted => doorRelease m r.door (commandUnpaid m r.state s)
  | .aborting => abortingReport m r s
  | .recovering => resolveReport m r s

/-- R3: MSV takes a valid report, and passes its levels to FBA after it has applied the state. -/
def sessionsReport (m : Addr) (r : NodeReport) (s : State) : State :=
  let differs := (s.record m).kindDiffers r.kind
  let s1 := mapRecord m (·.heard r) s
  feederReport m r
    (if differs then selfAbort m .kindChanged (endRecovery m s1) else applyNodeState m r s1)

/-! ## MBC and FLM -/

/-- R36: with this keep-alive count the stale run reaches 3. -/
def NodeEntry.goesStale (n : NodeEntry) (k : Nat) : Bool := n.lastKeep == some k && decide (2 ≤ n.staleRun)

/-- R36: the keep-alive check; a stale run that reaches 3 begins again. -/
def NodeEntry.checkKeep (n : NodeEntry) (k : Nat) : NodeEntry :=
  if n.lastKeep = some k then { n with staleRun := if 2 ≤ n.staleRun then 0 else n.staleRun + 1 }
  else { n with lastKeep := some k, staleRun := 0 }

/-- R31, R32 steps 1 and 2, R37: an address gave a valid report. A kind is stored with the presence at the first one (R34). -/
def NodeEntry.heardValid (n : NodeEntry) (k : Kind) : NodeEntry :=
  { n with
    known := true, kind := if n.known then n.kind else some k
    heard := true, heardNow := true, missed := 0, errorRun := 0, clash := false }

/-- R32 step 3, R35: the silent mark is cleared, and MSV and FBA are told that the node is heard again. FBA sets the excess run to 0
(R68); MSV clears its silent flag with the report at step 7 (R3, R24), so a NODE_STALE of step 5 still finds it set
(log entry 58). -/
def heardAgain (m : Addr) (s : State) : State :=
  if (s.node m).silentMark then feederHeard m (mapNode m (fun n => { n with silentMark := false }) s) else s

/-- R42: the two echoed tags are stored, and the entries they match are acknowledged. -/
def takeEchoes (m : Addr) (r : NodeReport) (s : State) : State :=
  acknowledge m .level r.lvlTag (acknowledge m .control r.ctlTag
    (mapNode m (fun n => { n with ctlEcho := r.ctlTag, lvlEcho := r.lvlTag }) s))

/-- R38: a fault code that differs from the last is handed to FLM; any other report clears the last. -/
def faultCode (m : Addr) (r : NodeReport) (s : State) : State :=
  match r.fault with
  | none => mapNode m (fun n => { n with lastFault := none }) s
  | some k =>
    if (s.node m).lastFault = some k then s
    else takeFault m k false (mapNode m (fun n => { n with lastFault := some k }) s)

/-- R32 steps 1 to 4: presence, the heard mark, a silence ended, the echoes. -/
def hearReport (m : Addr) (r : NodeReport) (s : State) : State :=
  takeEchoes m r (heardAgain m (mapNode m (·.heardValid r.kind) s))

/-- R32 steps 6 to 8: the kind is stored, MSV takes the report and passes its levels on, and FLM its fault code. -/
def finishReport (m : Addr) (r : NodeReport) (s : State) : State :=
  faultCode m r (sessionsReport m r (mapNode m (fun n => { n with kind := some r.kind }) s))

/-- R32 step 5, R36: NODE_STALE goes to FLM for the report in hand, which is then taken to its end (log entry 6). -/
def reportStale (m : Addr) (s : State) : State :=
  match (s.node m).inHand with
  | none => s
  | some r => finishReport m r (takeFault m .nodeStale false (mapNode m (fun n => { n with inHand := none }) s))

/-- R32: MBC takes a valid report, in the order of its eight steps. Where step 5 brings the stale run to 3 the report stays in hand
for NODE_STALE (log entry 6), which comes before the next slot at the latest (`finishSlot`). -/
def takeReport (m : Addr) (r : NodeReport) (s : State) : State :=
  let s4 := hearReport m r s
  let s5 := mapNode m (·.checkKeep r.keepAlive) s4
  if (s4.node m).goesStale r.keepAlive then mapNode m (fun n => { n with inHand := some r }) s5
  else finishReport m r s5

/-- R32, R45: a valid report, with its part in a discovery. -/
def takeValid (m : Addr) (r : NodeReport) (s : State) : State :=
  let answers := s.mbc.discovery.answeredBy m
  let s1 := takeReport m r (noteOccupied m s)
  if answers then assignAnswered s1 else s1

/-- R31: a malformed report in a slot. -/
def takeMalformed (m : Addr) (s : State) : State :=
  noteOccupied m (mapNode m (fun n => { n with errorRun := 0, malformed := satInc 65535 n.malformed }) s)

/-- R31, R37: the counts after a check error; three in a row with the clash mark clear are a clash to act on. -/
def NodeEntry.checkErrors (n : NodeEntry) : NodeEntry :=
  let run := n.errorRun + 1
  if 3 ≤ run then
    if n.clash then { n with errorRun := 0, errors := satInc 65535 n.errors }
    else { n with errorRun := 3, errors := satInc 65535 n.errors, clashOwed := true }
  else { n with errorRun := run, errors := satInc 65535 n.errors }

/-- R31: a check error in a slot. -/
def takeCheckError (m : Addr) (s : State) : State := noteOccupied m (mapNode m (·.checkErrors) s)

/-! ## The end of the recovery window (R28) -/

/-- R28: a record that has not resolved when the window ends. -/
def windowEnds (m : Addr) (s : State) : State :=
  let r := s.record m
  match r.state with
  | .recovering =>
    let s1 := mapRecord m (fun x => { x with silent := true, silenceTimer := Config.silenceSeconds }) (endRecovery m s)
    if (s1.record m).state = .running then s1 else disarmIfClosed m s1
  | .absent =>
    if (s.node m).known then
      enterState m .offline (mapRecord m (fun x => { x with silent := true }) s)
    else s
  | _ => s

/-- R35: at the window's end the silence notice is given again for each address whose silent mark is set. -/
def repeatNotice (m : Addr) (s : State) : State := if (s.node m).silentMark then giveSilence m s else s

end Sys2Proof.Machine
end

