-- ==== Sys2Proof/Machine/Pricing.lean ====
section
/-! DEFINITION. The price-bearing settings and their check code (R175, R179), and the payment state (R96). -/
namespace Sys2Proof.Machine

/-- The price-bearing fields of a program (R175): presence, kind, base price, the two surcharges and the rate. -/
structure PriceFields where
  present : Bool
  dryer   : Bool
  base    : Nat
  warm    : Nat
  hot     : Nat
  rate    : Nat
  deriving DecidableEq, Repr

/-- The price-bearing fields of an entry of the program table. -/
def priceFields : Option Program → PriceFields
  | none => ⟨false, false, 0, 0, 0, 0⟩
  | some p =>
    match p.body with
    | .washer base warm hot _ _ _ => ⟨true, false, base, warm, hot, 0⟩
    | .dryer rate _ _ _ => ⟨true, true, 0, 0, 0, rate⟩

/-- The bytes of a number of two bytes, high byte first. -/
def natBytes16 (n : Nat) : List Byte := bytes16 (BitVec.ofNat 16 n)

/-- The byte of a mark. -/
def boolByte (b : Bool) : Byte := if b then 1#8 else 0#8

/-- The bytes of one program's price-bearing fields: the order is R179's, the widths are the model's (log entry 17). -/
def PriceFields.bytes (p : PriceFields) : List Byte :=
  [boolByte p.present, boolByte p.dryer] ++ natBytes16 p.base ++ natBytes16 p.warm ++ natBytes16 p.hot ++ natBytes16 p.rate

/-- A band put into a list by ascending start. -/
def insertBand (b : Band) : List Band → List Band
  | [] => [b]
  | c :: cs => if b.start ≤ c.start then b :: c :: cs else c :: insertBand b cs

/-- The present tariff bands by ascending start (R179). -/
def Settings.sortedBands (g : Settings) : List Band := g.presentBands.foldr insertBand []

/-- The bytes of the price-bearing settings (R179; log entry 17). -/
def Settings.priceBytes (g : Settings) : List Byte :=
  (g.programs.toArray.toList.map fun p => (priceFields p).bytes).flatten
    ++ (g.sortedBands.map fun b => natBytes16 b.start ++ [BitVec.ofNat 8 b.percent]).flatten

/-- R179: the check code of the price-bearing settings. -/
def Settings.priceCode (g : Settings) : Word16 := crc16 g.priceBytes

/-- R179: the lock is set and the working prices do not give the lock code. -/
def Sst.priceMismatch (t : Sst) : Bool := t.lock && decide (t.lockCode ≠ some t.working.priceCode)

/-- R179: PAY verifies the lock code while the lock is set; a mismatch halts payment, with PAY_HALTED on entering HALTED. -/
def verifyPrices (s : State) : State :=
  if s.sst.priceMismatch then
    setEventIf (!s.pay.halted) .payHalted (s.withPay { s.pay with halted := true })
  else s

/-- A program of the working settings by its id 1 to 16; none outside that range or where it is absent. -/
def Settings.program (g : Settings) (id : Nat) : Option Program :=
  if id = 0 then none else (g.programs[id - 1]?).join

end Sys2Proof.Machine
end

