-- ==== Sys2Proof/Machine/Stations.lean ====
section
/-! DEFINITION. PAY: the checks of a PURCHASE, the exchange and its outcomes (04). -/
namespace Sys2Proof.Machine

/-- The option of a wash by its code (11, Station messages). -/
def washOptionOf : Nat → Option WashOption
  | 0 => some .cold
  | 1 => some .warm
  | 2 => some .hot
  | _ => none

/-- The machine that a number names; none outside 1 to 24. -/
def machineOf (n : Nat) : Option Addr := if h : 1 ≤ n ∧ n ≤ 24 then some ⟨n - 1, by omega⟩ else none

/-- R76: the balance shown in a DECLINE. -/
def displayBalance (b : Nat) : Nat := if Config.maxBalance < b then 0 else b

/-- PAY sends DECLINE. -/
def sendDecline (st : Station) (reason : DeclineReason) (balance : Nat) (s : State) : State :=
  sendStation st (.decline reason (displayBalance balance)) s

/-- R75: a station's message is discarded. -/
def discardMessage (st : Station) (s : State) : State :=
  let x := s.exchange st
  s.setExchange st { x with lineErrors := satInc 65535 x.lineErrors }

/-! ## The checks (R79 to R84) -/

/-- What the resolution of check 8 leaves for check 12 (R82): how the entry was resolved, the reversal X and the usable
credit C. -/
structure Resolved where
  resolution : Option Resolution
  reversal   : Nat
  credit     : Nat
  deriving DecidableEq, Repr

/-- The amount of a serial's refund entry, 0 where it has none (R82). -/
def Cru.owed (c : Cru) (serial : Nat) : Nat := ((c.refund serial).map (·.amount)).getD 0

/-- R82: how a pending entry and a card image compare; none when unresolved. -/
def PendingEntry.resolve (p : PendingEntry) (balance counter owed : Nat) : Option Resolved :=
  if counter = p.counterRead + 1 ∧ balance = p.targetBalance then
    let x := min p.amount (Config.maxBalance - balance)
    some ⟨some (.took (p.amount - x)), x, owed - p.folded⟩
  else if counter = p.counterRead ∧ balance = p.balanceRead then
    some ⟨some .notTaken, p.reversal, owed⟩
  else none

/-- Check 8 (R82): the resolution, and the state after it: an unresolved entry is recorded and removed at once. -/
def resolveCard (serial balance counter : Nat) (s : State) : Resolved × State :=
  match s.cru.pendingOf serial with
  | none => (⟨none, 0, s.cru.owed serial⟩, s)
  | some p =>
    match p.resolve balance counter (s.cru.owed serial) with
    | some r => (r, s)
    | none => (⟨none, 0, s.cru.owed serial⟩, dropPending p (some balance) (some counter) .none s)

/-- R79: the session of the named machine, if its record holds one: then the PURCHASE is a top-up request. -/
def State.topupSession (s : State) (m : Option Addr) : Option Session := m.bind fun a => (s.record a).session

/-- Checks 1 to 4 (R80), after the verification of check 3. `topup` is the class of the request. -/
def roomChecks (topup : Bool) (s : State) : Option DeclineReason :=
  if !s.mbc.scanComplete then some .startingUp
  else if s.sst.roomMode = .closed then some .roomClosed
  else if s.sst.roomMode = .quiet && !topup then some .roomQuiet
  else if s.pay.halted then some .payHalted
  else if s.jrn.free < Config.exchangeReservations then some .journalFull
  else none

/-- R80: the PURCHASE reaches check 3, where the check code is verified. -/
def reachesPayment (topup : Bool) (s : State) : Bool :=
  s.mbc.scanComplete && s.sst.roomMode != .closed && (s.sst.roomMode != .quiet || topup)

/-- An exchange is ORDERED with a card serial (R81). -/
def Exchange.holdsCard (x : Exchange) (serial : Nat) : Bool := x.order.any (·.serial == serial)

/-- Checks 5 to 7 (R81). -/
def cardChecks (st : Station) (msg : PurchaseMsg) (s : State) : Option DeclineReason :=
  let serial := msg.serial.toNat
  if serial = 0 ∨ msg.issuer.toNat ≠ s.sst.working.limits.issuer ∨ Config.maxBalance < msg.balance.toNat then
    some .cardInvalid
  else if msg.counter.toNat = Config.exhaustedCounter then some .cardExhausted
  else if (s.exchange (otherStation st)).holdsCard serial then some .cardBusy
  else if !s.sst.working.screen.passes serial then some .cardDenied
  else none

/-- Check 9 (R83). -/
def machineCheck (m : Option Addr) (serial : Nat) (s : State) : Option DeclineReason :=
  match m with
  | none => some .machineOut
  | some a =>
    let r := s.record a
    match r.state with
    | .absent | .offline | .outOfService => some .machineOut
    | _ =>
      match r.session with
      | none => if r.state = .idle then none else some .machineBusy
      | some z => if z.figures.kind = .dryer && r.takesTopup serial then none else some .machineBusy

/-- What a purchase buys, once checks 9 and 10 have passed: the program, its figures, the option, and the prices. -/
structure Choice where
  program : Nat
  figures : Figures
  option  : Option WashOption
  gross   : Nat
  deriving DecidableEq, Repr

/-- Check 10 (R83): none when the PURCHASE is declined WRONG_PROGRAM. A top-up takes the session's program copy. A dryer's option is
not used (R83), and the exchange record holds none, whatever the PURCHASE carried (R77; log entry 59). -/
def programCheck (msg : PurchaseMsg) (session : Option Session) (kind : Option Kind) (g : Settings) : Option Choice :=
  match session with
  | some z => if msg.program.toNat = z.program then some ⟨z.program, z.figures, z.option, 0⟩ else none
  | none =>
    match g.program msg.program.toNat with
    | none => none
    | some p =>
      if kind = some p.body.figures.kind then
        match p.body, washOptionOf msg.option.toNat with
        | .washer base warm hot _ _ _, some o =>
          some ⟨msg.program.toNat, p.body.figures, some o, washGross base warm hot o⟩
        | .washer _ _ _ _ _ _, none => none
        | .dryer _ _ _ _, _ => some ⟨msg.program.toNat, p.body.figures, none, 0⟩
      else none

/-- Check 11 (R84, R100 to R102): the minutes sold and the charge; none for TIME_FULL. -/
def priceCheck (msg : PurchaseMsg) (session : Option Session) (c : Choice) (lim : Limits) (pct : Nat) :
    Option (Option Nat × Nat) :=
  match c.figures with
  | .washer _ _ _ => some (none, washCharge c.gross pct)
  | .dryer rate _ _ _ =>
    match session with
    | none =>
      let n := newMinutes lim msg.minutes.toNat
      some (some n, dryerCharge rate n pct true)
    | some z =>
      match topupMinutes lim (z.minutes.getD 0) msg.minutes.toNat with
      | none => none
      | some n => some (some n, dryerCharge rate n pct false)

/-- The order that the fold makes (R84, R103 to R105), before it has its number; none for INSUFFICIENT. -/
def foldedOrder (msg : PurchaseMsg) (m : Addr) (topup : Bool) (c : Choice) (sold : Option Nat) (charge pct : Nat)
    (r : Resolved) : Option Order :=
  let order (t : PurchaseType) (p balance folded : Nat) : Order :=
    { number := 0, ptype := t, serial := msg.serial.toNat, balanceRead := msg.balance.toNat
      counterRead := msg.counter.toNat, machine := m, program := c.program, option := c.option, minutes := sold
      tariff := pct, charge := p, newBalance := balance, newCounter := msg.counter.toNat + 1
      folded := positive folded, reversal := positive r.reversal, resolution := r.resolution
      timer := Config.resultSeconds, figures := c.figures }
  match foldOrder msg.balance.toNat r.reversal r.credit charge with
  | .full balance folded => some (order (if topup then .topup else .new) charge balance folded)
  | .creditOnly balance folded => some (order .creditOnly 0 balance folded)
  | .short => none

/-! ## Opening the exchange (R85) -/

/-- R6: MSV reserves an IDLE machine for a station; none where it refuses. -/
def reserveMachine (st : Station) (m : Addr) (s : State) : Option State :=
  if (s.record m).state = .idle then
    some (mapRecord m (fun r => { r with state := .reserved, reserving := some st }) s)
  else none

/-- R85 step 2: the reason when MSV refuses. -/
def refusedReason (r : MachineRecord) : DeclineReason :=
  match r.state with
  | .absent | .offline | .outOfService => .machineOut
  | _ => .machineBusy

/-- R85 steps 3 and 4: the credit is held, the order gets its number (log entry 8), and ORDER is sent. -/
def sendOrder (st : Station) (o : Order) (s : State) : State :=
  let s1 := if o.folded.isSome then mapRefund o.serial (fun e => { e with hold := some st }) s else s
  let x := s1.exchange st
  let n := wrapInc 255 x.orderCounter
  sendStation st (.order n o.newBalance o.newCounter o.charge (o.ptype == .creditOnly))
    (s1.setExchange st { x with orderCounter := n, order := some { o with number := n } })

/-- R85: a PURCHASE that passes the checks opens the exchange. -/
def openExchange (st : Station) (balance : Nat) (o : Order) (s : State) : State :=
  match reserveSlots Config.exchangeReservations s with
  | none => sendDecline st .journalFull balance s
  | some s1 =>
    match o.ptype with
    | .new =>
      match reserveMachine st o.machine s1 with
      | none => sendDecline st (refusedReason (s1.record o.machine)) balance (returnSlots Config.exchangeReservations s1)
      | some s2 => sendOrder st o s2
    | .topup | .creditOnly => sendOrder st o s1

/-- Checks 9 to 12 and the opening (R83 to R85), after check 8. -/
def buyFrom (st : Station) (msg : PurchaseMsg) (r : Resolved) (s : State) : State :=
  let balance := msg.balance.toNat
  let m := machineOf msg.machine.toNat
  let session := s.topupSession m
  match machineCheck m msg.serial.toNat s, m with
  | some reason, _ => sendDecline st reason balance s
  | none, none => sendDecline st .machineOut balance s
  | none, some a =>
    match programCheck msg session (s.record a).kind s.sst.working with
    | none => sendDecline st .wrongProgram balance s
    | some c =>
      match priceCheck msg session c s.sst.working.limits s.tariff with
      | none => sendDecline st .timeFull balance s
      | some (sold, charge) =>
        match foldedOrder msg a session.isSome c sold charge s.tariff r with
        | none => sendDecline st .insufficient balance s
        | some o => openExchange st balance o s

/-- R79: the twelve checks in their order. -/
def evaluatePurchase (st : Station) (msg : PurchaseMsg) (s : State) : State :=
  let balance := msg.balance.toNat
  let topup := (s.topupSession (machineOf msg.machine.toNat)).isSome
  let s1 := if reachesPayment topup s then verifyPrices s else s
  match roomChecks topup s1 with
  | some reason => sendDecline st reason balance s1
  | none =>
    match cardChecks st msg s1 with
    | some reason => sendDecline st reason balance s1
    | none =>
      let (r, s2) := resolveCard msg.serial.toNat balance msg.counter.toNat s1
      buyFrom st msg r s2

/-- R78: a PURCHASE is evaluated when the station's exchange is IDLE, and declined STATION_BUSY otherwise. -/
def takePurchase (st : Station) (msg : PurchaseMsg) (s : State) : State :=
  let x := s.exchange st
  if x.order.isSome then
    sendDecline st .stationBusy msg.balance.toNat (s.setExchange st { x with conflicts := satInc 65535 x.conflicts })
  else evaluatePurchase st msg s

/-! ## Outcomes (R86 to R92) -/

/-- The exchange becomes IDLE. -/
def idleExchange (st : Station) (s : State) : State := s.setExchange st { s.exchange st with order := none }

/-- The money record of an order (R87 to R90, R150). It names the machine of the PURCHASE, in a CREDIT_APPLIED record too
(log entry 52), and a SALE or TOPUP record holds the minutes sold (R101; log entry 57). -/
def Order.body (o : Order) (k : RecordKind) (detail : Detail) : RecordBody :=
  { kind := k, machine := addrNumber o.machine, serial := some o.serial, amount := some o.charge
    balanceAfter := some o.newBalance, counterAfter := some o.newCounter, folded := o.folded, reversal := o.reversal
    minutes := match k with
      | .sale | .topup => o.minutes
      | _ => none
    detail := detail }

/-- R87 step 5: RECEIPT where MSV reports the machine ARMED, and a DECLINE where the new session was disarmed at once. -/
def answerSale (st : Station) (o : Order) (lockout : Bool) (s : State) : State :=
  if (s.record o.machine).state = .armed then
    match o.figures with
    | .washer _ _ _ => sendStation st (.receiptWasher o.machine o.program) s
    | .dryer _ _ _ _ => sendStation st (.receiptDryer o.machine (o.minutes.getD 0) (o.minutes.getD 0)) s
  else if s.sst.roomMode = .closed then sendDecline st .roomClosed o.newBalance s
  else if lockout then sendDecline st .machineOut o.newBalance s
  else s

/-- R87: a DONE outcome of a NEW exchange. -/
def doneNew (st : Station) (o : Order) (s : State) : State :=
  let lockout := (s.record o.machine).lockoutPending
  let s1 := setEvent .sale (writeMoney (o.body .sale .none) s)
  answerSale st o lockout (idleExchange st (armMachine o (settleTables o s1)))

/-- R88: a DONE outcome of a TOPUP exchange. -/
def doneTopup (st : Station) (o : Order) (s : State) : State :=
  let s1 := settleTables o (setEvent .topup (writeMoney (o.body .topup .none) s))
  let m := o.machine
  if (s1.record m).takesTopup o.serial then
    let s2 := s1.mapSession m fun z => z.topup o.charge (o.minutes.getD 0)
    let left := ((s2.record m).session.bind (·.minutes)).getD 0
    sendStation st (.receiptDryer m (o.minutes.getD 0) left) (idleExchange st (returnSlots 2 s2))
  else
    let s2 := if 0 < o.charge then creditSerial .topupRefused o.serial o.charge (addrNumber m) s1 else returnSlots 2 s1
    sendDecline st .machineBusy o.newBalance (idleExchange st s2)

/-- R89: a DONE outcome of a CREDIT_ONLY exchange. -/
def doneCredit (st : Station) (o : Order) (s : State) : State :=
  let s1 := settleTables o (writeMoney (o.body .creditApplied .none) s)
  sendDecline st .insufficient o.newBalance (idleExchange st (returnSlots 2 s1))

/-- R90 steps 1 to 3: the record, its event and the pending entry of an uncertain outcome. -/
def recordUncertain (o : Order) (cause : Detail) (s : State) : State :=
  let s1 := setEvent .debitUncertain (writeMoney (o.body .debitUncertain cause) s)
  match o.resolution with
  | none => createPending o s1
  | some res => updatePending o res s1

/-- R90 step 4, R92 step 4: for a NEW exchange, MSV is told an outcome other than DONE. -/
def releaseReserved (o : Order) (s : State) : State :=
  match o.ptype with
  | .new => if (s.record o.machine).state = .reserved then freeMachine o.machine s else s
  | .topup | .creditOnly => s

/-- R90: an exchange ends uncertain. -/
def endUncertain (st : Station) (o : Order) (cause : Detail) (s : State) : State :=
  idleExchange st (releaseReserved o (recordUncertain o cause s))

/-- R92: a FAILED outcome. -/
def endFailed (st : Station) (o : Order) (s : State) : State :=
  let s1 := mapRefund o.serial (fun e => if e.hold = some st then { e with hold := none } else e)
    (returnSlots Config.exchangeReservations s)
  idleExchange st (releaseReserved o s1)

/-- R86: the outcome DONE with the counter read back. -/
def endDone (st : Station) (o : Order) (counter : Nat) (s : State) : State :=
  if counter = o.newCounter then
    match o.ptype with
    | .new => doneNew st o s
    | .topup => doneTopup st o s
    | .creditOnly => doneCredit st o s
  else sendDecline st .cardInvalid o.balanceRead (endUncertain st o .counter s)

/-- R86: a RESULT is matched to the ORDERED exchange, or is late. -/
def takeResult (st : Station) (msg : ResultMsg) (s : State) : State :=
  let x := s.exchange st
  match x.order with
  | none => s.setExchange st { x with lates := satInc 65535 x.lates }
  | some o =>
    if o.number ≠ msg.order.toNat then s.setExchange st { x with lates := satInc 65535 x.lates }
    else match msg.outcome.toNat, msg.counter with
      | 0, some c => endDone st o c.toNat s
      | 1, _ => endUncertain st o .torn s
      | _, _ => endFailed st o s

/-- R95: an exchange that was ORDERED at the reset is ended uncertain with the cause RESET. -/
def convertExchange (st : Station) (s : State) : State :=
  match (s.exchange st).order with
  | none => s
  | some o => idleExchange st (recordUncertain o .reset s)

end Sys2Proof.Machine
end

