-- ==== Sys2Proof/Machine/Resets.lean ====
section
/-! DEFINITION. What every block does at a reset, and at its end (R26, R33, R45, R48, R49, R53, R73, R77, R95, R129, R159, R162,
R168, R172, R177 to R182, R188). -/
namespace Sys2Proof.Machine

/-! ## The beginning of a reset -/

/-- R26: a session kept through a reset: every timer stands at its value, and the ARM-acknowledged mark is set. -/
def Session.atReset (z : Session) : Session := { z with armAcked := true }

/-- R26: a retained machine record after a reset. A record that was RECOVERING already stays so (log entry 27). -/
def MachineRecord.atReset (r : MachineRecord) : MachineRecord :=
  let r0 := { r with
    silent := false, silenceTimer := 0, reserving := none, lockoutPending := false, unloadTimer := 0
    session := r.session.map Session.atReset }
  match r.state with
  | .armed => { r0 with state := .recovering, retained := some .armed }
  | .starting => { r0 with state := .recovering, retained := some .starting }
  | .running => { r0 with state := .recovering, retained := some .running }
  | .recovering | .aborting | .outOfService => r0
  | .idle | .reserved | .done | .faulted | .offline | .absent => { r0 with state := .absent }

/-- R129: a fault record after a reset that keeps retained memory; `state` is the record's state after the reset. -/
def FaultRecord.atReset (f : FaultRecord) (state : MState) : FaultRecord :=
  match state with
  | .aborting | .outOfService => f
  | _ => { f with openMark := false }

/-- R73: whether the grant of a record is kept through a reset, by the record's state after it. -/
def keepsGrant (state : MState) : Bool := state == .recovering || state == .aborting

/-- R53, R73: a grant table entry after a reset that keeps retained memory. -/
def GrantEntry.atReset (e : GrantEntry) (state : MState) : GrantEntry :=
  if keepsGrant state && e.granted.isSome then
    { GrantEntry.empty with
      granted := e.granted, fill := e.fill, draws := e.draws, heldSilent := true
      draw := (e.granted.map e.drawOf).getD 0 }
  else .empty

/-- R49: MBC's state after a reset, with the node table given. -/
def Mbc.fresh (nodes : PerMachine NodeEntry) : Mbc :=
  { nodes := nodes, queue := [], beacons := 0, discovery := .idle, scanComplete := false, scanCount := 0, scanSkip := false
    periodOpen := false }

/-- R77: an exchange record after a reset that keeps retained memory; what it holds while ORDERED is converted when the reset ends
(R95). -/
def Exchange.atReset (x : Exchange) : Exchange := { x with conflicts := 0, lates := 0, lineErrors := 0 }

/-- Retained memory kept, and every block's working state as a reset leaves it (R26, R49, R73, R77, R129). -/
def keepRetained (s : State) : State :=
  let records := s.msv.records.mapAll MachineRecord.atReset
  let state := fun m => (records.at m).state
  let entries := s.fba.entries.mapWith fun m e => e.atReset (state m)
  { s with
    msv := { records := records, recoveryWindow := none }
    mbc := .fresh (s.mbc.nodes.mapAll fun n => .afterReset n.known n.kind)
    fba := { s.fba with
      entries := entries
      startList := s.fba.startList.filter fun m => (entries.at m).granted.isSome
      raises := [], starts := [], arrivals := 0, overBudget := false }
    pay := { s.pay with a := s.pay.a.atReset, b := s.pay.b.atReset }
    flm := s.flm.mapWith fun m f => f.atReset (state m) }

/-- A cold reset whose retained check failed: every retained item is cleared (R180 step 1; R26, R33, R53, R77, R118, R124, R129,
R162, R164, R178, R179). -/
def clearRetained (s : State) : State :=
  { s with
    msv := { records := Vector.replicate 24 .cleared, recoveryWindow := none }
    mbc := .fresh (Vector.replicate 24 (.afterReset false none))
    fba := { s.fba with
      entries := Vector.replicate 24 .empty, startList := [], raises := [], starts := [], arrivals := 0
      overBudget := false }
    pay := { a := .cleared, b := .cleared, halted := false }
    cru := { refunds := [], pendings := [] }
    flm := Vector.replicate 24 .cleared
    jrn := .cleared
    sst := { s.sst with clock := none, roomMode := .opened } }

/-- R180 step 2: a SERVICE strap found fitted clears the lock, discards the lock code and sets payment RUNNING. -/
def serviceStrap (fitted : Bool) (s : State) : State :=
  if fitted then
    (s.withSst { s.sst with lock := false, lockCode := none }).withPay { s.pay with halted := false }
  else s

/-- R177: the stored image is valid. -/
def Sst.imageValid (t : Sst) : Bool := t.imageMarked && t.imageCheck

/-- R180 step 3, R181 step 3: the stored image is loaded where it is valid, and the factory defaults otherwise. -/
def loadSettings (s : State) : State :=
  s.withSst { s.sst with
    working := if s.sst.imageValid then s.sst.image else .factory
    commit := none, unsaved := false }

/-- R180 step 4, R181 step 4: the lock code is verified; PAY_HALTED is set as the reset ends (R172). -/
def verifyLoaded (s : State) : State :=
  if s.sst.priceMismatch then s.withPay { s.pay with halted := true } else s

/-- R73: the machines whose kept fill goes beyond the fill-slot limit just loaded: all but the lowest `limit` of those that hold
fill. -/
def trimmed (limit : Nat) (f : Fba) : List Addr := (allMachines.filter fun m => (f.entries.at m).fill).drop limit

/-- R73: a machine's fill is cleared and GRANT is queued for it at its held level. -/
def trimOne (s : State) (m : Addr) : State :=
  match (s.grant m).granted with
  | some g => changeGrant m g false s
  | none => mapGrant m (fun e => { e with fill := false }) s

/-- R73: the trim of the fill slots. -/
def trimFill (s : State) : State := (trimmed s.fillLimit s.fba).foldl trimOne s

/-- R188, R168, R172, R173: HLI empties its buffer, EVU is cleared and ATTN released, and the kind of the reset is recorded. -/
def quietLink (kind : ResetKind) (s : State) : State :=
  ((s.withHli { s.hli with buffer := none, linkErrors := 0 }).withEvu .cleared).withSst { s.sst with lastReset := kind }

/-- R181: a warm reset begins. -/
def beginWarm (kind : ResetKind) (s : State) : State :=
  let s1 := keepRetained (quietLink kind s)
  (trimFill (verifyLoaded (loadSettings s1))).withPhase (.warmReset (!s.sst.imageValid))

/-! ## The end of a reset -/

/-- R51, R73: the demand state takes the line reading without debounce; B_eff is computed and committed draw checked. -/
def takeDemand (s : State) : State :=
  let s1 := s.withFba { s.fba with demand := s.fba.line, debounce := 0 }
  setEventIf (s.fba.line == .shed) .demandShed (recomputeBudget s1)

/-- R26: STOP(abort) is queued for each ABORTING record once the reset ends. -/
def restop (m : Addr) (s : State) : State :=
  if (s.record m).state = .aborting then queueControl m (.stop true) s else s

/-- R159: the events for the journal as it stands at the end of a reset. -/
def journalEvents (s : State) : State :=
  setEventIf (s.jrn.state == .full) .journalFull
    (setEventIf (s.jrn.state == .tight) .journalTight
      (setEventIf (!s.jrn.records.isEmpty) .journalWaiting s))

/-- R172, R180: the flags that describe what the reset found. -/
def lossEvents (retainedLost settingsLost : Bool) (s : State) : State :=
  setEventIf s.pay.halted .payHalted
    (setEventIf settingsLost .settingsLost (setEventIf retainedLost .retainedLost s))

/-- What every reset's end does: demand and budget (R51, R73), the STOP(abort) of ABORTING records (R26), the conversion of the
exchanges, A before B (R95), the start-up events (R172), the recovery window (R28), the baud rate (R188). -/
def finishReset (retainedLost settingsLost fast : Bool) (s : State) : State :=
  let s1 := forMachines restop (takeDemand s)
  let s2 := convertExchange .b (convertExchange .a s1)
  let s3 := lossEvents retainedLost settingsLost (journalEvents s2)
  let s4 := s3.withMsv { s3.msv with recoveryWindow := some Config.recoverySeconds }
  (s4.withHli { s4.hli with fast := fast }).withPhase .running

/-- R180: a cold reset, whole. The outputs show nothing sent yet. -/
def coldReset (retainedOk serviceFitted imageOk fast : Bool) (s : State) : State :=
  let s0 := quietLink .cold (s.withSst { s.sst with imageCheck := s.sst.imageCheck && imageOk })
  let s1 := if retainedOk then keepRetained s0 else clearRetained s0
  let lost := !s1.sst.imageValid
  let s2 := trimFill (verifyLoaded (loadSettings (serviceStrap serviceFitted s1)))
  let s3 := finishReset (!retainedOk) lost fast
    ((s2.withResetHeld false).withOut { lineA := none, lineB := none, beacon := none })
  startDiscovery .startUp s3

end Sys2Proof.Machine
end

