-- ==== Sys2Proof/Machine/Layouts.lean ====
section
/-! DEFINITION. The bytes that the NL24 sends: reply frames, journal records, status items, station messages and beacons (11,
R185 to R187 and section 11.4). Where a reply's code is not given there, the codes follow the order in which the manual lists
the values, from 0, as section 11.3 has it for arguments (log entry 18). -/
namespace Sys2Proof.Machine

/-! ## Fields -/

/-- A field of one byte. -/
def nat8 (n : Nat) : List Byte := [BitVec.ofNat 8 n]

/-- A field of three bytes, high byte first. -/
def nat24 (n : Nat) : List Byte := bytes24 (BitVec.ofNat 24 n)

/-- A field of four bytes, high byte first. -/
def nat32 (n : Nat) : List Byte := bytes32 (BitVec.ofNat 32 n)

/-- A mark: 0 clear, 1 set. -/
def markByte (b : Bool) : List Byte := [boolByte b]

/-- R187: an optional field of a width: a presence byte, then the field, or zeros when it is absent. -/
def optBytes (width : Nat) (x : Option (List Byte)) : List Byte :=
  match x with
  | some bytes => 1#8 :: bytes
  | none => 0#8 :: List.replicate width 0#8

/-- A machine number, or an address. -/
def addrByte (m : Addr) : List Byte := nat8 (addrNumber m)

/-! ## Codes -/

/-- R185: the status codes. -/
def Status.code : Status → Nat
  | .ok => 0
  | .busy => 1
  | .refused => 2
  | .badArg => 3
  | .badFrame => 4
  | .locked => 5
  | .badSeq => 6

/-- R185: the reasons of REFUSED. -/
def RefusedReason.code : RefusedReason → Nat
  | .listFull => 1
  | .noNode => 2
  | .notOut => 3
  | .clash => 4
  | .noSession => 5

/-- Section 11.4: the decline reasons. -/
def DeclineReason.code : DeclineReason → Nat
  | .startingUp => 1
  | .roomQuiet => 2
  | .roomClosed => 3
  | .payHalted => 4
  | .journalFull => 5
  | .cardInvalid => 6
  | .cardExhausted => 7
  | .cardBusy => 8
  | .cardDenied => 9
  | .machineBusy => 10
  | .machineOut => 11
  | .wrongProgram => 12
  | .timeFull => 13
  | .insufficient => 14
  | .stationBusy => 15

/-- Section 1.2: the states, in the order of its table. -/
def MState.code : MState → Nat
  | .absent => 0
  | .offline => 1
  | .idle => 2
  | .reserved => 3
  | .armed => 4
  | .starting => 5
  | .running => 6
  | .done => 7
  | .aborting => 8
  | .faulted => 9
  | .outOfService => 10
  | .recovering => 11

/-- WASHER, DRYER. -/
def kindCode : Kind → Nat
  | .washer => 0
  | .dryer => 1

/-- OPEN, CLOSED. -/
def doorCode : Door → Nat
  | .opened => 0
  | .closed => 1

/-- Station A, station B. -/
def stationCode : Station → Nat
  | .a => 0
  | .b => 1

/-- COLD, WARM, HOT. -/
def optionCode : WashOption → Nat
  | .cold => 0
  | .warm => 1
  | .hot => 2

/-- FAULTED, OUT_OF_SERVICE (R1). -/
def StopDest.code : StopDest → Nat
  | .faulted => 0
  | .outOfService => 1

/-- ARMED, STARTING, RUNNING (R1). -/
def Retained.code : Retained → Nat
  | .armed => 0
  | .starting => 1
  | .running => 2

/-- OPEN, QUIET, CLOSED (section 11.3). -/
def RoomMode.code : RoomMode → Nat
  | .opened => 0
  | .quiet => 1
  | .closed => 2

/-- OPEN, DENY, ALLOW (section 11.3). -/
def ScreenMode.code : ScreenMode → Nat
  | .opened => 0
  | .deny => 1
  | .allow => 2

/-- COLD, WARM_PIN, WARM_REQUEST (R173). -/
def ResetKind.code : ResetKind → Nat
  | .cold => 0
  | .warmPin => 1
  | .warmRequest => 2

/-- NORMAL, SHED (R51). -/
def demandCode : Demand → Nat
  | .normal => 0
  | .shed => 1

/-- START_UP, HOST (R45). -/
def DiscoveryCause.code : DiscoveryCause → Nat
  | .startUp => 0
  | .host => 1

/-- OPEN, TIGHT, FULL (R158). -/
def JournalState.code : JournalState → Nat
  | .opened => 0
  | .tight => 1
  | .full => 2

/-- NEW, TOPUP, CREDIT_ONLY (R77). -/
def PurchaseType.code : PurchaseType → Nat
  | .new => 0
  | .topup => 1
  | .creditOnly => 2

/-- FAULT, HOST_OUT, HOST_ABORT, KIND_CHANGED, RUN_LOST (R129). -/
def FaultCause.code : FaultCause → Nat
  | .fault => 0
  | .hostOut => 1
  | .hostAbort => 2
  | .kindChanged => 3
  | .runLost => 4

/-- Section 11.4, Journal record: the fault kinds, from 1. -/
def faultCodeOf (k : FaultKind) : Nat := (faultIndex k).val + 1

/-- Section 11.4, Machine bus frames: the codes of the levels. -/
def levelCode (l : Level) : Nat := l.rank

/-- Section 11.4, Journal record: the thirteen kinds, from 1 in the order of R150. -/
def RecordKind.code : RecordKind → Nat
  | .sale => 1
  | .topup => 2
  | .creditApplied => 3
  | .refundCredited => 4
  | .refundGranted => 5
  | .refundExpired => 6
  | .debitUncertain => 7
  | .debitUnresolved => 8
  | .cycleEnd => 9
  | .fault => 10
  | .clash => 11
  | .service => 12
  | .mode => 13

/-- Section 11.4, Journal record: the detail code and its value. -/
def Detail.code : Detail → Nat × Nat
  | .none => (0, 0)
  | .severity s escalated secondary => (s.rank + 1, escalated.toNat + 2 * secondary.toNat)
  | .lostToCap lost => (4, lost)
  | .topupRefused lost => (5, lost)
  | .reversalRemainder => (6, 0)
  | .evicted => (7, 0)
  | .aged => (8, 0)
  | .torn => (9, 0)
  | .counter => (10, 0)
  | .timeout => (11, 0)
  | .reset => (12, 0)
  | .kindChanged => (13, 0)
  | .runLost => (14, 0)
  | .out => (15, 0)
  | .returned => (16, 0)
  | .abort => (17, 0)
  | .mode m => (18 + m.code, 0)

/-! ## The journal record -/

/-- A number that a list of marks spells, the first mark in the lowest bit. -/
def bitsValue : List Bool → Nat
  | [] => 0
  | b :: bs => b.toNat + 2 * bitsValue bs

/-- Section 11.4: the presence word of a journal record. -/
def JournalRecord.presence (r : JournalRecord) : Nat :=
  bitsValue [r.stamp.isSome, r.body.serial.isSome, r.body.amount.isSome, r.body.balanceAfter.isSome
            , r.body.counterAfter.isSome, r.body.folded.isSome, r.body.reversal.isSome, r.body.faultKind.isSome]

/-- Section 11.4: a journal record in 33 bytes; absent fields are zeros. -/
def JournalRecord.bytes (r : JournalRecord) : List Byte :=
  natBytes16 r.sequence ++ nat8 r.body.kind.code ++ natBytes16 r.presence
    ++ natBytes16 ((r.stamp.map (·.day)).getD 0) ++ natBytes16 ((r.stamp.map (·.minute)).getD 0)
    ++ nat8 r.body.machine ++ nat32 (r.body.serial.getD 0) ++ nat24 (r.body.amount.getD 0)
    ++ nat24 (r.body.balanceAfter.getD 0) ++ natBytes16 (r.body.counterAfter.getD 0)
    ++ nat24 (r.body.folded.getD 0) ++ nat24 (r.body.reversal.getD 0)
    ++ nat8 ((r.body.faultKind.map faultCodeOf).getD 0) ++ nat8 r.body.detail.code.1 ++ nat24 r.body.detail.code.2

/-! ## Replies -/

/-- R185, R186: the payload of a reply: status, reason, page and page count, data. -/
def Reply.payload (r : Reply) : List Byte :=
  nat8 r.status.code ++ ((r.reason.map fun x => nat8 x.code).getD [])
    ++ ((r.page.map fun x => nat8 x.1 ++ nat8 x.2).getD []) ++ r.data

/-- Section 11.1: a reply as it goes out. -/
def Reply.frame (r : Reply) : List Byte := frameBytes r.kind r.payload

/-- R186: the payload bytes that a page leaves for items, after the status, the page byte and the page count. -/
def pageRoom : Nat := Config.maxPayload - 3

/-- R186: whole items into pages, as many to a page as fit; `cur` is the page being filled (log entry 19). -/
def paginate (cur : List Byte) : List (List Byte) → List (List Byte)
  | [] => [cur]
  | item :: rest =>
    if cur.length + item.length ≤ pageRoom then paginate (cur ++ item) rest else cur :: paginate item rest

/-- R178: the clock, or UNSET: day number, minute of day and seconds count, as one optional field that is absent for UNSET
(log entry 54). -/
def clockBytes (c : Option Clock) : List Byte :=
  optBytes 5 (c.map fun c => natBytes16 c.day ++ natBytes16 c.minute ++ nat8 c.second)

/-- A day and a minute, absent while the clock was UNSET: one optional field, by the model's choice (log entry 71). -/
def stampBytes (x : Option Stamp) : List Byte := optBytes 4 (x.map fun x => natBytes16 x.day ++ natBytes16 x.minute)

/-- The 19 flags, or the 19 masks, in the 3 bytes that R171 gives them in a reply. The first flag in the lowest bit is the form in which
section 11.3 has the masks in the argument of SET EVENT MASK; that a reply sends image and masks in this form too is the model's
choice (log entry 64). -/
def flagBytes (f : BitVec 19) : List Byte := bytes24 (f.setWidth 24)

/-- The two class enables in one byte, as section 11.3 has them in the argument of SET EVENT MASK; in replies so too by the model's
choice (log entry 64). -/
def enableByte (e : Evu) : List Byte := nat8 (bitsValue [e.routine, e.exceptional])

/-! ## Items of GET STATUS (R97, R163, R173) -/

/-- R97: a station's exchange record, its fields in the order of R77. The resolution goes out as two optional fields, its code and
the remainder R of TOOK, each with a presence byte of its own, and the result timer as a plain field, 0 while IDLE: the model's choices (log entries 63
and 71). -/
def Exchange.bytes (x : Exchange) : List Byte :=
  let opt (width : Nat) (f : Order → Option (List Byte)) : List Byte := optBytes width (x.order.bind f)
  nat8 (if x.order.isSome then 1 else 0) ++ nat8 x.orderCounter
    ++ opt 1 (fun o => some (nat8 o.number)) ++ opt 1 (fun o => some (nat8 o.ptype.code))
    ++ opt 4 (fun o => some (nat32 o.serial)) ++ opt 3 (fun o => some (nat24 o.balanceRead))
    ++ opt 2 (fun o => some (natBytes16 o.counterRead)) ++ opt 1 (fun o => some (addrByte o.machine))
    ++ opt 1 (fun o => some (nat8 o.program)) ++ opt 1 (fun o => o.option.map fun w => nat8 (optionCode w))
    ++ opt 1 (fun o => o.minutes.map nat8) ++ opt 1 (fun o => some (nat8 o.tariff))
    ++ opt 2 (fun o => some (natBytes16 o.charge)) ++ opt 3 (fun o => some (nat24 o.newBalance))
    ++ opt 2 (fun o => some (natBytes16 o.newCounter)) ++ opt 3 (fun o => o.folded.map nat24)
    ++ opt 3 (fun o => o.reversal.map nat24)
    ++ opt 1 (fun o => o.resolution.map fun
        | .took _ => nat8 0
        | .notTaken => nat8 1)
    ++ opt 2 (fun o => o.resolution.bind fun
        | .took r => some (natBytes16 r)
        | .notTaken => none)
    ++ nat8 ((x.order.map (·.timer)).getD 0)

/-- The number of machine records in a state (R173). -/
def State.countIn (s : State) (x : MState) : Nat := (allMachines.filter fun m => (s.record m).state == x).length

/-- The twelve states, in the order of section 1.2. -/
def allStates : List MState :=
  [.absent, .offline, .idle, .reserved, .armed, .starting, .running, .done, .aborting, .faulted, .outOfService, .recovering]

/-- R163: the reservations held by exchanges, sessions, refund entries and pending entries. -/
def State.holdings (s : State) : List Nat :=
  [ Config.exchangeReservations * (s.pay.a.order.isSome.toNat + s.pay.b.order.isSome.toNat)
  , 2 * (allMachines.filter fun m => (s.record m).session.isSome).length
  , s.cru.refunds.length, s.cru.pendings.length ]

/-- R173: the room part. -/
def State.roomItems (s : State) : List (List Byte) :=
  [ nat8 s.sst.roomMode.code, markByte s.mbc.scanComplete, nat8 s.sst.lastReset.code, clockBytes s.sst.clock ]

/-- R173: the machine part. -/
def State.machineItems (s : State) : List (List Byte) :=
  (allStates.map fun x => nat8 (s.countIn x))
    ++ [nat8 (allMachines.filter fun m => (s.record m).silent).length]

/-- R171, R173: the flag image, the masks, the class enables and ATTN. -/
def Evu.items (e : Evu) : List (List Byte) := [flagBytes e.flags, flagBytes e.masks, enableByte e, markByte e.attn]

/-- R97: a station's part. -/
def Exchange.items (x : Exchange) : List (List Byte) :=
  [x.bytes, natBytes16 x.conflicts, natBytes16 x.lates, natBytes16 x.lineErrors]

/-- R163: the journal part. -/
def State.journalItems (s : State) : List (List Byte) :=
  let j := s.jrn
  [ nat8 j.state.code, nat8 j.free, nat8 j.records.length, nat8 j.reservations, natBytes16 j.sequence
  , optBytes 2 (j.records.head?.map fun r => natBytes16 r.sequence)
  , optBytes 2 (j.records.getLast?.map fun r => natBytes16 r.sequence), natBytes16 j.overflow ] ++ s.holdings.map nat8

/-- R173: the items of GET STATUS. -/
def State.statusItems (s : State) : List (List Byte) :=
  s.roomItems ++ s.machineItems ++ s.evu.items ++ s.pay.a.items ++ s.pay.b.items ++ [markByte s.pay.halted]
    ++ s.journalItems ++ [natBytes16 s.hli.linkErrors]

/-! ## GET MACHINE (R29) -/

/-- R2, R29: the copied program figures: kind; planned minutes; the draws at AIR, LOW and HIGH, and at BASE and HEAT; rate. Each but
the kind is an optional field, and those of the other kind are absent: the model's choice (log entry 62). -/
def Figures.bytes (f : Figures) : List Byte :=
  match f with
  | .washer planned base heat =>
    nat8 0 ++ optBytes 1 (some (nat8 planned)) ++ optBytes 2 none ++ optBytes 2 none ++ optBytes 2 none
      ++ optBytes 2 (some (natBytes16 base)) ++ optBytes 2 (some (natBytes16 heat)) ++ optBytes 2 none
  | .dryer rate air low high =>
    nat8 1 ++ optBytes 1 none ++ optBytes 2 (some (natBytes16 air)) ++ optBytes 2 (some (natBytes16 low))
      ++ optBytes 2 (some (natBytes16 high)) ++ optBytes 2 none ++ optBytes 2 none ++ optBytes 2 (some (natBytes16 rate))

/-- The remaining time of the guard or the block timer (R29). -/
def Session.cycleTimer (z : Session) : Nat :=
  match z.figures with
  | .washer _ _ _ => z.guardTimer
  | .dryer _ _ _ _ => z.blockTimer

/-- R29: what GET MACHINE gives of a session; `still` says whether its timer is standing still. The run clock, for which R2 gives
no greatest value, takes 4 bytes (log entry 46). A washer's ending field goes out as a mark byte of 0, and the guard or the block
timer takes one and the same 2-byte field: neither is an optional field, which is the model's choice (log entry 62). -/
def Session.bytes (z : Session) (still : Bool) : List Byte :=
  nat32 z.payer ++ nat8 z.program ++ z.figures.bytes ++ optBytes 1 (z.option.map fun w => nat8 (optionCode w))
    ++ nat24 z.total ++ nat24 z.value ++ nat24 z.consumed ++ optBytes 1 (z.minutes.map nat8) ++ nat8 z.purchases
    ++ nat32 z.runClock ++ natBytes16 z.cycleTimer ++ natBytes16 z.startWindow ++ natBytes16 z.startWait
    ++ stampBytes z.startTime ++ markByte z.ending ++ markByte z.armAcked ++ markByte still

/-- The bytes that a session takes in the reply of GET MACHINE. -/
def sessionWidth : Nat := 58

/-- R29: the reply of GET MACHINE. The timer counts as standing still wherever the session is not metered: in ARMED, STARTING and
RECOVERING too, and not for an ending dryer that is neither silent nor on hold (log entry 47). The session is one optional field (log entry 71). -/
def State.machineBytes (s : State) (m : Addr) : List Byte :=
  let r := s.record m
  nat8 r.state.code ++ optBytes 1 (r.kind.map fun k => nat8 (kindCode k)) ++ optBytes 1 (r.door.map fun d => nat8 (doorCode d))
    ++ markByte r.silent ++ optBytes 1 (r.reserving.map fun x => nat8 (stationCode x)) ++ markByte r.lockoutPending
    ++ optBytes 1 (r.stopDest.map fun d => nat8 d.code) ++ natBytes16 r.unloadTimer ++ natBytes16 r.silenceTimer
    ++ optBytes 1 (r.retained.map fun t => nat8 t.code)
    ++ optBytes sessionWidth (r.session.map fun z => z.bytes (!s.meterRuns m))

/-! ## GET NODES (R50) and beacons -/

/-- Section 11.4: the command code and the two argument bytes of a bus command; `a` is the address it concerns. The option of a
dryer's ARM is coded as none is in a PURCHASE (log entry 22); an argument byte that a command does not use is 0 (log entry 49). -/
def BusCommand.bytes (c : BusCommand) (a : Addr) : Nat × List Byte :=
  match c with
  | .arm program option => (1, nat8 program ++ nat8 ((option.map optionCode).getD 3))
  | .disarm => (2, [0#8, 0#8])
  | .stop abort => (3, markByte abort ++ [0#8])
  | .hold => (4, [0#8, 0#8])
  | .grant level fill => (5, nat8 (levelCode level) ++ markByte fill)
  | .assign => (6, addrByte a ++ [0#8])

/-- Section 11.4: a command entry of a beacon in 5 bytes; ASSIGN names address 0 (R30). -/
def entryBytes (e : Addr × BusCommand × Nat) : List Byte :=
  let b := e.2.1.bytes e.1
  (if e.2.1 = .assign then nat8 0 else addrByte e.1) ++ nat8 b.1 ++ nat8 e.2.2 ++ b.2

/-- Section 11.4: a beacon with its check. -/
def BeaconFrame.bytes (f : BeaconFrame) : List Byte :=
  let body := natBytes16 f.number ++ nat8 f.entries.length ++ (f.entries.map entryBytes).flatten
  body ++ bytes16 (crc16 body)

/-- R50: a waiting command with its send count: as an optional field that holds the command code and the two argument bytes of the
beacon entry, then the count (log entry 50). -/
def waitingBytes (e : Option BusEntry) : List Byte :=
  optBytes 4 (e.map fun e => nat8 (e.command.bytes e.addr).1 ++ (e.command.bytes e.addr).2 ++ nat8 e.sends)

/-- R50: a node-table entry, with the commands that wait for its address. KNOWN is 0 and NONE 1, in the order of R33. -/
def Mbc.nodeItem (b : Mbc) (m : Addr) : List Byte :=
  let n := b.nodes.at m
  nat8 (if n.known then 0 else 1) ++ optBytes 1 (n.kind.map fun k => nat8 (kindCode k)) ++ markByte n.heard ++ nat8 n.missed
    ++ markByte n.silentMark ++ markByte n.clash ++ optBytes 1 (n.lastKeep.map nat8) ++ nat8 n.staleRun ++ nat8 n.errorRun
    ++ natBytes16 n.errors ++ natBytes16 n.malformed ++ nat8 ((n.lastFault.map faultCodeOf).getD 0)
    ++ waitingBytes (b.waiting m .control) ++ waitingBytes (b.waiting m .level)

/-- R50: the items of GET NODES. The occupied set is carried as 24 bits, address 1 in the lowest. -/
def Mbc.items (b : Mbc) : List (List Byte) :=
  let d := b.discovery
  [ natBytes16 b.beacons, markByte b.scanComplete, nat8 (if d.active then 1 else 0)
  , optBytes 1 (d.cause.map fun c => nat8 c.code), optBytes 1 (d.offered.map addrByte), nat8 d.unanswered
  , nat24 (bitsValue (allMachines.map fun a => d.occupied.contains a)), nat8 b.queue.length ]
    ++ allMachines.map b.nodeItem

/-! ## GET QUEUE (R74) -/

/-- A level and a fill, absent before the first report (R53): one optional field, with the level codes of section 11.4
(log entry 51). -/
def levelFill (x : Option (Level × Bool)) : List Byte :=
  optBytes 2 (x.map fun x => nat8 (levelCode x.1) ++ markByte x.2)

/-- R74: an admission-queue entry; START is 0 and RAISE 1, in the order of R57 (log entry 18). The raise-wait time is an optional
field, absent for START: the model's choice (log entry 71). -/
def AdmEntry.bytes (e : AdmEntry) (raise : Bool) : List Byte :=
  addrByte e.machine ++ markByte raise ++ nat8 (levelCode e.level) ++ markByte e.fill ++ natBytes16 e.arrival
    ++ optBytes 2 (if raise then some (natBytes16 e.timer) else none)

/-- R74: a grant table entry. The granted level none is an absent optional field (log entry 51). -/
def GrantEntry.bytes (e : GrantEntry) : List Byte :=
  optBytes 1 (e.granted.map fun l => nat8 (levelCode l)) ++ markByte e.fill ++ natBytes16 e.draw ++ markByte e.heldSilent
    ++ levelFill e.wanted ++ levelFill e.actual ++ markByte e.pending ++ nat8 e.excessRun

/-- R74: the items of GET QUEUE. -/
def State.queueItems (s : State) : List (List Byte) :=
  let f := s.fba
  [ nat8 (demandCode f.line), nat8 (demandCode f.demand), nat8 f.debounce, natBytes16 s.sst.working.budget
  , nat8 s.sst.working.shed, natBytes16 f.beff, natBytes16 f.committed, nat8 f.fillCount, nat8 s.fillLimit
  , markByte f.overBudget, (f.startList.map addrByte).flatten ]
    ++ f.raises.map (·.bytes true) ++ f.starts.map (·.bytes false) ++ allMachines.map fun m => (s.grant m).bytes

/-! ## GET FAULT (R147), GET CREDITS and GET PENDING (R128) -/

/-- R129: the current fault. Its kind is an optional field, absent where it is none, as no fault code stands for none here: the
model's choice (log entry 66). -/
def CurrentFault.bytes (c : CurrentFault) : List Byte :=
  optBytes 1 (c.kind.map fun k => nat8 (faultCodeOf k)) ++ nat8 c.cause.code ++ nat8 c.severity.rank ++ markByte c.escalated
    ++ stampBytes c.stamp ++ nat8 c.state.code ++ optBytes 4 (c.payer.map nat32) ++ optBytes 3 (c.refund.map nat24)
    ++ optBytes 1 (c.secondary.map fun k => nat8 (faultCodeOf k))

/-- R147: the reply of GET FAULT, with the working lockout threshold. The current fault is one optional field (log entry 71). -/
def FaultRecord.bytes (f : FaultRecord) (threshold : Nat) : List Byte :=
  optBytes 22 (f.current.map (·.bytes)) ++ markByte f.openMark ++ nat8 f.stopCount ++ nat8 threshold
    ++ (f.history.toArray.toList.map nat8).flatten

/-- R128: a refund entry. Its pledge is a presence byte alone: the model's choice (log entry 69). -/
def RefundEntry.bytes (e : RefundEntry) : List Byte :=
  nat32 e.serial ++ nat24 e.amount ++ optBytes 2 (e.created.map natBytes16) ++ markByte e.pledged
    ++ optBytes 1 (e.hold.map fun x => nat8 (stationCode x)) ++ nat8 e.origin

/-- R128: the 512 bits of the hash set in 64 bytes, high byte first, so that bit 0 stands lowest in the last byte. -/
def hashBytes (h : BitVec 512) : List Byte := (List.range 64).map fun i => h.extractLsb' (8 * (63 - i)) 8

/-- R128: the items of GET CREDITS. -/
def State.creditItems (s : State) : List (List Byte) :=
  let sc := s.sst.working.screen
  [nat8 sc.mode.code] ++ sc.list.map nat32 ++ [hashBytes sc.hash, nat8 s.cru.refunds.length]
    ++ s.cru.refunds.map (·.bytes)

/-- R128: the station by which a serial's pending entry is resolved-in-flight. -/
def State.flightStation (s : State) (serial : Nat) : Option Station :=
  if s.pay.a.resolves serial then some .a else if s.pay.b.resolves serial then some .b else none

/-- R128: a pending entry. Whether it is resolved-in-flight, and by which station, is one optional field: the model's choice
(log entry 70). -/
def State.pendingItem (s : State) (p : PendingEntry) : List Byte :=
  nat32 p.serial ++ natBytes16 p.counterRead ++ nat24 p.balanceRead ++ nat24 p.targetBalance ++ natBytes16 p.targetCounter
    ++ natBytes16 p.amount ++ nat24 p.reversal ++ nat24 p.folded ++ addrByte p.machine ++ optBytes 2 (p.day.map natBytes16)
    ++ markByte ((s.cru.refund p.serial).any (·.pledged))
    ++ optBytes 1 ((s.flightStation p.serial).map fun x => nat8 (stationCode x))

/-! ## Settings (10) -/

/-- R174: the commit state, the validity of the stored image and the unsaved-edits mark, which every reply to a settings edit
carries. -/
def Sst.marks (t : Sst) : List Byte := markByte t.commit.isSome ++ markByte t.imageValid ++ markByte t.unsaved

/-- R175: the figures of a program, in the order in which the rule lists them. -/
def ProgramBody.bytes : ProgramBody → List Byte
  | .washer base warm hot planned drawBase drawHeat =>
    natBytes16 base ++ natBytes16 warm ++ natBytes16 hot ++ nat8 planned ++ natBytes16 drawBase ++ natBytes16 drawHeat
  | .dryer rate air low high => natBytes16 rate ++ natBytes16 air ++ natBytes16 low ++ natBytes16 high

/-- R175, R187: a program record after its id, in the order of R175: kind, name, figures. The name is a length byte and that many
characters, as in the request (log entry 56). -/
def Program.bytes (p : Program) : List Byte :=
  nat8 (kindCode p.body.figures.kind) ++ nat8 p.name.length ++ p.name ++ p.body.bytes

/-- The bytes of a washer record with an empty name. -/
def emptyProgramWidth : Nat := 13

/-- R175, R187: a program as held, after its id: an optional field, which for an absent program has the width of a record of kind
code 0 with an empty name (log entry 56). -/
def programBytes (p : Option Program) : List Byte := optBytes emptyProgramWidth (p.map Program.bytes)

/-- R176: a tariff band, or none: one optional field, by the model's choice (log entry 71). -/
def bandBytes (b : Option Band) : List Byte := optBytes 3 (b.map fun b => natBytes16 b.start ++ nat8 b.percent)

/-- R174: the limits and the issuer code as held. -/
def Limits.bytes (l : Limits) : List Byte :=
  nat8 l.fillSlots ++ nat8 l.startWindow ++ nat8 l.startWait ++ nat8 l.raiseWait ++ nat8 l.guardMargin ++ nat8 l.grace
    ++ nat8 l.lockout ++ nat8 l.dryerMin ++ nat8 l.dryerMax ++ nat8 l.expiry ++ natBytes16 l.issuer

/-! ## Station messages (section 11.4) -/

/-- The kind byte and payload of a message to a station. -/
def StationMsg.payload : StationMsg → Byte × List Byte
  | .order number newBalance newCounter amount creditOnly =>
    (0x81#8, nat8 number ++ nat24 newBalance ++ natBytes16 newCounter ++ natBytes16 amount ++ markByte creditOnly)
  | .decline reason balance => (0x82#8, nat8 reason.code ++ nat24 balance)
  | .receiptWasher m program => (0x83#8, addrByte m ++ nat8 program)
  | .receiptDryer m added remaining => (0x83#8, addrByte m ++ nat8 added ++ nat8 remaining)

/-- A message to a station as it goes out. -/
def StationMsg.frame (m : StationMsg) : List Byte := frameBytes m.payload.1 m.payload.2

end Sys2Proof.Machine
end

