-- ==== Sys2Proof/Machine/HostLink.lean ====
section
/-! DEFINITION. HLI: the request buffer, replies and link errors (11, R183 to R188). -/
namespace Sys2Proof.Machine

/-! ## Answers -/

/-- What a block answers to a request: status, reason, page and data (R185, R186). -/
structure Answer where
  status : Status
  reason : Option RefusedReason
  page   : Option (Nat × Nat)
  data   : List Byte
  deriving DecidableEq, Repr

/-- OK with data. -/
def Answer.ok (data : List Byte) : Answer := ⟨.ok, none, none, data⟩

/-- BUSY: nothing changed. -/
def Answer.busy (data : List Byte) : Answer := ⟨.busy, none, none, data⟩

/-- BAD_ARG: nothing changed. -/
def Answer.badArg (data : List Byte) : Answer := ⟨.badArg, none, none, data⟩

/-- LOCKED: nothing changed (R175, R176). -/
def Answer.locked (data : List Byte) : Answer := ⟨.locked, none, none, data⟩

/-- BAD_SEQ: nothing freed (R161). -/
def Answer.badSeq : Answer := ⟨.badSeq, none, none, []⟩

/-- REFUSED with its reason. -/
def Answer.refused (reason : RefusedReason) (data : List Byte) : Answer := ⟨.refused, some reason, none, data⟩

/-- R186: the page of a paged reply that a request asks for, page 0 where it names none; BAD_ARG at or above the page count, with
neither page number nor page count after the status (log entry 61). -/
def Answer.paged (page : Option Byte) (items : List (List Byte)) : Answer :=
  let pages := paginate [] items
  let n := (page.map (·.toNat)).getD 0
  match pages[n]? with
  | some data => ⟨.ok, none, some (n, pages.length), data⟩
  | none => .badArg []

/-- R185: the kind of the reply to a request: 80h more. For a kind of 80h and above see Config.replyKindOver. -/
def replyKind (kind : Byte) : Byte := if kind.toNat < 128 then kind + 0x80#8 else Config.replyKindOver kind

/-- The reply that an answer makes. -/
def Answer.reply (a : Answer) (kind : Byte) : Reply := ⟨replyKind kind, a.status, a.reason, a.page, a.data⟩

/-! ## The buffer -/

/-- The buffer holds a reply that is being sent (R184). -/
def putReply (r : Reply) (resetAfter : Bool) (s : State) : State :=
  s.withHli { s.hli with buffer := some (.reply r resetAfter) }

/-- R184: a frame that ends while the buffer is full is discarded, and LINK_OVERRUN is set. -/
def linkOverrun (s : State) : State := setEvent .linkOverrun s

/-- R183: the link error count rises. -/
def countLinkError (s : State) : State := s.withHli { s.hli with linkErrors := satInc 65535 s.hli.linkErrors }

/-- R183: the BAD_FRAME reply, of kind FFh and one byte. -/
def badFrameReply : Reply := ⟨0xFF#8, .badFrame, none, none, []⟩

/-- R183, R184: a bad frame is counted, and answered BAD_FRAME when the buffer is empty. -/
def takeBadFrame (s : State) : State :=
  let s1 := countLinkError s
  match s.hli.buffer with
  | none => putReply badFrameReply false s1
  | some _ => linkOverrun s1

/-- R174: the kinds of the settings requests, SET PROGRAM to CLEAR HASH (section 11.3). -/
def settingsKind (kind : Byte) : Bool := decide (0x0E ≤ kind.toNat) && decide (kind.toNat ≤ 0x18)

/-- R187: the form byte of a SET PROGRAM or a SET TARIFF is none of those listed, so that no length could suit it. -/
def unknownForm (kind : Byte) (payload : List Byte) : Bool :=
  match kind.toNat, payload with
  | 0x0E, _ :: form :: _ => decide (2 < form.toNat)
  | 0x0F, _ :: form :: _ => decide (1 < form.toNat)
  | _, _ => false

/-- R183, R174: the answer to a frame that spells no request. One of a settings kind carries the three marks, and an edit of an
unknown form is BUSY while a commit is IN_PROGRESS (log entry 45). -/
def unspelled (kind : Byte) (payload : List Byte) (t : Sst) : Answer :=
  if settingsKind kind then
    if t.commit.isSome && unknownForm kind payload then .busy t.marks else .badArg t.marks
  else .badArg []

/-- R183, R184: a good frame. With the buffer empty it is taken: a request it spells waits in the buffer for its block, and a kind
that names no request, or a payload that does not suit it, is answered. No length byte above 250 is ever good
(log entry 45). -/
def takeGoodFrame (kind : Byte) (payload : List Byte) (s : State) : State :=
  if Config.maxPayload < payload.length then takeBadFrame s
  else match s.hli.buffer with
    | some _ => linkOverrun s
    | none =>
      match decodeRequest kind payload with
      | some r => s.withHli { s.hli with buffer := some (.request r) }
      | none => putReply ((unspelled kind payload s.sst).reply kind) false s

/-- What a block does with a request: its answer and the state that the request leaves. -/
abbrev Service := State → Answer × State

/-- A request that changes nothing. -/
def readOnly (f : State → Answer) : Service := fun s => (f s, s)

/-- R185: the owning block acts on a request whole, and its reply goes into the buffer. -/
def answerRequest (kind : Byte) (resetAfter : Bool) (f : Service) (s : State) : State :=
  putReply ((f s).1.reply kind) resetAfter (f s).2

/-- R184, R185: a request reaches its owning block: the request that the buffer holds, or one that comes to an empty buffer and is
taken at once. While the buffer is full with anything else it is discarded with LINK_OVERRUN (log entry 21). -/
def serveWith (resetAfter : Bool) (kind : Byte) (i : Instr) (f : Service) (s : State) : State :=
  if s.isRunning then
    match s.hli.buffer with
    | none => answerRequest kind resetAfter f s
    | some (.request r) => if r = i then answerRequest kind resetAfter f s else linkOverrun s
    | some (.reply _ _) => linkOverrun s
  else s

/-- R185: a request other than RESET is served. -/
def serve (kind : Byte) (i : Instr) (f : Service) (s : State) : State := serveWith false kind i f s

/-- R181: the reply in the buffer is that of RESET, after which a warm reset begins. -/
def Hli.resets (h : Hli) : Bool :=
  match h.buffer with
  | some (.reply _ resetAfter) => resetAfter
  | _ => false

/-- R184, R181: the last byte of a reply has been sent; the buffer empties, and after the reply to RESET a warm reset begins. -/
def replySent (s : State) : State :=
  match s.hli.buffer with
  | some (.reply _ resetAfter) =>
    let s1 := s.withHli { s.hli with buffer := none }
    if resetAfter then beginWarm .warmRequest s1 else s1
  | _ => s

/-- R185: a flag or option byte: 0 not given, 1 given, any other value BAD_ARG. -/
def flagOf (b : Byte) : Option Bool := if b = 0#8 then some false else if b = 1#8 then some true else none

end Sys2Proof.Machine
end

