-- ==== Sys2Proof/Machine/Settings.lean ====
section
/-! DEFINITION. SST: the settings edits, commit, price lock and clock, and CRU's screen edits (10, R113 to R117, R52, R56). -/
namespace Sys2Proof.Machine

/-! ## What every settings edit shares (R174; log entry 16) -/

/-- The state with other working settings; every accepted edit sets the unsaved-edits mark, but for one of which its rule says that
it changes nothing (R115, R117, R175): that one does not come here. -/
def State.edited (s : State) (g : Settings) : State := s.withSst { s.sst with working := g, unsaved := true }

/-- The state with another working screen. -/
def State.screenEdited (s : State) (sc : Screen) : State := s.edited { s.sst.working with screen := sc }

/-- OK to a settings request: its data, then the three marks of R174. -/
def okMarked (data : List Byte) (s : State) : Answer × State := (.ok (data ++ s.sst.marks), s)

/-- R174: while a commit is IN_PROGRESS a settings edit is answered BUSY and changes nothing. -/
def settingsEdit (f : Service) : Service := fun s =>
  if s.sst.commit.isSome then (.busy s.sst.marks, s) else f s

/-- BAD_ARG to a settings request; nothing changes. -/
def badSetting : Service := fun s => (.badArg s.sst.marks, s)

/-- An identifier from 1 to `top`, as an index from 0. -/
def identifier (top : Nat) (b : Byte) : Option (Fin top) :=
  if h : 1 ≤ b.toNat ∧ b.toNat ≤ top then some ⟨b.toNat - 1, by omega⟩ else none

/-! ## Programs and tariff bands (R175, R176) -/

/-- R175: the record that SET PROGRAM asks for, with its numeric fields clamped and the first 12 characters of its name. -/
def ProgramForm.held : ProgramForm → Option Program
  | .removal => none
  | .washer base warm hot planned drawBase drawHeat name =>
    some ⟨.washer (clamp 0 5000 base.toNat) (clamp 0 2000 warm.toNat) (clamp 0 2000 hot.toNat) (clamp 10 180 planned.toNat)
      (clamp 0 400 drawBase.toNat) (clamp 0 400 drawHeat.toNat), name.take 12⟩
  | .dryer rate air low high name =>
    some ⟨.dryer (clamp 0 2000 rate.toNat) (clamp 0 400 air.toNat) (clamp 0 400 low.toNat) (clamp 0 400 high.toNat),
      name.take 12⟩

/-- R175: a program is created, replaced or removed; under the lock a change of a price-bearing field is LOCKED. Removing an absent
program is answered OK and changes nothing, the unsaved-edits mark among it (log entry 16). -/
def setProgramAt (i : Fin 16) (form : ProgramForm) : Service := fun s =>
  let g := s.sst.working
  let p := ProgramForm.held form
  if s.sst.lock && decide (priceFields p ≠ priceFields g.programs[i]) then (.locked s.sst.marks, s)
  else okMarked (nat8 (i.val + 1) ++ programBytes p)
    (if p = none ∧ g.programs[i] = none then s else s.edited { g with programs := g.programs.set i.val p i.isLt })

/-- R175: SET PROGRAM. -/
def setProgram (id : Byte) (form : ProgramForm) : Service := settingsEdit fun s =>
  match identifier 16 id with
  | some i => setProgramAt i form s
  | none => badSetting s

/-- R176: the band that SET TARIFF asks for, clamped. -/
def TariffForm.held : TariffForm → Option Band
  | .removal => none
  | .band start percent => some ⟨clamp 0 1439 start.toNat, clamp 50 250 percent.toNat⟩

/-- R176: the bands with one set at an index; another band with the same start becomes absent. -/
def replaceBand (bands : Vector (Option Band) 6) (i : Fin 6) (b : Option Band) : Vector (Option Band) 6 :=
  let cleared := match b with
    | none => bands
    | some b => bands.map fun (x : Option Band) => if x.any (fun (c : Band) => c.start == b.start) then none else x
  cleared.set i.val b i.isLt

/-- R176: SET TARIFF. An index outside 1 to 6 is BAD_ARG under the price lock as well (log entry 55). -/
def setTariff (index : Byte) (form : TariffForm) : Service := settingsEdit fun s =>
  match identifier 6 index with
  | none => badSetting s
  | some i =>
    if s.sst.lock then (.locked s.sst.marks, s)
    else
      let bands := replaceBand s.sst.working.bands i (TariffForm.held form)
      okMarked (bands.toArray.toList.map bandBytes).flatten (s.edited { s.sst.working with bands := bands })

/-! ## Budget and limits (R52, R56, R174) -/

/-- R52, R174: SET BUDGET; FBA recomputes B_eff when either figure changes. -/
def setBudget (budget : Word16) (percent : Byte) : Service := settingsEdit fun s =>
  let g := s.sst.working
  let b := clamp 100 8000 budget.toNat
  let p := clamp 30 100 percent.toNat
  let s1 := s.edited { g with budget := b, shed := p }
  let s2 := if b = g.budget ∧ p = g.shed then s1 else recomputeBudget s1
  okMarked (natBytes16 b ++ nat8 p ++ natBytes16 s2.fba.beff) s2

/-- R174: the limits that SET LIMITS asks for, each clamped to its range. -/
def LimitArgs.held (a : LimitArgs) : Limits :=
  { fillSlots := clamp 1 8 a.fillSlots.toNat, startWindow := clamp 1 30 a.startWindow.toNat
    startWait := clamp 1 60 a.startWait.toNat, raiseWait := clamp 1 60 a.raiseWait.toNat
    guardMargin := clamp 0 60 a.guardMargin.toNat, grace := clamp 0 10 a.grace.toNat, lockout := clamp 1 9 a.lockout.toNat
    dryerMin := clamp 5 30 a.dryerMin.toNat, dryerMax := clamp 30 120 a.dryerMax.toNat, expiry := clamp 1 90 a.expiry.toNat
    issuer := a.issuer.toNat }

/-- R56, R174: SET LIMITS; BUSY when the fill-slot limit asked for is below the fill count, and a changed limit has the queue
re-examined (R59). -/
def setLimits (a : LimitArgs) : Service := settingsEdit fun s =>
  let g := s.sst.working
  let l := LimitArgs.held a
  if l.fillSlots < s.fba.fillCount then (.busy s.sst.marks, s)
  else
    let s1 := s.edited { g with limits := l }
    okMarked l.bytes (if l.fillSlots = g.limits.fillSlots then s1 else review s1)

/-! ## Commit and price lock (R177, R179) -/

/-- R177 steps 1 to 3: the stored image is marked invalid, and a copy of the working settings is being written. The commit state
that the catalogue gives as this reply's data is sent once, as the first of the three marks (R174; log entry 60). -/
def commitSettings : Service := settingsEdit fun s =>
  okMarked [] (s.withSst { s.sst with imageMarked := false, commit := some s.sst.working })

/-- R177 step 4: the write has ended. -/
def commitWriteEnd (s : State) : State :=
  match s.sst.commit with
  | none => s
  | some copy =>
    s.withSst { s.sst with image := copy, imageMarked := true, imageCheck := true, commit := none, unsaved := false }

/-- R179: LOCK PRICES; a lock that is set already keeps its lock code. -/
def lockPrices : Service := settingsEdit fun s =>
  okMarked (markByte true)
    (if s.sst.lock then s else s.withSst { s.sst with lock := true, lockCode := some s.sst.working.priceCode })

/-! ## The screen (R115 to R117) -/

/-- The screen mode of a code (section 11.3). -/
def screenModeOf : Nat → Option ScreenMode
  | 0 => some .opened
  | 1 => some .deny
  | 2 => some .allow
  | _ => none

/-- R115: SET SCREEN MODE. The mode already in force changes nothing, the unsaved-edits mark among it (log entry 16). -/
def setScreenMode (mode : Byte) : Service := settingsEdit fun s =>
  match screenModeOf mode.toNat with
  | none => badSetting s
  | some x =>
    if s.pay.a.order.isSome || s.pay.b.order.isSome then (.busy s.sst.marks, s)
    else okMarked (nat8 x.code)
      (if x = s.sst.working.screen.mode then s else s.screenEdited { s.sst.working.screen with mode := x })

/-- R116: OK with the number of serials now in the list. -/
def listAnswer (list : List Nat) (s : State) : Answer × State :=
  okMarked (nat8 list.length) (s.screenEdited { s.sst.working.screen with list := list })

/-- R116: SCREEN ADD. -/
def screenAdd (serial : Serial32) : Service := settingsEdit fun s =>
  let list := s.sst.working.screen.list
  if serial = 0#32 then badSetting s
  else if list.contains serial.toNat then listAnswer list s
  else if Config.perfectSerials ≤ list.length then (.refused .listFull s.sst.marks, s)
  else listAnswer (list ++ [serial.toNat]) s

/-- R116: SCREEN REMOVE. -/
def screenRemove (serial : Serial32) : Service := settingsEdit fun s =>
  if serial = 0#32 then badSetting s
  else listAnswer (s.sst.working.screen.list.filter (· != serial.toNat)) s

/-- The hash set with one bit given a value (R117). -/
def withHashBit (h : BitVec 512) (i : Nat) (v : Bool) : BitVec 512 :=
  if v then h ||| (1#512 <<< i) else h &&& ~~~(1#512 <<< i)

/-- R117: SET HASH BIT. The value that the bit holds changes nothing, the unsaved-edits mark among it (log entry 16). A value byte
of 0 is clear and of 1 set: the model's choice (log entry 68). -/
def setHashBit (index : Word16) (value : Byte) : Service := settingsEdit fun s =>
  match flagOf value with
  | none => badSetting s
  | some v =>
    if 511 < index.toNat then badSetting s
    else
      let sc := s.sst.working.screen
      okMarked (markByte v)
        (if sc.hash.getLsbD index.toNat = v then s
         else s.screenEdited { sc with hash := withHashBit sc.hash index.toNat v })

/-- R117: CLEAR HASH. -/
def clearHash : Service := settingsEdit fun s =>
  okMarked [] (s.screenEdited { s.sst.working.screen with hash := 0#512 })

/-! ## The clock (R178) -/

/-- R178: SET CLOCK, which is no settings edit; CRU makes its expiry check, which serves for one that a rollover still owes
(log entry 5). -/
def setClock (day minute : Word16) : Service := fun s =>
  let c : Clock := ⟨day.toNat, min 1439 minute.toNat, 0, false⟩
  let s1 := expiryCheck (s.withSst { s.sst with clock := some c })
  (.ok (clockBytes (some c)), s1)

/-- R178: the clock one second on: the count carries into the minute, and as the minute passes 1,439 it returns to 0 and the day
advances, 65,535 being followed by 0; the expiry check of that day rollover is owed from then on (log entry 5). -/
def Clock.tick (c : Clock) : Clock :=
  if c.second < 59 then { c with second := c.second + 1 }
  else if c.minute < 1439 then { c with second := 0, minute := c.minute + 1 }
  else { day := wrapInc 65535 c.day, second := 0, minute := 0, rollover := true }

/-- R178: the day rollover is brought to CRU, which makes the expiry check that it owes, on the day that the clock has reached
(log entry 5). -/
def rollDay (s : State) : State :=
  match s.sst.clock with
  | none => s
  | some c => if c.rollover then expiryCheck (s.withSst { s.sst with clock := some { c with rollover := false } }) else s

end Sys2Proof.Machine
end

