-- ==== Sys2Proof/Machine/Service.lean ====
section
/-! DEFINITION. The host requests that read status, events and the journal, change the room mode, act on machines, start a
discovery and grant refunds (R25, R47, R127, R142 to R145, R160, R161, R165, R170, R171). -/
namespace Sys2Proof.Machine

/-! ## Events (R170, R171) -/

/-- R171: READ EVENTS: the image as taken, the masks and enables, and ATTN after the request. -/
def readEvents (clear : Byte) : Service := fun s =>
  match flagOf clear with
  | none => (.badArg [], s)
  | some c =>
    let e := if c then s.evu.clearAll else s.evu.findAttn
    (.ok (flagBytes s.evu.flags ++ flagBytes e.masks ++ enableByte e ++ markByte e.attn), s.withEvu e)

/-- R170: SET EVENT MASK; a 1 in an unused position is BAD_ARG. The reply gives masks, enables, image and ATTN
(log entry 42). -/
def setEventMask (masks : BitVec 24) (enables : Byte) : Service := fun s =>
  if masks.toNat < 2 ^ 19 ∧ enables.toNat < 4 then
    let e := s.evu.setMasks (masks.setWidth 19) (enables.getLsbD 0) (enables.getLsbD 1)
    (.ok (flagBytes e.masks ++ enableByte e ++ flagBytes e.flags ++ markByte e.attn), s.withEvu e)
  else (.badArg [], s)

/-! ## The journal (R160, R161) -/

/-- R160: JOURNAL READ: the oldest records, at most 4, and the journal figures. -/
def journalRead (count : Byte) : Service := readOnly fun s =>
  let j := s.jrn
  .ok (((j.records.take (clamp 1 4 count.toNat)).map (·.bytes)).flatten ++ nat8 j.records.length ++ nat8 j.free
    ++ nat8 j.reservations ++ nat8 j.state.code ++ natBytes16 j.overflow ++ natBytes16 j.sequence)

/-- R161: JOURNAL RELEASE. -/
def journalRelease (sequence : Word16) : Service := fun s =>
  match releaseCount sequence.toNat s.jrn.records with
  | none => (.badSeq, s)
  | some n =>
    let s1 := releaseRecords n s
    (.ok (nat8 n ++ nat8 s1.jrn.records.length), s1)

/-! ## The room mode (R165) -/

/-- The room mode of a code (section 11.3). -/
def roomModeOf : Nat → Option RoomMode
  | 0 => some .opened
  | 1 => some .quiet
  | 2 => some .closed
  | _ => none

/-- R22: the machines whose records are ARMED or STARTING, ascending. -/
def State.unstarted (s : State) : List Addr :=
  allMachines.filter fun m => (s.record m).state == .armed || (s.record m).state == .starting

/-- R165 step 2: every machine ARMED or STARTING at this moment is disarmed. Their START entries leave first, so that the
disarm of one starts no other (log entry 43). -/
def closeRoom (s : State) : State :=
  s.unstarted.foldl (fun s m => disarmRefund m s) (s.unstarted.foldl (fun s m => removeEntries m s) s)

/-- R165: SET ROOM MODE. -/
def setRoomMode (mode : Byte) : Service := fun s =>
  match roomModeOf mode.toNat with
  | none => (.badArg [], s)
  | some x =>
    if x = s.sst.roomMode then (.ok (nat8 x.code ++ nat8 0), s)
    else
      let s1 := s.withSst { s.sst with roomMode := x }
      let closing := decide (x = .closed)
      let s2 := if closing then closeRoom s1 else s1
      (.ok (nat8 x.code ++ nat8 (if closing then s1.unstarted.length else 0)),
        writeFree { kind := .mode, machine := 0, detail := .mode x } s2)

/-! ## Machines (R25, R142 to R145) -/

/-- R142, R145: FLM replaces the current fault by a host's order and gives MSV the order, whose refund is stored. -/
def hostAbort (m : Addr) (cause : FaultCause) (sev : Severity) (withRefund : Bool) (s : State) : State :=
  orderAbort m sev withRefund
    (s.setFaults m { s.faults m with current := some (newCurrent m none cause sev false s) })

/-- R142, R144, R145: the SERVICE record, with payer and refund where a session was aborted. -/
def serviceBody (m : Addr) (detail : Detail) (e : Ended) : RecordBody :=
  { kind := .service, machine := addrNumber m, serial := e.map (·.1), amount := e.map (·.2), detail := detail }

/-- R143: confirmed off acts on a RUNNING or ABORTING record with the silent flag set, and on a RECOVERING one whose retained
state is RUNNING (log entry 15). -/
def MachineRecord.confirmable (r : MachineRecord) : Bool :=
  match r.state with
  | .running | .aborting => r.silent
  | .recovering => r.retained == some .running
  | _ => false

/-- R143, R25: the grant is released without waiting for a report, and the record goes to OUT_OF_SERVICE. -/
def confirmOff (m : Addr) (s : State) : State :=
  enterState m .outOfService (mapRecord m (fun x => { x with stopDest := none }) (releaseGrant m s))

/-- R142: the record of an accepted SERVICE OUT and the LOCKOUT event, then the reply with the state held. -/
def serviceOutDone (m : Addr) (e : Ended) (s : State) : Answer × State :=
  let s1 := setEvent .lockout (writeFree (serviceBody m .out e) s)
  (.ok (nat8 (s1.record m).state.code), s1)

/-- R142, R143: SERVICE OUT on a machine, by the record's state. -/
def serviceOutOn (m : Addr) (off : Bool) : Service := fun s =>
  let r := s.record m
  let confirm (s1 : State) : State := if off && r.confirmable then confirmOff m s1 else s1
  match r.state with
  | .reserved => (.busy [], s)
  | .absent => (.refused .noNode [], s)
  | .outOfService => (.ok (nat8 MState.outOfService.code), s)
  | .idle | .done | .faulted | .offline => serviceOutDone m none (enterState m .outOfService s)
  | .aborting => serviceOutDone m none (confirm (abortIn m .lockout false s))
  | .armed | .starting | .running | .recovering =>
    serviceOutDone m (abortReport m .lockout true s)
      (confirm (setOpenMark m true (hostAbort m .hostOut .lockout true s)))

/-- R142: SERVICE OUT. -/
def serviceOut (machine off : Byte) : Service := fun s =>
  match machineOf machine.toNat, flagOf off with
  | some m, some f => serviceOutOn m f s
  | _, _ => (.badArg [], s)

/-- R144: SERVICE RETURN. -/
def serviceReturn (machine : Byte) : Service := fun s =>
  match machineOf machine.toNat with
  | none => (.badArg [], s)
  | some m =>
    if (s.record m).state ≠ .outOfService then (.refused .notOut [], s)
    else if (s.node m).clash then (.refused .clash [], s)
    else
      let s1 := s.setFaults m { s.faults m with stopCount := 0, openMark := false }
      let s2 := mapNode m (fun n => { n with lastFault := none }) s1
      let s3 := enterState m (if (s.node m).heard then .idle else .offline) s2
      let s4 := writeFree (serviceBody m .returned none) s3
      (.ok (nat8 (s4.record m).state.code), s4)

/-- R145: ABORT CYCLE on a machine whose record holds a session. -/
def abortCycleOn (m : Addr) (withRefund : Bool) : Service := fun s =>
  let e := abortReport m .stop withRefund s
  let s1 := hostAbort m .hostAbort .stop withRefund s
  let st := (s1.record m).state
  let s2 := if st = .aborting ∨ st = .faulted then setOpenMark m true s1 else s1
  let s3 := writeFree (serviceBody m .abort e) s2
  (.ok (nat8 st.code ++ nat24 ((e.map (·.2)).getD 0)), s3)

/-- R145: ABORT CYCLE. -/
def abortCycle (machine refund : Byte) : Service := fun s =>
  match machineOf machine.toNat, flagOf refund with
  | some m, some f =>
    if (s.record m).state = .reserved then (.busy [], s)
    else if (s.record m).session.isNone then (.refused .noSession [], s)
    else abortCycleOn m f s
  | _, _ => (.badArg [], s)

/-! ## Discovery and grants (R47, R127) -/

/-- R47: REDISCOVER. -/
def rediscover : Service := fun s =>
  if allMachines.any (fun m => (s.record m).state == .reserved) || !s.mbc.scanComplete || s.mbc.discovery.active then
    (.busy [], s)
  else (.ok [], startDiscovery .host s)

/-- R127: REFUND GRANT. -/
def refundGrant (serial : Serial32) (amount : Word16) : Service := fun s =>
  if serial = 0#32 ∨ amount = 0#16 ∨ Config.maxGrant < amount.toNat then (.badArg [], s)
  else match reserveSlots Config.grantReservations s with
    | none => (.busy [], s)
    | some s1 =>
      let s2 := creditSerial .grant serial.toNat amount.toNat 0 s1
      (.ok (nat24 (s2.cru.owed serial.toNat)), s2)

/-! ## Status (R29, R147) -/

/-- R29: GET MACHINE. -/
def getMachine (machine : Byte) : Service := readOnly fun s =>
  match machineOf machine.toNat with
  | none => .badArg []
  | some m => .ok (s.machineBytes m)

/-- R147: GET FAULT. -/
def getFault (machine : Byte) : Service := readOnly fun s =>
  match machineOf machine.toNat with
  | none => .badArg []
  | some m => .ok ((s.faults m).bytes s.sst.working.limits.lockout)

end Sys2Proof.Machine
end

