-- ==== Sys2Proof/Machine/Timers.lean ====
section
/-! DEFINITION. What comes about by itself: beacons and the close of a period, notices, timers, lines, power and the second (R30,
R35, R43, R48, R51, R178, R180, R181 and the timers of 01, 03, 04). An event acts only when it is due, as the rule of its block
says; otherwise it changes nothing (log entry 1). -/
namespace Sys2Proof.Machine

/-- An event acts only where it is due. -/
def whenDue (due : State → Bool) (f : State → State) (s : State) : State := if due s then f s else s

/-! ## Beacons and periods (R30, R31, R35, R43, R45, R48) -/

/-- R30, R40: a beacon goes out with the first two eligible entries. -/
def sendBeacon (s : State) : State :=
  let n := wrapInc 65535 s.mbc.beacons
  let chosen := s.mbc.chosen
  let frame : BeaconFrame := ⟨n, chosen.map fun e => e.carried s.mbc⟩
  let s1 := chosen.foldl sendEntry (s.withMbc { s.mbc with beacons := n, periodOpen := true })
  s1.withOut { s1.out with beacon := some frame }

/-- R35: an address's missed count as the period closes. An address whose presence is NONE keeps it at 0. -/
def NodeEntry.closePeriod (n : NodeEntry) : NodeEntry :=
  if n.known then { n with missed := if n.heardNow then n.missed else satInc 255 n.missed, heardNow := false }
  else { n with missed := 0, heardNow := false }

/-- R45 step 2: the answer window as the period closes; it does not cover the period that carried the ASSIGN (log entry 33). -/
def Discovery.closePeriod (d : Discovery) : Discovery :=
  if d.fresh then { d with fresh := false } else { d with window := d.window - 1 }

/-- R30: MBC closes the period; the period counts for the first slot scan where that runs (R48). -/
def closePeriod (s : State) : State :=
  let b := s.mbc
  s.withMbc { b with
    nodes := b.nodes.mapAll NodeEntry.closePeriod
    queue := b.queue.map fun e => { e with sentNow := false }
    discovery := b.discovery.closePeriod
    scanCount := if b.scanning then satInc Config.scanPeriods b.scanCount else b.scanCount
    scanSkip := false, periodOpen := false }

/-- R35: the missed count has reached 8 and the notice is not given yet. -/
def State.silenceDue (s : State) (m : Addr) : Bool :=
  (s.node m).known && decide (Config.silentBeacons ≤ (s.node m).missed) && !(s.node m).silentMark

/-- R35: the silent mark is set, and MSV and FBA are told. -/
def silenceNotice (m : Addr) (s : State) : State := giveSilence m (mapNode m (fun n => { n with silentMark := true }) s)

/-- R37: steps 1 to 3 of a clash, at an address's entry: a presence of NONE becomes KNOWN, with the kind absent. -/
def NodeEntry.clashed (n : NodeEntry) : NodeEntry :=
  { n with clash := true, known := true, kind := if n.known then n.kind else none, errorRun := 0, clashOwed := false }

/-- R37: steps 1 to 5 of a clash. -/
def takeClash (m : Addr) (s : State) : State :=
  takeFault m .addressClash false (setEvent .addressClash (mapNode m NodeEntry.clashed s))

/-- R43: an entry of a class was sent three times and the period of the third send closed without an acknowledgement. -/
def State.lostDue (s : State) (m : Addr) (c : CommandClass) : Bool :=
  (s.mbc.waiting m c).any fun e => decide (Config.sendLimit ≤ e.sends) && !e.sentNow

/-- R43: the entry leaves the queue, its block is told that it was lost, and CMD_LOST goes to FLM. -/
def loseCommand (m : Addr) (c : CommandClass) (s : State) : State :=
  match s.mbc.waiting m c with
  | none => s
  | some e => takeFault m .cmdLost false (tellOwner m e.command false (dropCommand m c s))

/-- R48: eight periods of the scan have closed. -/
def State.scanDue (s : State) : Bool := !s.mbc.scanComplete && decide (Config.scanPeriods ≤ s.mbc.scanCount)

/-- R48: the first slot scan is complete, and with it start-up (R182). -/
def completeScan (s : State) : State := s.withMbc { s.mbc with scanComplete := true }

/-! ## Session timers -/

/-- A session in a state whose timer of that state stands at 0. -/
def State.sessionDue (s : State) (m : Addr) (state : MState) (f : Session → Bool) : Bool :=
  (s.record m).state == state && (s.record m).session.any f

/-- R15: one expiry of the block timer: a meter step, then the timer is loaded anew, or the session is ending and STOP(end) is
queued. -/
def blockExpiry (m : Addr) (s : State) : State :=
  match (s.record m).session with
  | none => s
  | some z =>
    let z1 := z.meterStep
    if 0 < z1.minutes.getD 0 then s.mapSession m fun _ => { z1 with blockTimer := Config.blockSeconds }
    else queueControl m (.stop false) (s.mapSession m fun _ => { z1 with ending := true })

/-- R15: the block timer of a running dryer session has run out; it is not loaded once M is 0. -/
def Session.blockDue (z : Session) : Bool :=
  z.figures.kind == .dryer && z.blockTimer == 0 && !z.ending && decide (1 ≤ z.minutes.getD 0)

/-- R14: the guard timer of a running washer session has run out. -/
def Session.guardDue (z : Session) : Bool := z.figures.kind == .washer && z.guardTimer == 0

/-- R24: the silence timer of a session has run out. -/
def State.silentTimerDue (s : State) (m : Addr) : Bool :=
  let r := s.record m
  r.session.isSome && r.silent && r.silenceTimer == 0 && (r.state == .armed || r.state == .starting || r.state == .running)

/-- R28: the recovery window ends: unresolved records in ascending number, then MBC's notices again (R35). -/
def endWindow (s : State) : State :=
  forMachines repeatNotice (forMachines windowEnds (s.withMsv { s.msv with recoveryWindow := none }))

/-! ## Feeder timers and lines (R51, R64, R72) -/

/-- R51: the DEMAND input reads a level. The pin is read whatever the phase; the debounce timer belongs to the running part. -/
def demandLine (reading : Demand) (s : State) : State :=
  let f := s.fba
  if reading = f.line then s
  else if s.isRunning then
    s.withFba { f with line := reading, debounce := if reading = f.demand then 0 else Config.debounceSeconds }
  else s.withFba { f with line := reading }

/-- R51: the debounce timer has run out. -/
def State.debounceDue (s : State) : Bool := s.fba.line != s.fba.demand && s.fba.debounce == 0

/-- R51: the demand state takes the line reading, B_eff is recomputed, and a demand state of SHED sets its event. -/
def takeLine (s : State) : State :=
  setEventIf (s.fba.line == .shed) .demandShed (recomputeBudget (s.withFba { s.fba with demand := s.fba.line }))

/-- R64: the raise-wait timer of a machine's RAISE entry has run out. -/
def State.raiseDue (s : State) (m : Addr) : Bool := s.fba.raises.any fun e => e.machine == m && e.timer == 0

/-- R72: DRAW_EXCESS, or its persisting form, reaches FLM. -/
def reportExcess (m : Addr) (persisting : Bool) (s : State) : State :=
  takeFault m .drawExcess persisting (mapGrant m (fun e =>
    if persisting then { e with persistOwed := false } else { e with excessOwed := false }) s)

/-! ## The end of a slot (R30) -/

/-- NODE_STALE and the rest of a report in hand, where one is (R36, R32). -/
def staleIfDue (m : Addr) : State → State := whenDue (fun s => (s.node m).inHand.isSome) (reportStale m)

/-- DRAW_EXCESS, or its persisting form, where it is owed (R72). -/
def excessIfDue (m : Addr) (persisting : Bool) : State → State :=
  whenDue (fun s => if persisting then (s.grant m).persistOwed else (s.grant m).excessOwed) (reportExcess m persisting)

/-- The steps of a clash, where they are owed (R37). -/
def clashIfDue (m : Addr) : State → State := whenDue (fun s => (s.node m).clashOwed) (takeClash m)

/-- R30: what a slot's outcome has left to rows of their own is taken, in the order in which R32 and R72 have it come about. -/
def finishAddress (m : Addr) (s : State) : State := clashIfDue m (excessIfDue m true (excessIfDue m false (staleIfDue m s)))

/-- R30: MBC acts on each slot's outcome as it is heard, so all of it is taken before the next slot, the close of the period, the
next beacon or the end of the run finds the part (log entry 6). -/
def finishSlot (s : State) : State := forMachines finishAddress s

/-- A command that finds the last slot's outcome taken. -/
def afterSlot (f : State → State) : State → State := whenRunning fun s => f (finishSlot s)

/-! ## Stations -/

/-- R91: the result timer of a station's exchange has run out. -/
def State.resultDue (s : State) (st : Station) : Bool := (s.exchange st).order.any (·.timer == 0)

/-- R91: the exchange ends uncertain with the cause TIMEOUT. -/
def resultExpiry (st : Station) (s : State) : State :=
  match (s.exchange st).order with
  | none => s
  | some o => endUncertain st o .timeout s

/-! ## The second (R178) -/

/-- The timers of a session over one second, by its record's state; `runs` says that the guard or block timer runs (R14 to
R16). The run clock counts the seconds in which that timer runs. -/
def Session.tick (z : Session) (state : MState) (runs : Bool) : Session :=
  match state with
  | .armed => { z with startWindow := z.startWindow - 1 }
  | .starting => { z with startWait := z.startWait - 1 }
  | .running =>
    if runs then
      match z.figures with
      | .washer _ _ _ =>
        if 0 < z.guardTimer then { z with guardTimer := z.guardTimer - 1, runClock := z.runClock + 1 } else z
      | .dryer _ _ _ _ =>
        if 0 < z.blockTimer then { z with blockTimer := z.blockTimer - 1, runClock := z.runClock + 1 } else z
    else z
  | _ => z

/-- The timers of a record over one second: the unload timer in DONE (R19), the silence timer while the silent flag is set
(R1, R23), and the session's. -/
def MachineRecord.tick (r : MachineRecord) (runs : Bool) : MachineRecord :=
  { r with
    unloadTimer := if r.state = .done then r.unloadTimer - 1 else r.unloadTimer
    silenceTimer := if r.silent && r.session.isSome then r.silenceTimer - 1 else r.silenceTimer
    session := r.session.map fun z => z.tick r.state runs }

/-- An exchange over one second (R91). -/
def Exchange.tick (x : Exchange) : Exchange := { x with order := x.order.map fun o => { o with timer := o.timer - 1 } }

/-- R178: one second elapses. -/
def secondElapses (s : State) : State :=
  { s with
    msv :=
      { records := s.msv.records.mapWith fun m r => r.tick (s.meterRuns m)
        recoveryWindow := s.msv.recoveryWindow.map fun n => n - 1 }
    fba := { s.fba with
      raises := s.fba.raises.map fun e => { e with timer := e.timer - 1 }
      debounce := s.fba.debounce - 1 }
    pay := { s.pay with a := s.pay.a.tick, b := s.pay.b.tick }
    sst := { s.sst with clock := s.sst.clock.map Clock.tick } }

/-! ## Power and the RESET input (R180, R181) -/

/-- R180: the supply is lost: the part stops, a reply is cut short, and ATTN is released; the working state of EVU is gone
(log entry 44). -/
def losePower (s : State) : State :=
  ((s.withPhase .off).withHli { s.hli with buffer := none }).withEvu .cleared |>.withResetHeld false

/-- R181: the RESET input is asserted: a warm reset begins, or the one in progress is prolonged. Asserted without power it is not seen,
and a cold reset ends with the input taken as released: the model's choice (log entry 65). -/
def assertReset (s : State) : State :=
  match s.phase with
  | .running => (beginWarm .warmPin s).withResetHeld true
  | .warmReset _ => s.withResetHeld true
  | .off => s

/-- R181: the warm reset ends. -/
def endWarm (fast : Bool) (s : State) : State :=
  match s.phase with
  | .warmReset lost => finishReset false lost fast (s.withResetHeld false)
  | .running | .off => s

end Sys2Proof.Machine
end

