-- ==== Sys2Proof/Machine/ExecBus.lean ====
section
/-! DEFINITION. The meanings of the machine bus: beacons, slots, the close of a period and what follows from it. -/
namespace Sys2Proof.Machine

/-- BEACON (R30, R40, R41, R45). -/
def execBeacon (s : State) : Result := .next (afterSlot sendBeacon s)

/-- VALID_REPORT (R31, R32): a report that its layout puts out of range, or of another address, is malformed
(log entry 38). -/
def execValidReport (slot : Addr) (report : SlotReport) (s : State) : Result :=
  .next (afterSlot (fun s =>
    match decodeReport slot report with
    | some r => takeValid slot r s
    | none => takeMalformed slot s) s)

/-- MALFORMED_REPORT (R31, R45). -/
def execMalformedReport (slot : Addr) (s : State) : Result := .next (afterSlot (takeMalformed slot) s)

/-- CHECK_ERROR (R31, R37, R45). -/
def execCheckError (slot : Addr) (s : State) : Result := .next (afterSlot (takeCheckError slot) s)

/-- EMPTY_SLOT (R31). -/
def execEmptySlot (slot : Addr) (s : State) : Result :=
  .next (afterSlot (mapNode slot fun n => { n with errorRun := 0 }) s)

/-- PERIOD_CLOSE (R30, R35, R43, R45, R48). -/
def execPeriodClose (s : State) : Result := .next (afterSlot closePeriod s)

/-- SILENCE_NOTICE (R35, R23, R68). -/
def execSilenceNotice (machine : Addr) (s : State) : Result :=
  .next (whenRunning (whenDue (·.silenceDue machine) (silenceNotice machine)) s)

/-- NODE_STALE (R36, R32): due while a report whose stale run reached 3 is in hand (log entry 6). -/
def execNodeStale (machine : Addr) (s : State) : Result :=
  .next (whenRunning (staleIfDue machine) s)

/-- ADDRESS_CLASH (R37). -/
def execAddressClash (machine : Addr) (s : State) : Result :=
  .next (whenRunning (clashIfDue machine) s)

/-- CMD_LOST (R43). -/
def execCmdLost (machine : Addr) (cls : CommandClass) (s : State) : Result :=
  .next (whenRunning (whenDue (·.lostDue machine cls) (loseCommand machine cls)) s)

/-- ANSWER_WINDOW_CLOSE (R45). -/
def execAnswerWindowClose (s : State) : Result :=
  .next (whenRunning (whenDue (·.mbc.windowClosed) assignUnanswered) s)

/-- FIRST_SLOT_SCAN_COMPLETE (R48, R182). -/
def execFirstSlotScanComplete (s : State) : Result := .next (whenRunning (whenDue (·.scanDue) completeScan) s)

end Sys2Proof.Machine
end

