-- ==== Sys2Proof/Machine/ExecLink.lean ====
section
/-! DEFINITION. The meanings of the resets, of power and of the host link's frames. -/
namespace Sys2Proof.Machine

/-- COLD_RESET (R180): power-on, in any phase. A slot already heard is taken to its end first, here and where the part stops or a
warm reset begins (R30). -/
def execColdReset (retainedOk serviceFitted imageOk baudFitted : Bool) (s : State) : Result :=
  .next (coldReset retainedOk serviceFitted imageOk baudFitted (whenRunning finishSlot s))

/-- RESET_INPUT_ASSERTED (R181). -/
def execResetInputAsserted (s : State) : Result := .next (assertReset (whenRunning finishSlot s))

/-- WARM_RESET_END (R181). -/
def execWarmResetEnd (baudFitted : Bool) (s : State) : Result := .next (endWarm baudFitted s)

/-- GOOD_FRAME (R183, R184). -/
def execGoodFrame (kind : Byte) (payload : List Byte) (s : State) : Result :=
  .next (whenRunning (takeGoodFrame kind payload) s)

/-- BAD_FRAME (R183, R184): a length byte above 250 or a wrong check. -/
def execBadFrame (s : State) : Result := .next (whenRunning takeBadFrame s)

/-- FRAME_GAP (R183, R184): a gap of more than 20 ms makes a bad frame. -/
def execFrameGap (s : State) : Result := .next (whenRunning takeBadFrame s)

/-- REPLY_SENT (R184, R181). -/
def execReplySent (s : State) : Result := .next (whenRunning (fun s => replySent (whenDue (·.hli.resets) finishSlot s)) s)

/-- POWER_FAILURE (R180). -/
def execPowerFailure (s : State) : Result := .next (losePower (whenRunning finishSlot s))

end Sys2Proof.Machine
end

