-- ==== Sys2Proof/Machine/ExecRequests.lean ====
section
/-! DEFINITION. The meanings of the host requests, with their kinds by the catalogue of section 11.3, and of the end of a commit
write. -/
namespace Sys2Proof.Machine

/-- GET STATUS (R173, R97, R163, R186). -/
def execGetStatus (page : Option Byte) (s : State) : Result :=
  .next (serve 0x01#8 (.getStatus page) (readOnly fun s => .paged page s.statusItems) s)

/-- GET MACHINE (R29). -/
def execGetMachine (machine : Byte) (s : State) : Result :=
  .next (serve 0x02#8 (.getMachine machine) (getMachine machine) s)

/-- GET NODES (R50, R186). -/
def execGetNodes (page : Option Byte) (s : State) : Result :=
  .next (serve 0x03#8 (.getNodes page) (readOnly fun s => .paged page s.mbc.items) s)

/-- GET QUEUE (R74, R186). -/
def execGetQueue (page : Option Byte) (s : State) : Result :=
  .next (serve 0x04#8 (.getQueue page) (readOnly fun s => .paged page s.queueItems) s)

/-- GET FAULT (R147). -/
def execGetFault (machine : Byte) (s : State) : Result :=
  .next (serve 0x05#8 (.getFault machine) (getFault machine) s)

/-- GET CREDITS (R128, R186). -/
def execGetCredits (page : Option Byte) (s : State) : Result :=
  .next (serve 0x06#8 (.getCredits page) (readOnly fun s => .paged page s.creditItems) s)

/-- GET PENDING (R128, R186). -/
def execGetPending (page : Option Byte) (s : State) : Result :=
  .next (serve 0x07#8 (.getPending page)
    (readOnly fun s => .paged page (s.cru.pendings.map fun p => s.pendingItem p)) s)

/-- READ EVENTS (R171). -/
def execReadEvents (clear : Byte) (s : State) : Result :=
  .next (serve 0x08#8 (.readEvents clear) (readEvents clear) s)

/-- SET EVENT MASK (R170). -/
def execSetEventMask (masks : BitVec 24) (enables : Byte) (s : State) : Result :=
  .next (serve 0x09#8 (.setEventMask masks enables) (setEventMask masks enables) s)

/-- JOURNAL READ (R160). -/
def execJournalRead (count : Byte) (s : State) : Result :=
  .next (serve 0x0A#8 (.journalRead count) (journalRead count) s)

/-- JOURNAL RELEASE (R161). -/
def execJournalRelease (sequence : Word16) (s : State) : Result :=
  .next (serve 0x0B#8 (.journalRelease sequence) (journalRelease sequence) s)

/-- SET ROOM MODE (R165). -/
def execSetRoomMode (mode : Byte) (s : State) : Result :=
  .next (serve 0x0C#8 (.setRoomMode mode) (setRoomMode mode) s)

/-- SET CLOCK (R178). -/
def execSetClock (day minute : Word16) (s : State) : Result :=
  .next (serve 0x0D#8 (.setClock day minute) (setClock day minute) s)

/-- SET PROGRAM (R175). -/
def execSetProgram (id : Byte) (form : ProgramForm) (s : State) : Result :=
  .next (serve 0x0E#8 (.setProgram id form) (setProgram id form) s)

/-- SET TARIFF (R176). -/
def execSetTariff (index : Byte) (form : TariffForm) (s : State) : Result :=
  .next (serve 0x0F#8 (.setTariff index form) (setTariff index form) s)

/-- SET BUDGET (R52, R174). -/
def execSetBudget (budget : Word16) (percent : Byte) (s : State) : Result :=
  .next (serve 0x10#8 (.setBudget budget percent) (setBudget budget percent) s)

/-- SET LIMITS (R56, R174). -/
def execSetLimits (limits : LimitArgs) (s : State) : Result :=
  .next (serve 0x11#8 (.setLimits limits) (setLimits limits) s)

/-- COMMIT SETTINGS (R177). -/
def execCommitSettings (s : State) : Result := .next (serve 0x12#8 .commitSettings commitSettings s)

/-- The end of the settings write (R177). -/
def execCommitWriteEnd (s : State) : Result := .next (whenRunning commitWriteEnd s)

/-- LOCK PRICES (R179). -/
def execLockPrices (s : State) : Result := .next (serve 0x13#8 .lockPrices lockPrices s)

/-- SET SCREEN MODE (R115). -/
def execSetScreenMode (mode : Byte) (s : State) : Result :=
  .next (serve 0x14#8 (.setScreenMode mode) (setScreenMode mode) s)

/-- SCREEN ADD (R116). -/
def execScreenAdd (serial : Serial32) (s : State) : Result :=
  .next (serve 0x15#8 (.screenAdd serial) (screenAdd serial) s)

/-- SCREEN REMOVE (R116). -/
def execScreenRemove (serial : Serial32) (s : State) : Result :=
  .next (serve 0x16#8 (.screenRemove serial) (screenRemove serial) s)

/-- SET HASH BIT (R117). -/
def execSetHashBit (index : Word16) (value : Byte) (s : State) : Result :=
  .next (serve 0x17#8 (.setHashBit index value) (setHashBit index value) s)

/-- CLEAR HASH (R117). -/
def execClearHash (s : State) : Result := .next (serve 0x18#8 .clearHash clearHash s)

/-- SERVICE OUT (R142, R143, R25). -/
def execServiceOut (machine confirmedOff : Byte) (s : State) : Result :=
  .next (serve 0x19#8 (.serviceOut machine confirmedOff) (serviceOut machine confirmedOff) s)

/-- SERVICE RETURN (R144). -/
def execServiceReturn (machine : Byte) (s : State) : Result :=
  .next (serve 0x1A#8 (.serviceReturn machine) (serviceReturn machine) s)

/-- ABORT CYCLE (R145). -/
def execAbortCycle (machine refund : Byte) (s : State) : Result :=
  .next (serve 0x1B#8 (.abortCycle machine refund) (abortCycle machine refund) s)

/-- REDISCOVER (R47). -/
def execRediscover (s : State) : Result := .next (serve 0x1C#8 .rediscover rediscover s)

/-- REFUND GRANT (R127). -/
def execRefundGrant (serial : Serial32) (amount : Word16) (s : State) : Result :=
  .next (serve 0x1D#8 (.refundGrant serial amount) (refundGrant serial amount) s)

/-- RESET (R181): answered OK; the warm reset follows when the reply has been sent. -/
def execReset (s : State) : Result := .next (serveWith true 0x1E#8 .reset (readOnly fun _ => .ok []) s)

end Sys2Proof.Machine
end

