-- ==== Sys2Proof/Machine/ExecStations.lean ====
section
/-! DEFINITION. The meanings of what the pay stations send and of the result timer. -/
namespace Sys2Proof.Machine

/-- PURCHASE (R75, R78 to R85): one whose coded fields hold an unlisted code is discarded (log entry 38). -/
def execPurchase (station : Station) (msg : PurchaseMsg) (s : State) : Result :=
  .next (whenRunning (fun s => if msg.codesListed then takePurchase station msg s else discardMessage station s) s)

/-- RESULT (R75, R86 to R92): one whose outcome is unlisted or whose length does not suit it is discarded (log entry 38). -/
def execResult (station : Station) (msg : ResultMsg) (s : State) : Result :=
  .next (whenRunning (fun s => if msg.codesListed then takeResult station msg s else discardMessage station s) s)

/-- CANCEL (R93): nothing changes and nothing is sent, whatever the exchange's state. -/
def execCancel (_station : Station) (s : State) : Result := .next s

/-- A station message that is discarded (R75). -/
def execStationMessageDiscarded (station : Station) (s : State) : Result :=
  .next (whenRunning (discardMessage station) s)

/-- The expiry of a result timer (R91). -/
def execResultTimerExpiry (station : Station) (s : State) : Result :=
  .next (whenRunning (whenDue (·.resultDue station) (resultExpiry station)) s)

end Sys2Proof.Machine
end

