-- ==== Sys2Proof/Machine/ExecTimers.lean ====
section
/-! DEFINITION. The meanings of the timers, the DEMAND line, the day and the second. -/
namespace Sys2Proof.Machine

/-- START_WINDOW_EXPIRY (R10). -/
def execStartWindowExpiry (machine : Addr) (s : State) : Result :=
  .next (whenRunning (whenDue (·.sessionDue machine .armed (·.startWindow == 0)) (disarmRefund machine)) s)

/-- START_WAIT_EXPIRY (R12). -/
def execStartWaitExpiry (machine : Addr) (s : State) : Result :=
  .next (whenRunning (whenDue (·.sessionDue machine .starting (·.startWait == 0)) (disarmRefund machine)) s)

/-- CYCLE_OVERRUN (R14). -/
def execCycleOverrun (machine : Addr) (s : State) : Result :=
  .next (whenRunning (whenDue (·.sessionDue machine .running Session.guardDue)
    (takeFault machine .cycleOverrun false)) s)

/-- BLOCK_TIMER_EXPIRY (R15, R106). -/
def execBlockTimerExpiry (machine : Addr) (s : State) : Result :=
  .next (whenRunning (whenDue (·.sessionDue machine .running Session.blockDue) (blockExpiry machine)) s)

/-- UNLOAD_TIMER_EXPIRY (R19). -/
def execUnloadTimerExpiry (machine : Addr) (s : State) : Result :=
  .next (whenRunning (whenDue (fun s => (s.record machine).state == .done && (s.record machine).unloadTimer == 0)
    (enterState machine .idle)) s)

/-- NODE_SILENT (R24). -/
def execNodeSilent (machine : Addr) (s : State) : Result :=
  .next (whenRunning (whenDue (·.silentTimerDue machine) (takeFault machine .nodeSilent false)) s)

/-- RECOVERY_WINDOW_END (R28, R35). -/
def execRecoveryWindowEnd (s : State) : Result :=
  .next (whenRunning (whenDue (fun s => s.msv.recoveryWindow == some 0) endWindow) s)

/-- DEMAND_LINE_CHANGE (R51). -/
def execDemandLineChange (reading : Demand) (s : State) : Result := .next (demandLine reading s)

/-- DEBOUNCE_TIMER_EXPIRY (R51, R52). -/
def execDebounceTimerExpiry (s : State) : Result := .next (whenRunning (whenDue (·.debounceDue) takeLine) s)

/-- HELD_TOO_LONG (R64). -/
def execHeldTooLong (machine : Addr) (s : State) : Result :=
  .next (whenRunning (whenDue (·.raiseDue machine) (takeFault machine .heldTooLong false)) s)

/-- DRAW_EXCESS (R72). -/
def execDrawExcess (machine : Addr) (s : State) : Result :=
  .next (whenRunning (excessIfDue machine false) s)

/-- DRAW_EXCESS, persisting (R72). -/
def execDrawExcessPersisting (machine : Addr) (s : State) : Result :=
  .next (whenRunning (excessIfDue machine true) s)

/-- DAY_ROLLOVER (R178, R123). -/
def execDayRollover (s : State) : Result := .next (whenRunning rollDay s)

/-- CLOCK_SECOND (R178 and the timers of chapters 01, 03 and 04). -/
def execClockSecond (s : State) : Result := .next (whenRunning secondElapses s)

end Sys2Proof.Machine
end

