-- ==== Sys2Proof/Machine/Dispatch.lean ====
section
/-! DEFINITION. The meaning of every command: one arm for each row of spec/opcode_table.json. -/
namespace Sys2Proof.Machine

/-- A command does what its row of the table names. -/
def exec (i : Instr) (s : State) : Host.Outcome State Fault Refusal :=
  match i with
  | .coldReset retainedOk serviceFitted imageOk baudFitted => Sys2Proof.Machine.execColdReset retainedOk serviceFitted imageOk baudFitted s
  | .resetInputAsserted => Sys2Proof.Machine.execResetInputAsserted s
  | .warmResetEnd baudFitted => Sys2Proof.Machine.execWarmResetEnd baudFitted s
  | .goodFrame kind payload => Sys2Proof.Machine.execGoodFrame kind payload s
  | .badFrame => Sys2Proof.Machine.execBadFrame s
  | .frameGap => Sys2Proof.Machine.execFrameGap s
  | .replySent => Sys2Proof.Machine.execReplySent s
  | .getStatus page => Sys2Proof.Machine.execGetStatus page s
  | .getMachine machine => Sys2Proof.Machine.execGetMachine machine s
  | .getNodes page => Sys2Proof.Machine.execGetNodes page s
  | .getQueue page => Sys2Proof.Machine.execGetQueue page s
  | .getFault machine => Sys2Proof.Machine.execGetFault machine s
  | .getCredits page => Sys2Proof.Machine.execGetCredits page s
  | .getPending page => Sys2Proof.Machine.execGetPending page s
  | .readEvents clear => Sys2Proof.Machine.execReadEvents clear s
  | .setEventMask masks enables => Sys2Proof.Machine.execSetEventMask masks enables s
  | .journalRead count => Sys2Proof.Machine.execJournalRead count s
  | .journalRelease sequence => Sys2Proof.Machine.execJournalRelease sequence s
  | .setRoomMode mode => Sys2Proof.Machine.execSetRoomMode mode s
  | .setClock day minute => Sys2Proof.Machine.execSetClock day minute s
  | .setProgram id form => Sys2Proof.Machine.execSetProgram id form s
  | .setTariff index form => Sys2Proof.Machine.execSetTariff index form s
  | .setBudget budget percent => Sys2Proof.Machine.execSetBudget budget percent s
  | .setLimits limits => Sys2Proof.Machine.execSetLimits limits s
  | .commitSettings => Sys2Proof.Machine.execCommitSettings s
  | .commitWriteEnd => Sys2Proof.Machine.execCommitWriteEnd s
  | .lockPrices => Sys2Proof.Machine.execLockPrices s
  | .setScreenMode mode => Sys2Proof.Machine.execSetScreenMode mode s
  | .screenAdd serial => Sys2Proof.Machine.execScreenAdd serial s
  | .screenRemove serial => Sys2Proof.Machine.execScreenRemove serial s
  | .setHashBit index value => Sys2Proof.Machine.execSetHashBit index value s
  | .clearHash => Sys2Proof.Machine.execClearHash s
  | .serviceOut machine confirmedOff => Sys2Proof.Machine.execServiceOut machine confirmedOff s
  | .serviceReturn machine => Sys2Proof.Machine.execServiceReturn machine s
  | .abortCycle machine refund => Sys2Proof.Machine.execAbortCycle machine refund s
  | .rediscover => Sys2Proof.Machine.execRediscover s
  | .refundGrant serial amount => Sys2Proof.Machine.execRefundGrant serial amount s
  | .reset => Sys2Proof.Machine.execReset s
  | .purchase station msg => Sys2Proof.Machine.execPurchase station msg s
  | .result station msg => Sys2Proof.Machine.execResult station msg s
  | .cancel station => Sys2Proof.Machine.execCancel station s
  | .stationMessageDiscarded station => Sys2Proof.Machine.execStationMessageDiscarded station s
  | .resultTimerExpiry station => Sys2Proof.Machine.execResultTimerExpiry station s
  | .beacon => Sys2Proof.Machine.execBeacon s
  | .validReport slot report => Sys2Proof.Machine.execValidReport slot report s
  | .malformedReport slot => Sys2Proof.Machine.execMalformedReport slot s
  | .checkError slot => Sys2Proof.Machine.execCheckError slot s
  | .emptySlot slot => Sys2Proof.Machine.execEmptySlot slot s
  | .periodClose => Sys2Proof.Machine.execPeriodClose s
  | .silenceNotice machine => Sys2Proof.Machine.execSilenceNotice machine s
  | .nodeStale machine => Sys2Proof.Machine.execNodeStale machine s
  | .addressClash machine => Sys2Proof.Machine.execAddressClash machine s
  | .cmdLost machine cls => Sys2Proof.Machine.execCmdLost machine cls s
  | .answerWindowClose => Sys2Proof.Machine.execAnswerWindowClose s
  | .firstSlotScanComplete => Sys2Proof.Machine.execFirstSlotScanComplete s
  | .startWindowExpiry machine => Sys2Proof.Machine.execStartWindowExpiry machine s
  | .startWaitExpiry machine => Sys2Proof.Machine.execStartWaitExpiry machine s
  | .cycleOverrun machine => Sys2Proof.Machine.execCycleOverrun machine s
  | .blockTimerExpiry machine => Sys2Proof.Machine.execBlockTimerExpiry machine s
  | .unloadTimerExpiry machine => Sys2Proof.Machine.execUnloadTimerExpiry machine s
  | .nodeSilent machine => Sys2Proof.Machine.execNodeSilent machine s
  | .recoveryWindowEnd => Sys2Proof.Machine.execRecoveryWindowEnd s
  | .demandLineChange reading => Sys2Proof.Machine.execDemandLineChange reading s
  | .debounceTimerExpiry => Sys2Proof.Machine.execDebounceTimerExpiry s
  | .heldTooLong machine => Sys2Proof.Machine.execHeldTooLong machine s
  | .drawExcess machine => Sys2Proof.Machine.execDrawExcess machine s
  | .drawExcessPersisting machine => Sys2Proof.Machine.execDrawExcessPersisting machine s
  | .dayRollover => Sys2Proof.Machine.execDayRollover s
  | .powerFailure => Sys2Proof.Machine.execPowerFailure s
  | .clockSecond => Sys2Proof.Machine.execClockSecond s

end Sys2Proof.Machine
end

