-- ==== Sys2Proof/Safety.lean ====
section
/-! DEFINITION. What the spec says of the NL24 at all times, as predicates of a state, and what a command leaves alone: the terms
in which statements about runs are made. -/
namespace Sys2Proof.Machine

/-! ## What holds at all times -/

/-- R169: ATTN is active exactly while some set flag is unmasked and its class is enabled. -/
def State.AttnRight (s : State) : Prop :=
  s.evu.attn = true ↔
    ∃ f : EventFlag, s.evu.isSet f = true ∧ s.evu.masks.getLsbD f.index = true ∧
      (if f.index < 5 then s.evu.routine else s.evu.exceptional) = true

/-- R154: host-owned records plus reserved slots never exceed 128. -/
def State.JournalFits (s : State) : Prop := s.jrn.records.length + s.jrn.reservations ≤ 128

/-- R2: for every session, value consumed plus value remaining equals total charged. -/
def State.MoneyWhole (s : State) : Prop :=
  ∀ m z, (s.record m).session = some z → z.consumed + z.value = z.total

/-- R118: the refund credit table holds at most 32 entries with distinct serials. -/
def State.RefundsFit (s : State) : Prop :=
  s.cru.refunds.length ≤ 32 ∧ (s.cru.refunds.map (·.serial)).Nodup

/-- R39: the queue holds at most one control and one level command for any node. -/
def State.QueuePlaces (s : State) : Prop :=
  ∀ m c, (s.mbc.queue.filter fun e => e.fills m c).length ≤ 1

/-- R56: the number of washers holding a fill slot never exceeds the fill-slot limit. -/
def State.FillWithinLimit (s : State) : Prop := s.fba.fillCount ≤ s.sst.working.limits.fillSlots

/-- R94: a card serial is in at most one ORDERED exchange. -/
def State.CardsApart (s : State) : Prop :=
  ∀ x y, s.pay.a.order = some x → s.pay.b.order = some y → x.serial ≠ y.serial

/-- R152, R154: the slots that stand reserved for what may still have to be written: three for each ORDERED exchange, two for each
session, one for each refund entry and one for each pending debit. -/
def State.slotsOwed (s : State) : Nat :=
  3 * (s.pay.a.order.toList ++ s.pay.b.order.toList).length
    + 2 * (allMachines.filter fun m => (s.record m).session.isSome).length
    + s.cru.refunds.length + s.cru.pendings.length

/-- R94, R124, R125, R152: the cards at the two stations differ; the pending debit table holds at most 8 entries with distinct
serials, one for the card of an ORDERED exchange exactly where that exchange has resolved it; and every slot that may still be
needed stands reserved. -/
def State.BooksBacked (s : State) : Prop :=
  s.CardsApart ∧ s.cru.pendings.length ≤ 8 ∧ (s.cru.pendings.map (·.serial)).Nodup ∧
  (∀ st o, (s.exchange st).order = some o → (o.resolution ≠ none ↔ ∃ p ∈ s.cru.pendings, p.serial = o.serial)) ∧
  s.slotsOwed ≤ s.jrn.reservations

/-- R67: while the part runs, committed draw is within B_eff, or OVER_BUDGET is declared. -/
def State.BudgetDeclared (s : State) : Prop :=
  s.phase = .running → s.fba.committed ≤ s.fba.beff ∨ s.fba.overBudget = true

/-- R113: the perfect list holds at most 16 distinct serials. -/
def Settings.ListFits (g : Settings) : Prop := g.screen.list.length ≤ 16 ∧ g.screen.list.Nodup

/-- R174: the limits lie in their ranges. -/
def Limits.InRange (l : Limits) : Prop :=
  (1 ≤ l.fillSlots ∧ l.fillSlots ≤ 8) ∧ (1 ≤ l.startWindow ∧ l.startWindow ≤ 30) ∧ (1 ≤ l.startWait ∧ l.startWait ≤ 60) ∧
    (1 ≤ l.raiseWait ∧ l.raiseWait ≤ 60) ∧ l.guardMargin ≤ 60 ∧ l.grace ≤ 10 ∧ (1 ≤ l.lockout ∧ l.lockout ≤ 9) ∧
    (5 ≤ l.dryerMin ∧ l.dryerMin ≤ 30) ∧ (30 ≤ l.dryerMax ∧ l.dryerMax ≤ 120) ∧ (1 ≤ l.expiry ∧ l.expiry ≤ 90) ∧
    l.issuer ≤ 65535

/-- R175: the numeric fields of a program lie in their ranges, and its name has at most 12 characters. -/
def Program.InRange (p : Program) : Prop :=
  p.name.length ≤ 12 ∧
  match p.body with
  | .washer base warm hot planned drawBase drawHeat =>
    base ≤ 5000 ∧ warm ≤ 2000 ∧ hot ≤ 2000 ∧ (10 ≤ planned ∧ planned ≤ 180) ∧ drawBase ≤ 400 ∧ drawHeat ≤ 400
  | .dryer rate air low high => rate ≤ 2000 ∧ air ≤ 400 ∧ low ≤ 400 ∧ high ≤ 400

/-- R176: the bands lie in their ranges, and no two present bands share a start. -/
def Settings.BandsApart (g : Settings) : Prop :=
  (∀ (i : Fin 6) (b : Band), g.bands[i] = some b → b.start ≤ 1439 ∧ 50 ≤ b.percent ∧ b.percent ≤ 250) ∧
  ∀ (i j : Fin 6) (b c : Band), g.bands[i] = some b → g.bands[j] = some c → b.start = c.start → i = j

/-- R113, R174 to R176: the working settings lie in their ranges. -/
def Settings.Legal (g : Settings) : Prop :=
  (100 ≤ g.budget ∧ g.budget ≤ 8000) ∧ (30 ≤ g.shed ∧ g.shed ≤ 100) ∧ g.limits.InRange ∧ g.ListFits ∧ g.BandsApart ∧
    ∀ (i : Fin 16) (p : Program), g.programs[i] = some p → p.InRange

/-- R113, R174 to R176, of the working settings, the stored image and a copy being written. -/
def State.SettingsLegal (s : State) : Prop :=
  s.sst.working.Legal ∧ s.sst.image.Legal ∧ ∀ g, s.sst.commit = some g → g.Legal

/-! ## What a command leaves alone -/

/-- The parts of the state: the ten blocks, and beside them the phase, the RESET input, the outputs and the queue of commands. -/
inductive Part where
  | phase | resetHeld | msv | mbc | fba | pay | cru | flm | jrn | evu | sst | hli | out | pending
  deriving DecidableEq, Repr

/-- A part is the same in two states. -/
def Part.same (p : Part) (s t : State) : Prop :=
  match p with
  | .phase => t.phase = s.phase
  | .resetHeld => t.resetHeld = s.resetHeld
  | .msv => t.msv = s.msv
  | .mbc => t.mbc = s.mbc
  | .fba => t.fba = s.fba
  | .pay => t.pay = s.pay
  | .cru => t.cru = s.cru
  | .flm => t.flm = s.flm
  | .jrn => t.jrn = s.jrn
  | .evu => t.evu = s.evu
  | .sst => t.sst = s.sst
  | .hli => t.hli = s.hli
  | .out => t.out = s.out
  | .pending => t.pending = s.pending

/-- Only the parts named differ between two states. -/
def ChangesOnly (parts : List Part) (s t : State) : Prop := ∀ p : Part, p ∉ parts → p.same s t

/-! ## What a request meets -/

/-- The part runs, and its buffer is empty or holds this request (R184, R185): the request is served. -/
def State.Serves (s : State) (i : Instr) : Prop :=
  s.phase = .running ∧ (s.hli.buffer = none ∨ s.hli.buffer = some (.request i))

/-- HLI holds a reply in its buffer and is as it was but for that (R184). -/
def Holds (s t : State) (r : Reply) : Prop := t.hli = { s.hli with buffer := some (.reply r false) }

/-- The reply has a kind, a status and data. -/
def Replies (s t : State) (kind : Byte) (status : Status) (data : List Byte) : Prop :=
  Holds s t { kind := kind, status := status, reason := none, page := none, data := data }

/-- The reply is REFUSED with a reason. -/
def Refuses (s t : State) (kind : Byte) (reason : RefusedReason) (data : List Byte) : Prop :=
  Holds s t { kind := kind, status := .refused, reason := some reason, page := none, data := data }

/-- The request is answered and changes nothing. -/
def OnlyReplies (s t : State) (kind : Byte) (status : Status) (data : List Byte) : Prop :=
  Replies s t kind status data ∧ ChangesOnly [.hli] s t

/-- A paged request, with its items and the kind of its reply (R186, R185). -/
def Paged (s : State) (i : Instr) (items : List (List Byte)) (kind : Byte) (page : Option Byte) : Prop :=
  (i = .getStatus page ∧ items = s.statusItems ∧ kind = 0x81#8) ∨
  (i = .getNodes page ∧ items = s.mbc.items ∧ kind = 0x83#8) ∨
  (i = .getQueue page ∧ items = s.queueItems ∧ kind = 0x84#8) ∨
  (i = .getCredits page ∧ items = s.creditItems ∧ kind = 0x86#8) ∨
  (i = .getPending page ∧ items = s.cru.pendings.map s.pendingItem ∧ kind = 0x87#8)

/-- R174: a settings request, with the kind of its reply (R185). -/
def SettingsRequest (i : Instr) (kind : Byte) : Prop :=
  match i with
  | .setProgram _ _ => kind = 0x8E#8
  | .setTariff _ _ => kind = 0x8F#8
  | .setBudget _ _ => kind = 0x90#8
  | .setLimits _ => kind = 0x91#8
  | .commitSettings => kind = 0x92#8
  | .lockPrices => kind = 0x93#8
  | .setScreenMode _ => kind = 0x94#8
  | .screenAdd _ => kind = 0x95#8
  | .screenRemove _ => kind = 0x96#8
  | .setHashBit _ _ => kind = 0x97#8
  | .clearHash => kind = 0x98#8
  | _ => False

/-- R174: the working screen is as given, the unsaved-edits mark is set, and beside HLI's reply nothing else has changed. -/
def ScreenIs (s t : State) (sc : Screen) : Prop :=
  t.sst = { s.sst with working := { s.sst.working with screen := sc }, unsaved := true } ∧ ChangesOnly [.sst, .hli] s t

/-! ## What the bus and the records hold -/

/-- A control command is waiting for a node (R39). -/
def Commanded (t : State) (m : Addr) (c : BusCommand) : Prop := (t.mbc.waiting m .control).map (·.command) = some c

/-- A level command is waiting for a node (R39). -/
def Levelled (t : State) (m : Addr) (l : Level) (fill : Bool) : Prop :=
  (t.mbc.waiting m .level).map (·.command) = some (.grant l fill)

/-- R27, R142, R145: the record stands in a state, or is RECOVERING with that state retained. -/
def MachineRecord.standsIn (r : MachineRecord) (x : MState) : Prop :=
  r.state = x ∨ (r.state = .recovering ∧ r.retained.map Retained.state = some x)

/-! ## What the journal and the credit tables take -/

/-- R151, R152: the journal after records have been written one after the other, with so many reservations fewer. -/
def Jrn.wrote (j : Jrn) (stamp : Option Stamp) (bodies : List RecordBody) (used : Nat) : Jrn :=
  { bodies.foldl (fun j b => j.append stamp b) j with reservations := j.reservations - used }

/-- R153: the journal after a non-money record has been asked for: it is written into a free slot, or dropped and counted. -/
def TookFree (s t : State) (body : RecordBody) : Prop :=
  (0 < s.jrn.free → t.jrn = s.jrn.append s.stamp body) ∧
  (s.jrn.free = 0 → t.jrn = { s.jrn with overflow := min 65535 (s.jrn.overflow + 1) })

/-- R123: a refund entry expires at the check of a day. -/
def RefundEntry.expires (e : RefundEntry) (today limit : Nat) : Bool :=
  !e.pledged && e.hold.isNone && decide (limit ≤ today - (e.dated today).created.getD today)

/-- R123: the record of an entry that expires. -/
def RefundEntry.expiredBody (e : RefundEntry) : RecordBody :=
  { kind := .refundExpired, machine := e.origin, serial := some e.serial, amount := some e.amount, detail := .aged }

/-- R123: the expiry check of a day has been made: the entries that expire are gone, each with its record against its own
reservation, in the order of the table; the others have their created day as the check leaves it. -/
def ExpiryMade (s t : State) (today : Nat) : Prop :=
  let limit := s.sst.working.limits.expiry
  let gone := s.cru.refunds.filter fun e => e.expires today limit
  t.cru = { s.cru with
    refunds := (s.cru.refunds.filter fun e => !e.expires today limit).map fun e => e.dated today } ∧
  t.jrn.records.map (·.body) = s.jrn.records.map (·.body) ++ gone.map RefundEntry.expiredBody ∧
  t.jrn.reservations = s.jrn.reservations - gone.length

/-- R10, R20, R157: the state with the refund of an ended session credited with the session's two reservations, or both returned
where the refund is 0. -/
def State.refunded (s : State) (m : Addr) (payer r : Nat) : State :=
  if 0 < r then creditSerial .refund payer r (addrNumber m) s else returnSlots 2 s

/-- R10, R20: a machine's session has gone, its refund is credited on the books of `s`, and no admission-queue entry of it
stands. -/
def SessionGone (s t : State) (m : Addr) (payer r : Nat) : Prop :=
  (t.record m).session = none ∧ (t.record m).silenceTimer = 0 ∧ t.cru = (s.refunded m payer r).cru ∧
  t.fba.hasStart m = false ∧ t.fba.hasRaise m = false

/-- R10, R22, R165: the state with the sessions of some machines refunded in full on the books, one after the other. -/
def State.refundedInFull (s : State) (machines : List Addr) : State :=
  machines.foldl (fun u m => match (s.record m).session with
    | some z => u.refunded m z.payer z.total
    | none => u) s

/-- R119: the record of a credit with the amount after it and what the cap took. -/
def creditBody (k : CreditKind) (serial amount origin after lost : Nat) : RecordBody :=
  { kind := if k = .grant then .refundGranted else .refundCredited, machine := origin, serial := some serial
    amount := some amount, balanceAfter := some after
    detail := if k = .topupRefused then .topupRefused lost else if lost = 0 then .none else .lostToCap lost }

/-! ## Orders and the card tables (R82, R87, R90, R122, R125) -/

/-- R82: the remainder R that an order's resolution gives back. -/
def Order.back (o : Order) : Nat :=
  match o.resolution with
  | some (.took r) => r
  | _ => 0

/-- R122: the refund entries once what left the serial's entry is taken and what comes back is added; an entry brought to 0 is
gone. -/
def settledRefunds (serial taken back : Nat) (l : List RefundEntry) : List RefundEntry :=
  l.filterMap fun e =>
    if e.serial = serial then
      if e.amount - taken + back = 0 then none else some { e with amount := e.amount - taken + back }
    else some e

/-- R122: how many refund entries that settlement brings to 0; each returns its reservation. -/
def emptiedRefunds (serial taken back : Nat) (l : List RefundEntry) : Nat :=
  (l.filter fun e => e.serial == serial && e.amount - taken + back == 0).length

/-- R119: the record of a reversal remainder; it names the origin machine of the entry (log entry 53). -/
def remainderBodies (serial taken back : Nat) (l : List RefundEntry) : List RecordBody :=
  if back = 0 then []
  else (l.filter (·.serial == serial)).map fun e =>
    { kind := .refundCredited, machine := e.origin, serial := some serial, amount := some back
      balanceAfter := some (e.amount - taken + back), detail := .reversalRemainder }

/-- R87 to R89, R122: a state with the books as a DONE outcome leaves them: the record of the sale, the credit folded taken, and the
card's pending debit, where the purchase resolved it, settled and gone; `more` of the exchange's other reservations are
returned. -/
def State.settled (s : State) (o : Order) (k : RecordKind) (more : Nat) : State :=
  let taken := o.folded.getD 0 + tookFolded o.resolution (s.cru.pendingOf o.serial)
  { s with
    cru :=
      { refunds := (settledRefunds o.serial taken o.back s.cru.refunds).map fun e =>
          if e.serial = o.serial then { e with hold := none, pledged := e.pledged && o.resolution.isNone } else e
        pendings := s.cru.pendings.filter fun p => !(p.serial == o.serial && o.resolution.isSome) }
    jrn := s.jrn.wrote s.stamp (o.body k .none :: remainderBodies o.serial taken o.back s.cru.refunds)
      (1 + emptiedRefunds o.serial taken o.back s.cru.refunds + (if o.resolution.isSome then 1 else 0) + more) }

/-- R125: the pending debit that is evicted for a new one: in a full table the oldest that the other station's exchange has not
resolved. -/
def State.evictedFor (s : State) (o : Order) (other : Option Order) : Option PendingEntry :=
  if o.resolution = none ∧ 8 ≤ s.cru.pendings.length then
    s.cru.pendings.find? fun p => !other.any fun x => x.serial == p.serial && x.resolution.isSome
  else none

/-- R125: the record of an evicted pending debit. -/
def PendingEntry.evictedBody (p : PendingEntry) : RecordBody :=
  { kind := .debitUnresolved, machine := addrNumber p.machine, serial := some p.serial, amount := some p.amount
    folded := if p.folded = 0 then none else some p.folded, reversal := if p.reversal = 0 then none else some p.reversal
    detail := .evicted }

/-- R90, R122, R125: a state with the books as an uncertain outcome leaves them: its record, the pending debit that describes the
order at the newest end, new or in place of the one that the purchase resolved, and the hold turned into its pledge. -/
def State.uncertain (s : State) (o : Order) (cause : Detail) (other : Option Order) : State :=
  let taken := tookFolded o.resolution (s.cru.pendingOf o.serial)
  let refunds := if o.resolution = none then s.cru.refunds else settledRefunds o.serial taken o.back s.cru.refunds
  let evicted := s.evictedFor o other
  { s with
    cru :=
      { refunds := refunds.map fun e =>
          if e.serial = o.serial then { e with hold := none, pledged := decide (0 < o.folded.getD 0) }
          else if evicted.any (·.serial == e.serial) then { e with pledged := false } else e
        pendings :=
          (s.cru.pendings.filter fun p =>
            !(p.serial == o.serial && o.resolution.isSome) && !evicted.any (·.serial == p.serial)) ++
          [{ serial := o.serial, counterRead := o.counterRead, balanceRead := o.balanceRead, targetBalance := o.newBalance
             targetCounter := o.newCounter, amount := o.charge, reversal := o.reversal.getD 0, folded := o.folded.getD 0
             machine := o.machine, day := s.today }] }
    jrn := s.jrn.wrote s.stamp
      (o.body .debitUncertain cause :: ((evicted.map PendingEntry.evictedBody).toList
        ++ remainderBodies o.serial taken o.back s.cru.refunds))
      (if o.resolution = none then 2 + evicted.toList.length
       else 3 + emptiedRefunds o.serial taken o.back s.cru.refunds) }

/-- What the settlement of an order rests on: the books are backed, the refund table holds each serial once, and a remainder has the
entry that it goes back to (R82: R is above 0 only where credit was folded, and that credit's entry is pledged). -/
def State.BooksReady (s : State) : Prop :=
  s.BooksBacked ∧ s.RefundsFit ∧
  ∀ st o, (s.exchange st).order = some o → o.back ≠ 0 → ∃ e ∈ s.cru.refunds, e.serial = o.serial

/-! ## Faults -/

/-- R30: nothing that a slot has brought still waits for a row of its own: no report in hand, no clash and no excess owed. -/
abbrev State.SlotDone (s : State) : Prop :=
  ∀ m, (s.node m).inHand = none ∧ (s.node m).clashOwed = false ∧ (s.grant m).excessOwed = false ∧
    (s.grant m).persistOwed = false

/-- R30: the commands that find the last slot's outcome taken: the beacon, the slot events, the close of the period, and those that
end the run. -/
def State.findsSlotDone (s : State) : Instr → Prop
  | .beacon | .validReport _ _ | .malformedReport _ | .checkError _ | .emptySlot _ | .periodClose
  | .coldReset _ _ _ _ | .resetInputAsserted | .powerFailure => True
  | .replySent => ∃ r, s.hli.buffer = some (.reply r true)
  | _ => False

/-- R36, R37, R72: the rows that take what a slot has brought, for each machine in ascending number. -/
def slotRows : List Instr := allMachines.flatMap fun m => [.nodeStale m, .drawExcess m, .drawExcessPersisting m, .addressClash m]

/-- From s the commands lead to t. -/
def Leads : List Instr → State → State → Prop
  | [], s, t => t = s
  | c :: cs, s, t => ∃ u, exec c s = .next u ∧ Leads cs u t

/-- R31, R32, R36: a valid report that MBC takes to its end at once: the part runs, the last slot's outcome is taken, and the
keep-alive count is no third repeat. -/
def ReportTaken (s : State) (m : Addr) (rep : SlotReport) (r : NodeReport) : Prop :=
  s.phase = .running ∧ decodeReport m rep = some r ∧ s.SlotDone ∧
  ¬((s.node m).lastKeep = some r.keepAlive ∧ 2 ≤ (s.node m).staleRun)

/-- R3, R24: a record with what any valid report brings: the door position, and an end to a silence. -/
def MachineRecord.withReport (x : MachineRecord) (r : NodeReport) : MachineRecord :=
  { x with door := some r.door, silent := false, silenceTimer := if x.silent then 0 else x.silenceTimer }

/-- R55, R57: a report of a machine finds no START entry of it that FBA could grant while it takes the report: none stands, or the
machine is STARTING and its entry, a washer's, keeps its target, or OVER_BUDGET holds the queue. -/
def State.startStands (s : State) (m : Addr) (k : Kind) : Prop :=
  s.fba.hasStart m = false ∨
  ((s.record m).state = .starting ∧ (k = .washer ∨ (s.fba.overBudget = true ∧ s.fba.beff < s.fba.committed)))

/-- R14, R24, R36 to R38, R43, R64, R72: an event that is due and reports a fault of a machine to FLM; the last argument says
whether it is the persisting form. -/
inductive RaisesFault (s : State) : Instr → Addr → FaultKind → Bool → Prop
  | overrun (m : Addr) (z : Session) : (s.record m).state = .running → (s.record m).session = some z →
      z.figures.kind = .washer → z.guardTimer = 0 → RaisesFault s (.cycleOverrun m) m .cycleOverrun false
  | silent (m : Addr) : (s.record m).session ≠ none → (s.record m).silent = true → (s.record m).silenceTimer = 0 →
      (s.record m).state = .armed ∨ (s.record m).state = .starting ∨ (s.record m).state = .running →
      RaisesFault s (.nodeSilent m) m .nodeSilent false
  | held (m : Addr) (e : AdmEntry) : e ∈ s.fba.raises → e.machine = m → e.timer = 0 →
      RaisesFault s (.heldTooLong m) m .heldTooLong false
  | excess (m : Addr) : (s.grant m).excessOwed = true → RaisesFault s (.drawExcess m) m .drawExcess false
  | persisting (m : Addr) : (s.grant m).persistOwed = true → RaisesFault s (.drawExcessPersisting m) m .drawExcess true
  | stale (m : Addr) (r : NodeReport) : (s.node m).inHand = some r → r.fault = none ∨ (s.node m).lastFault = r.fault →
      s.fba.hasStart m = false →
      ((s.record m).state = .running → r.state = .nRun ∧ (s.record m).kind = some r.kind ∧ (s.grant m).heldSilent = false ∧
        (s.grant m).granted.any (fun g => g.kind == r.kind) = true) →
      RaisesFault s (.nodeStale m) m .nodeStale false
  | clash (m : Addr) : (s.node m).clashOwed = true → RaisesFault s (.addressClash m) m .addressClash false
  | reported (m : Addr) (rep : SlotReport) (r : NodeReport) (k : FaultKind) : ReportTaken s m rep r → r.fault = some k →
      (s.node m).lastFault ≠ some k → (s.record m).kindDiffers r.kind = false → s.startStands m r.kind →
      RaisesFault s (.validReport m rep) m k false
  | lost (m : Addr) (c : CommandClass) (e : BusEntry) : s.mbc.waiting m c = some e → 3 ≤ e.sends → e.sentNow = false →
      RaisesFault s (.cmdLost m c) m .cmdLost false

/-- The report that an event brings with the fault: a valid report, or the one in hand whose NODE_STALE is due (R32, R36). -/
def State.broughtBy (s : State) (m : Addr) : Instr → Option NodeReport
  | .validReport _ rep => decodeReport m rep
  | .nodeStale _ => (s.node m).inHand
  | _ => none

/-- R130: the severity of a fault that an event reports, but for DOOR_LOCK in ARMED and STARTING, which is RETRY. -/
def eventSeverity (k : FaultKind) (persisting : Bool) : Severity :=
  if k = .addressClash ∨ k = .noDrain ∨ k = .motor ∨ persisting = true then .lockout else .stop

/-- R138: the history counts with one more fault of a kind, saturating at 255. -/
def countedHistory (h : Vector Nat 12) (k : FaultKind) : Vector Nat 12 :=
  h.set (faultIndex k).val (min 255 (h[faultIndex k] + 1)) (faultIndex k).isLt

/-- R139, R150: the record of a fault, with payer and refund when the order ended a session; whether a CLASH record bears the
two is free (log entry 13). -/
def faultTaken (m : Addr) (k : FaultKind) (sev : Severity) (escalated secondary : Bool) (ended : Option (Nat × Nat)) :
    RecordBody :=
  let borne := if k = .addressClash ∧ Config.clashBearsSession = false then none else ended
  { kind := if k = .addressClash then .clash else .fault, machine := addrNumber m, serial := borne.map (·.1)
    amount := borne.map (·.2), faultKind := some k, detail := .severity sev escalated secondary }

/-- R133: the consecutive-STOP count, one higher, for a primary fault of STOP or LOCKOUT severity that finds a session. -/
def State.stopsCounted (s : State) (m : Addr) : Nat := min 9 ((s.faults m).stopCount + 1)

/-- R133: that count raises a severity of STOP to LOCKOUT. -/
def State.escalates (s : State) (m : Addr) (own : Severity) : Bool :=
  own == .stop && decide (s.sst.working.limits.lockout ≤ s.stopsCounted m)

/-- R132 steps 1 to 5 and 7, R133, R135, R139, R140: what a primary fault of the severity `own`, found in the state `x`, leaves in the
fault record but for the open mark, in the journal and in the events; `ended` gives the payer and the refund of a session that its
order ended. -/
def PrimaryTaken (s t : State) (m : Addr) (k : FaultKind) (own : Severity) (x : MState) (ended : Option (Nat × Nat)) : Prop :=
  let escalated := ended.isSome && s.escalates m own
  let sev := if escalated then Severity.lockout else own
  t.faults m =
    { current := some
        { kind := some k, cause := .fault, severity := sev, escalated := escalated, stamp := s.stamp, state := x
          payer := ended.map (·.1), refund := ended.map (·.2), secondary := none }
      openMark := (t.faults m).openMark
      stopCount := if ended.isSome then s.stopsCounted m else (s.faults m).stopCount
      history := countedHistory (s.faults m).history k } ∧
  TookFree (match ended with
    | some (payer, r) => s.refunded m payer r
    | none => s) t (faultTaken m k sev escalated false ended) ∧
  t.evu.isSet .fault = true ∧ t.evu.isSet .lockout = (decide (sev = .lockout) || s.evu.isSet .lockout)

/-- R3, R19, R21: the state in which a report leaves a record without a session; an ABORTING node that has stopped leads to the
destination of its stop. -/
def MState.landedBy (x dest : MState) : Option NodeReport → MState
  | none => x
  | some r =>
    match x with
    | .absent | .offline => .idle
    | .done | .faulted => if r.door = .opened then .idle else x
    | .aborting => if r.state = .nStopped ∨ r.state = .nEnd ∨ r.state = .nIdle then dest else .aborting
    | x => x

/-! ## Stations -/

/-- The last message on a station's line (log entry 30). -/
def LineShows (t : State) (st : Station) (msg : StationMsg) : Prop :=
  match st with
  | .a => t.out.lineA = some msg
  | .b => t.out.lineB = some msg

/-- R79: the PURCHASE is a top-up request, since the record of the named machine holds a session. -/
def TopupRequest (msg : PurchaseMsg) (s : State) : Prop :=
  ∃ m, addrNumber m = msg.machine.toNat ∧ (s.record m).session ≠ none

/-- R80, checks 1 and 2: start-up is complete and the room mode takes the PURCHASE. -/
structure RoomTakes (msg : PurchaseMsg) (s : State) : Prop where
  scan : s.mbc.scanComplete = true
  mode : s.sst.roomMode = .opened ∨ (s.sst.roomMode = .quiet ∧ TopupRequest msg s)

/-- R80, checks 1 to 4. -/
structure PaymentTakes (msg : PurchaseMsg) (s : State) : Prop where
  room    : RoomTakes msg s
  prices  : s.sst.priceMismatch = false
  payment : s.pay.halted = false
  journal : 3 ≤ s.jrn.free

/-- R81, the first half of check 5. -/
def CardValid (msg : PurchaseMsg) (s : State) : Prop :=
  msg.serial ≠ 0#32 ∧ msg.issuer.toNat = s.sst.working.limits.issuer ∧ msg.balance.toNat ≤ 99999

/-- R81, check 6: the card is in no exchange of the other station. -/
def CardFree (st : Station) (msg : PurchaseMsg) (s : State) : Prop :=
  ∀ o, (s.exchange (otherStation st)).order = some o → o.serial ≠ msg.serial.toNat

/-- R80, R81: checks 1 to 7. -/
structure CardTakes (st : Station) (msg : PurchaseMsg) (s : State) : Prop where
  payment : PaymentTakes msg s
  valid   : CardValid msg s
  counter : msg.counter.toNat ≠ 65535
  free    : CardFree st msg s
  screen  : s.sst.working.screen.passes msg.serial.toNat = true

/-- R82: the card image agrees with a pending debit, as one that reached the card or as one that did not. -/
def PendingEntry.agrees (p : PendingEntry) (msg : PurchaseMsg) : Prop :=
  (msg.counter.toNat = p.counterRead + 1 ∧ msg.balance.toNat = p.targetBalance) ∨
  (msg.counter.toNat = p.counterRead ∧ msg.balance.toNat = p.balanceRead)

/-- R80 to R82: checks 1 to 8, with the card's pending debit resolved where there is one. -/
def PendingTakes (st : Station) (msg : PurchaseMsg) (s : State) : Prop :=
  CardTakes st msg s ∧ ∀ p, s.cru.pendingOf msg.serial.toNat = some p → p.agrees msg

/-- R17, R83: a session of a record that a top-up by a card joins. -/
def TakesTopup (r : MachineRecord) (z : Session) (serial : Nat) : Prop :=
  r.session = some z ∧ (r.state = .armed ∨ r.state = .starting ∨ r.state = .running) ∧ z.payer = serial ∧ z.ending = false ∧
  z.purchases < 4

/-- R83, check 9: a machine that is out. -/
def MachineOut (r : MachineRecord) : Prop := r.state = .absent ∨ r.state = .offline ∨ r.state = .outOfService

/-- R83, check 9: a new purchase finds the machine IDLE, a top-up a dryer session that it joins. -/
def MachineTakes (msg : PurchaseMsg) (r : MachineRecord) : Prop :=
  (r.state = .idle ∧ r.session = none) ∨ ∃ z, TakesTopup r z msg.serial.toNat ∧ z.figures.kind = .dryer

/-- R83, check 10: a new purchase names a program of the machine's kind, with an option for a washer; a top-up the session's. -/
def ProgramTakes (msg : PurchaseMsg) (s : State) (r : MachineRecord) : Prop :=
  (r.session = none ∧ ∃ p, s.sst.working.program msg.program.toNat = some p ∧ r.kind = some p.body.figures.kind ∧
    (p.body.figures.kind = .washer → msg.option.toNat ≤ 2)) ∨
  ∃ z, r.session = some z ∧ msg.program.toNat = z.program

/-- R80 to R84: the reason of the first of checks 1 to 11 that a PURCHASE fails; the mismatch that check 3 may find stands apart. -/
inductive FirstFailing (st : Station) (msg : PurchaseMsg) (s : State) : DeclineReason → Prop
  | startUp : s.mbc.scanComplete = false → FirstFailing st msg s .startingUp
  | closed : s.mbc.scanComplete = true → s.sst.roomMode = .closed → FirstFailing st msg s .roomClosed
  | quiet : s.mbc.scanComplete = true → s.sst.roomMode = .quiet → ¬TopupRequest msg s → FirstFailing st msg s .roomQuiet
  | halted : RoomTakes msg s → s.sst.priceMismatch = false → s.pay.halted = true → FirstFailing st msg s .payHalted
  | journal : RoomTakes msg s → s.sst.priceMismatch = false → s.pay.halted = false → s.jrn.free < 3 →
      FirstFailing st msg s .journalFull
  | invalid : PaymentTakes msg s → ¬CardValid msg s → FirstFailing st msg s .cardInvalid
  | exhausted : PaymentTakes msg s → CardValid msg s → msg.counter.toNat = 65535 → FirstFailing st msg s .cardExhausted
  | busy : PaymentTakes msg s → CardValid msg s → msg.counter.toNat ≠ 65535 → ¬CardFree st msg s →
      FirstFailing st msg s .cardBusy
  | denied : PaymentTakes msg s → CardValid msg s → msg.counter.toNat ≠ 65535 → CardFree st msg s →
      s.sst.working.screen.passes msg.serial.toNat = false → FirstFailing st msg s .cardDenied
  | noMachine : PendingTakes st msg s → (msg.machine = 0#8 ∨ 24 < msg.machine.toNat) → FirstFailing st msg s .machineOut
  | out (m : Addr) : PendingTakes st msg s → addrNumber m = msg.machine.toNat → MachineOut (s.record m) →
      FirstFailing st msg s .machineOut
  | taken (m : Addr) : PendingTakes st msg s → addrNumber m = msg.machine.toNat → ¬MachineOut (s.record m) →
      ¬MachineTakes msg (s.record m) → FirstFailing st msg s .machineBusy
  | program (m : Addr) : PendingTakes st msg s → addrNumber m = msg.machine.toNat → ¬MachineOut (s.record m) →
      MachineTakes msg (s.record m) → ¬ProgramTakes msg s (s.record m) → FirstFailing st msg s .wrongProgram
  | time (m : Addr) (z : Session) : PendingTakes st msg s → addrNumber m = msg.machine.toNat →
      TakesTopup (s.record m) z msg.serial.toNat → z.figures.kind = .dryer → msg.program.toNat = z.program →
      s.sst.working.limits.dryerMax ≤ z.minutes.getD 0 → FirstFailing st msg s .timeFull

/-- What a PURCHASE buys that passes checks 9 to 11: whether it is a top-up, the program, the figures, the option, the minutes sold
and the charge. -/
structure Bought where
  topup   : Bool
  program : Nat
  figures : Figures
  option  : Option WashOption
  minutes : Option Nat
  charge  : Nat
  deriving DecidableEq, Repr

/-- R83, R84, R100 to R102: what a PURCHASE buys on a machine, at the tariff of this moment. -/
inductive Buys (msg : PurchaseMsg) (s : State) (m : Addr) : Bought → Prop
  | wash (base warm hot planned drawBase drawHeat : Nat) (name : List Byte) (o : WashOption) :
      (s.record m).state = .idle → (s.record m).session = none → (s.record m).kind = some .washer →
      s.sst.working.program msg.program.toNat = some ⟨.washer base warm hot planned drawBase drawHeat, name⟩ →
      washOptionOf msg.option.toNat = some o →
      Buys msg s m ⟨false, msg.program.toNat, .washer planned drawBase drawHeat, some o, none,
        min ((washGross base warm hot o * s.tariff + 50) / 100) 9999⟩
  | dryer (rate air low high : Nat) (name : List Byte) (n : Nat) :
      (s.record m).state = .idle → (s.record m).session = none → (s.record m).kind = some .dryer →
      s.sst.working.program msg.program.toNat = some ⟨.dryer rate air low high, name⟩ →
      n = max s.sst.working.limits.dryerMin (min s.sst.working.limits.dryerMax msg.minutes.toNat) →
      Buys msg s m ⟨false, msg.program.toNat, .dryer rate air low high, none, some n,
        max (min ((rate * n * s.tariff + 500) / 1000) 9999) 1⟩
  | topup (z : Session) (rate air low high n : Nat) :
      TakesTopup (s.record m) z msg.serial.toNat → z.figures = .dryer rate air low high → msg.program.toNat = z.program →
      z.minutes.getD 0 < s.sst.working.limits.dryerMax →
      n = max 1 (min (s.sst.working.limits.dryerMax - z.minutes.getD 0) msg.minutes.toNat) →
      Buys msg s m ⟨true, z.program, z.figures, z.option, some n, min ((rate * n * s.tariff + 500) / 1000) 9999⟩

/-- R82: how the card's pending debit is resolved, the reversal X and the usable credit C. -/
inductive Resolves (msg : PurchaseMsg) (s : State) : Option Resolution → Nat → Nat → Prop
  | clear : s.cru.pendingOf msg.serial.toNat = none → Resolves msg s none 0 (s.cru.owed msg.serial.toNat)
  | took (p : PendingEntry) : s.cru.pendingOf msg.serial.toNat = some p → msg.counter.toNat = p.counterRead + 1 →
      msg.balance.toNat = p.targetBalance →
      Resolves msg s (some (.took (p.amount - min p.amount (99999 - msg.balance.toNat))))
        (min p.amount (99999 - msg.balance.toNat)) (s.cru.owed msg.serial.toNat - p.folded)
  | notTaken (p : PendingEntry) : s.cru.pendingOf msg.serial.toNat = some p → msg.counter.toNat = p.counterRead →
      msg.balance.toNat = p.balanceRead → Resolves msg s (some .notTaken) p.reversal (s.cru.owed msg.serial.toNat)

/-- R8, R87: for a new exchange, the record leaves RESERVED for IDLE, or for OUT_OF_SERVICE where a lockout was pending. -/
def Freed (s t : State) (m : Addr) : Prop :=
  t.record m = { s.record m with
    state := if (s.record m).lockoutPending then .outOfService else if (s.record m).silent then .offline else .idle
    reserving := none, lockoutPending := false, unloadTimer := 0 } ∧
  ∀ k, k ≠ m → t.record k = s.record k

/-! ## What a reset leaves -/

/-- R26, R73: the grant of a machine is kept through a reset: its record holds a session or is ABORTING. -/
def State.keepsGrant (s : State) (m : Addr) : Bool :=
  (s.grant m).granted.isSome &&
  match (s.record m).state with
  | .armed | .starting | .running | .recovering | .aborting => true
  | .absent | .offline | .idle | .reserved | .done | .faulted | .outOfService => false

/-- R73: the machines that keep their fill through a reset: of those whose kept grants hold fill, the lowest numbers up to the
fill-slot limit just loaded. -/
def State.fillsKept (s : State) (limit : Nat) : List Addr :=
  (allMachines.filter fun m => s.keepsGrant m && (s.grant m).fill).take limit

/-- R53, R73: the grants after a reset that keeps retained memory: each one kept is held silent, with its fill trimmed to the limit
just loaded and the trim told to its node; every other entry is empty, and the start list keeps the kept machines in their order. -/
def GrantsKept (s t : State) : Prop :=
  let kept := s.fillsKept t.sst.working.limits.fillSlots
  t.fba.startList = s.fba.startList.filter (fun m => s.keepsGrant m) ∧
  ∀ m,
    (s.keepsGrant m = false → t.grant m = .empty) ∧
    ∀ g, s.keepsGrant m = true → (s.grant m).granted = some g →
      t.grant m = { GrantEntry.empty with
        granted := some g, draws := (s.grant m).draws, draw := (s.grant m).drawOf g, heldSilent := true
        fill := decide (m ∈ kept), pending := (s.grant m).fill && !decide (m ∈ kept) && (s.node m).known } ∧
      ((s.grant m).fill = true → m ∉ kept → (s.node m).known = true → Levelled t m g false)

/-- R95, R90: each exchange that was ORDERED has ended uncertain with the cause RESET, station A before station B. -/
def Converted (s t : State) : Prop :=
  let u := match s.pay.a.order with
    | some o => s.uncertain o .reset s.pay.b.order
    | none => s
  let v := match s.pay.b.order with
    | some o => u.uncertain o .reset none
    | none => u
  t.cru = v.cru ∧ t.jrn = v.jrn

/-- R26, R33, R129: the machine records, the node table and the fault records after a reset that keeps retained memory: a session
comes back RECOVERING with the retained state and with every timer at its value, an ABORTING or OUT_OF_SERVICE record stays so, and
every other is ABSENT; presence and kind stand; and the open mark stands where the record is ABORTING or OUT_OF_SERVICE. -/
def RecordsKept (s t : State) : Prop :=
  ∀ m,
    (t.record m).session = (s.record m).session.map (fun z => { z with armAcked := true }) ∧
    (t.record m).state = (match (s.record m).state with
      | .armed | .starting | .running | .recovering => .recovering
      | .aborting => .aborting
      | .outOfService => .outOfService
      | .idle | .reserved | .done | .faulted | .offline | .absent => .absent) ∧
    (t.record m).retained = (match (s.record m).state with
      | .armed => some .armed
      | .starting => some .starting
      | .running => some .running
      | _ => (s.record m).retained) ∧
    (t.record m).kind = (s.record m).kind ∧ (t.record m).door = (s.record m).door ∧
    (t.record m).stopDest = (s.record m).stopDest ∧ (t.record m).reserving = none ∧
    (t.record m).lockoutPending = false ∧ (t.record m).silent = false ∧ (t.record m).unloadTimer = 0 ∧
    (t.record m).silenceTimer = 0 ∧
    t.node m = .afterReset (s.node m).known (s.node m).kind ∧
    t.faults m = { s.faults m with openMark := (s.faults m).openMark &&
      ((s.record m).state == .aborting || (s.record m).state == .outOfService) }

/-- R181, R26, R33, R49, R73, R77, R129, R168, R177, R188: the state in a warm reset of a kind, from the state it found. -/
def WarmBegun (s t : State) (kind : ResetKind) : Prop :=
  t.phase = .warmReset (!(s.sst.imageMarked && s.sst.imageCheck)) ∧
  t.hli = { s.hli with buffer := none, linkErrors := 0 } ∧
  t.evu.flags = 0#19 ∧ t.evu.masks = 0#19 ∧ t.evu.routine = false ∧ t.evu.exceptional = false ∧ t.evu.attn = false ∧
  t.sst = { s.sst with
    working := if s.sst.imageMarked && s.sst.imageCheck then s.sst.image else .factory
    commit := none, unsaved := false, lastReset := kind } ∧
  t.pay.a = ⟨s.pay.a.orderCounter, s.pay.a.order, 0, 0, 0⟩ ∧ t.pay.b = ⟨s.pay.b.orderCounter, s.pay.b.order, 0, 0, 0⟩ ∧
  t.pay.halted = (s.pay.halted || t.sst.priceMismatch) ∧
  RecordsKept s t ∧ t.msv.recoveryWindow = none ∧ t.mbc.beacons = 0 ∧ t.mbc.scanCount = 0 ∧
  t.fba.line = s.fba.line ∧ t.fba.raises = [] ∧ t.fba.starts = [] ∧ t.fba.overBudget = false ∧ GrantsKept s t ∧
  t.mbc.scanComplete = false ∧ t.mbc.discovery.active = false ∧ (∀ e ∈ t.mbc.queue, e.owner = .fba) ∧
  ChangesOnly [.phase, .resetHeld, .msv, .mbc, .fba, .pay, .flm, .evu, .sst, .hli] s t

end Sys2Proof.Machine
end

