-- ==== Sys2Proof/Certificates/Slice0/Obligations.lean ====
section
/-! DEFINITION. The statements about the NL24. Each cites in OBLIGATIONS.json the rules or sections of the spec that it rests on. -/
section
open Sys2Proof Sys2Proof.Machine

/-! ## Commands, resets and power -/

/-- A step takes the command at the front of the queue, with the queue's rest; on an empty queue the block idles (the model's
choice, log entry 2). No command stops the machine, and none touches the queue. -/
def Obligations.StepTakesTheFront : Prop :=
  (∀ c rest s, s.pending = c :: rest → step s = exec c { s with pending := rest }) ∧
  (∀ s, s.pending = [] → step s = .next s) ∧
  ∀ c s, ∃ t, exec c s = .next t ∧ t.pending = s.pending

/-- R180, R172: a cold reset whose retained check failed clears everything retained, loads the stored image or the factory
defaults, sets exactly the start-up events that it found, and begins the START_UP discovery; the outputs show nothing sent yet (log
entry 30). In a running part the last slot's outcome is taken first (ReportBringsMachineIn), so it stands taken here. The model's
own part in it: log entries 6, 30 and 32. -/
def Obligations.ColdResetClearsRetained : Prop :=
  ∀ (fitted imageOk fast : Bool) (s : State), (s.phase = .running → s.SlotDone) → ∃ t, exec (.coldReset false fitted imageOk fast) s = .next t ∧
    let valid := s.sst.imageMarked && s.sst.imageCheck && imageOk
    t.phase = .running ∧ t.hli = ⟨none, 0, fast⟩ ∧ t.out = ⟨none, none, none⟩ ∧
    (∀ m, t.record m = .cleared ∧ t.node m = .afterReset false none ∧ t.grant m = .empty ∧ t.faults m = .cleared) ∧
    t.msv.recoveryWindow = some 30 ∧ t.cru = ⟨[], []⟩ ∧ t.jrn = .cleared ∧ t.pay.a = .cleared ∧ t.pay.b = .cleared ∧
    t.pay.halted = t.sst.priceMismatch ∧
    t.sst.working = (if valid then s.sst.image else .factory) ∧ t.sst.image = s.sst.image ∧
    t.sst.commit = none ∧ t.sst.unsaved = false ∧ t.sst.clock = none ∧ t.sst.roomMode = .opened ∧ t.sst.lastReset = .cold ∧
    (fitted = true → t.sst.lock = false ∧ t.sst.lockCode = none) ∧
    (fitted = false → t.sst.lock = s.sst.lock ∧ t.sst.lockCode = s.sst.lockCode) ∧
    t.fba.raises = [] ∧ t.fba.starts = [] ∧ t.fba.startList = [] ∧ t.fba.line = s.fba.line ∧ t.fba.demand = s.fba.line ∧
    t.fba.beff = t.effectiveBudget ∧
    t.mbc.scanComplete = false ∧ t.mbc.discovery.active = true ∧ t.mbc.discovery.cause = some .startUp ∧
    t.mbc.discovery.offered = some 0 ∧ t.mbc.queue.map (fun e => (e.addr, e.command)) = [(0, .assign)] ∧
    t.evu.masks = 0#19 ∧ t.evu.routine = false ∧ t.evu.exceptional = false ∧ t.evu.attn = false ∧
    ∀ f, t.evu.isSet f = true ↔
      f = .retainedLost ∨ (f = .settingsLost ∧ valid = false) ∨ (f = .payHalted ∧ t.sst.priceMismatch = true) ∨
        (f = .demandShed ∧ s.fba.line = .shed)

/-- R26, R33, R73, R95, R129, R162: a cold reset that keeps retained memory: sessions come back RECOVERING with every timer at its
value, the node table keeps presence and kind, the grants of sessions and of ABORTING machines are held silent with their fill
trimmed, an exchange that was ORDERED has become a pending debit with the cause RESET, station A before station B, and credits,
journal, clock and room mode stand but for that. The last slot's outcome stands taken, as there. The model's own part in it: log
entries 6, 23, 27, 32 and 53. -/
def Obligations.ColdResetKeepsRetained : Prop :=
  ∀ (fitted imageOk fast : Bool) (s : State), (s.phase = .running → s.SlotDone) → ∃ t, exec (.coldReset true fitted imageOk fast) s = .next t ∧
    t.sst.clock = s.sst.clock ∧ t.sst.roomMode = s.sst.roomMode ∧
    t.evu.isSet .retainedLost = false ∧ t.msv.recoveryWindow = some 30 ∧
    t.pay.a = ⟨s.pay.a.orderCounter, none, 0, 0, 0⟩ ∧ t.pay.b = ⟨s.pay.b.orderCounter, none, 0, 0, 0⟩ ∧
    (s.pay.a.order = none → s.pay.b.order = none → t.cru = s.cru ∧ t.jrn = s.jrn) ∧
    (s.BooksReady → Converted s t) ∧
    t.evu.isSet .debitUncertain = (s.pay.a.order.isSome || s.pay.b.order.isSome) ∧
    GrantsKept s t ∧ t.fba.raises = [] ∧ t.fba.starts = [] ∧ t.fba.beff = t.effectiveBudget ∧
    t.fba.overBudget = decide (t.fba.beff < t.fba.committed) ∧ t.evu.isSet .overBudget = t.fba.overBudget ∧
    RecordsKept s t

/-- R181, R188, R168, R26, R33, R73, R129: RESET is answered OK and changes nothing yet; a warm reset begins when that reply has
been sent, or at the RESET input; the input asserted during one prolongs it. The reset keeps what is retained: sessions come back
RECOVERING with the retained state and every timer at its value, ABORTING and OUT_OF_SERVICE records stay and every other is
ABSENT, the node table keeps presence and kind, fault records keep all but an open mark, and grants are held silent. The last
slot's outcome stands taken where it begins. The model's own part in it: log entries 6 and 27. -/
def Obligations.WarmResetBegins : Prop :=
  (∀ s, s.Serves .reset → ∃ t, exec .reset s = .next t ∧
    t.hli = { s.hli with buffer := some (.reply ⟨0x9E#8, .ok, none, none, []⟩ true) } ∧ ChangesOnly [.hli] s t) ∧
  (∀ s, s.phase = .running → s.SlotDone → ∃ t, exec .resetInputAsserted s = .next t ∧ t.resetHeld = true ∧ WarmBegun s t .warmPin) ∧
  (∀ s r, s.phase = .running → s.SlotDone → s.hli.buffer = some (.reply r true) →
    ∃ t, exec .replySent s = .next t ∧ t.resetHeld = s.resetHeld ∧ WarmBegun s t .warmRequest) ∧
  (∀ s lost, s.phase = .warmReset lost → exec .resetInputAsserted s = .next { s with resetHeld := true })

/-- R181, R172, R159, R51, R28, R26, R67, R73, R95: a warm reset ends with the start-up events, OVER_BUDGET among them where
committed draw is above B_eff, the exchanges that were ORDERED turned into pending debits with the cause RESET, station A before
station B, the demand state of the line, the recovery window, the baud rate just read, and STOP(abort) queued for each ABORTING
record. While the part runs, WARM_RESET_END changes nothing (the model's choice, log entry 1). The model's own part in it: log
entries 1, 23, 32 and 53. -/
def Obligations.WarmResetEnds : Prop :=
  (∀ (lost fast : Bool) (s : State), s.phase = .warmReset lost →
    ∃ t, exec (.warmResetEnd fast) s = .next t ∧ t.phase = .running ∧ t.resetHeld = false ∧
    t.msv.recoveryWindow = some 30 ∧ t.hli = { s.hli with fast := fast } ∧
    t.fba.demand = s.fba.line ∧ t.fba.debounce = 0 ∧ t.fba.beff = t.effectiveBudget ∧
    t.fba.overBudget = decide (t.fba.beff < t.fba.committed) ∧
    t.evu.isSet .overBudget = ((t.fba.overBudget && !s.fba.overBudget) || s.evu.isSet .overBudget) ∧
    t.pay = { s.pay with a := { s.pay.a with order := none }, b := { s.pay.b with order := none } } ∧
    (s.BooksReady → Converted s t) ∧
    t.evu.isSet .debitUncertain = (s.pay.a.order.isSome || s.pay.b.order.isSome || s.evu.isSet .debitUncertain) ∧
    t.evu.isSet .settingsLost = (lost || s.evu.isSet .settingsLost) ∧
    t.evu.isSet .retainedLost = s.evu.isSet .retainedLost ∧
    t.evu.isSet .payHalted = (s.pay.halted || s.evu.isSet .payHalted) ∧
    t.evu.isSet .demandShed = (s.fba.line == .shed || s.evu.isSet .demandShed) ∧
    t.evu.isSet .journalWaiting = (!t.jrn.records.isEmpty || s.evu.isSet .journalWaiting) ∧
    (1 ≤ t.jrn.free → t.jrn.free ≤ 2 → t.evu.isSet .journalTight = true) ∧
    (t.jrn.free = 0 → t.evu.isSet .journalFull = true) ∧
    (s.pay.a.order = none → s.pay.b.order = none → t.cru = s.cru ∧ t.jrn = s.jrn ∧
      t.evu.isSet .journalTight = ((1 ≤ s.jrn.free && s.jrn.free ≤ 2) || s.evu.isSet .journalTight) ∧
      t.evu.isSet .journalFull = (s.jrn.free == 0 || s.evu.isSet .journalFull)) ∧
    (∀ m, (t.record m).state = .aborting → (t.node m).known = true → Commanded t m (.stop true)) ∧
    ChangesOnly [.phase, .resetHeld, .msv, .mbc, .fba, .pay, .cru, .jrn, .evu, .hli] s t) ∧
  ∀ fast s, s.phase = .running → exec (.warmResetEnd fast) s = .next s

/-- R180, R169, R75, R178, R188: at a power failure the part stops with ATTN released and its buffer lost, and what is retained and
stored stands (the last slot's outcome is taken first, and stands taken here). In a reset and without power nothing is received and
no timer runs: only resets, power and the DEMAND pin act (log entry 31). The RESET input asserted without power changes nothing,
which is the model's choice (log entry 65). The model's own part in it: log entries 6, 31, 44 and 65. -/
def Obligations.NothingActsOutsideRunning : Prop :=
  (∀ s, (s.phase = .running → s.SlotDone) → ∃ t, exec .powerFailure s = .next t ∧ t.phase = .off ∧ t.hli.buffer = none ∧ t.evu.attn = false ∧
    ChangesOnly [.phase, .resetHeld, .hli, .evu] s t) ∧
  (∀ c s, s.phase ≠ .running →
    (match c with
      | .coldReset _ _ _ _ | .resetInputAsserted | .warmResetEnd _ | .powerFailure | .demandLineChange _ => False
      | _ => True) →
    exec c s = .next s) ∧
  ∀ s, s.phase = .off → exec .resetInputAsserted s = .next s

/-! ## The host link -/

/-- R183, R184, R174: a good frame that ends while the buffer is empty is taken as the request it spells, or answered BAD_ARG
where it spells none, with the three marks where its kind is that of a settings request; one of those of an unknown form is BUSY
while a commit is in progress (log entry 45). A bad frame, a gap of more than 20 ms among them, raises the link error count and
is answered BAD_FRAME. While the buffer is full every frame is discarded with LINK_OVERRUN. The buffer empties when the last byte
of a reply has been sent; REPLY_SENT without a reply there changes nothing (the model's choice, log entry 1). The model's own
part in it: log entries 1, 20, 21 and 45. -/
def Obligations.FramesTaken : Prop :=
  (∀ kind payload s, s.phase = .running → payload.length ≤ 250 → ∃ t, exec (.goodFrame kind payload) s = .next t ∧
    (s.hli.buffer = none →
      (∀ r, decodeRequest kind payload = some r →
        t.hli = { s.hli with buffer := some (.request r) } ∧ ChangesOnly [.hli] s t) ∧
      (decodeRequest kind payload = none → (kind.toNat < 14 ∨ 24 < kind.toNat) →
        OnlyReplies s t (replyKind kind) .badArg []) ∧
      (decodeRequest kind payload = none → 14 ≤ kind.toNat → kind.toNat ≤ 24 →
        let formUnknown := ∃ (x form : Byte) (rest : List Byte), payload = x :: form :: rest ∧
          ((kind.toNat = 14 ∧ 2 < form.toNat) ∨ (kind.toNat = 15 ∧ 1 < form.toNat))
        (s.sst.commit ≠ none ∧ formUnknown → OnlyReplies s t (replyKind kind) .busy s.sst.marks) ∧
        (s.sst.commit = none ∨ ¬formUnknown → OnlyReplies s t (replyKind kind) .badArg s.sst.marks))) ∧
    (s.hli.buffer ≠ none → t.evu = s.evu.set .linkOverrun ∧ ChangesOnly [.evu] s t)) ∧
  (∀ c s, (c = .badFrame ∨ c = .frameGap) → s.phase = .running → ∃ t, exec c s = .next t ∧
    t.hli.linkErrors = min 65535 (s.hli.linkErrors + 1) ∧ t.hli.fast = s.hli.fast ∧
    (s.hli.buffer = none → t.hli.buffer = some (.reply ⟨0xFF#8, .badFrame, none, none, []⟩ false) ∧ ChangesOnly [.hli] s t) ∧
    (s.hli.buffer ≠ none →
      t.hli.buffer = s.hli.buffer ∧ t.evu = s.evu.set .linkOverrun ∧ ChangesOnly [.hli, .evu] s t)) ∧
  (∀ s r, s.phase = .running → s.hli.buffer = some (.reply r false) →
    ∃ t, exec .replySent s = .next t ∧ t.hli = { s.hli with buffer := none } ∧ ChangesOnly [.hli] s t) ∧
  ∀ s, (s.hli.buffer = none ∨ ∃ i, s.hli.buffer = some (.request i)) → exec .replySent s = .next s

/-- R186: the five paged requests give the page asked for, page 0 where none is named, with the number of pages, of their items
as the state stands; a page at or above the count is BAD_ARG, with the status alone (log entry 61). They change nothing. The pages
hold the items whole, in order and without gaps, and no page is beyond the payload's room. The model's own part in it: log entries
18, 19, 22, 49, 50, 51, 54, 61, 63, 64 and 69 to 71. -/
def Obligations.PagedRequests : Prop :=
  (∀ i items kind page s, Paged s i items kind page → s.Serves i → ∃ t, exec i s = .next t ∧ ChangesOnly [.hli] s t ∧
    (∀ n data, n = (page.map (·.toNat)).getD 0 → (paginate [] items)[n]? = some data →
      Holds s t ⟨kind, .ok, none, some (n, (paginate [] items).length), data⟩) ∧
    ((paginate [] items).length ≤ (page.map (·.toNat)).getD 0 → OnlyReplies s t kind .badArg [])) ∧
  ∀ items : List (List Byte), (∀ x ∈ items, x.length ≤ 247) →
    (paginate [] items).flatten = items.flatten ∧ (paginate [] items) ≠ [] ∧
    (∀ p ∈ paginate [] items, p.length ≤ 247) ∧
    ∃ groups : List (List (List Byte)), groups.flatten = items ∧ paginate [] items = groups.map List.flatten

/-- R29, R147, R160: GET MACHINE and GET FAULT give a machine's record and its fault record, and a machine number outside 1 to 24
is BAD_ARG; JOURNAL READ gives the oldest records, as many as the count taken between 1 and 4 allows, then the journal's figures.
None of them changes a state. The model's own part in it: log entries 18, 46, 47, 62, 66 and 71. -/
def Obligations.MachineAndJournalReads : Prop :=
  (∀ (n : Byte) s,
    (s.Serves (.getMachine n) → ∃ t, exec (.getMachine n) s = .next t ∧
      (∀ m, addrNumber m = n.toNat → OnlyReplies s t 0x82#8 .ok (s.machineBytes m)) ∧
      (n = 0#8 ∨ 24 < n.toNat → OnlyReplies s t 0x82#8 .badArg [])) ∧
    (s.Serves (.getFault n) → ∃ t, exec (.getFault n) s = .next t ∧
      (∀ m, addrNumber m = n.toNat → OnlyReplies s t 0x85#8 .ok ((s.faults m).bytes s.sst.working.limits.lockout)) ∧
      (n = 0#8 ∨ 24 < n.toNat → OnlyReplies s t 0x85#8 .badArg []))) ∧
  ∀ (count : Byte) s, s.Serves (.journalRead count) → ∃ t, exec (.journalRead count) s = .next t ∧
    ∃ given rest, s.jrn.records = given ++ rest ∧
      given.length = min (max 1 (min 4 count.toNat)) s.jrn.records.length ∧
      OnlyReplies s t 0x8A#8 .ok ((given.map JournalRecord.bytes).flatten ++ nat8 s.jrn.records.length ++ nat8 s.jrn.free
        ++ nat8 s.jrn.reservations ++ nat8 s.jrn.state.code ++ natBytes16 s.jrn.overflow ++ natBytes16 s.jrn.sequence)

/-! ## Events and the journal -/

/-- R171: READ EVENTS gives the image, the masks and enables and ATTN after the request; with the clear option exactly the flags of
the image are cleared. One form serves every reply, and from its bytes each of the 19 flags, the 19 masks, the two enables and ATTN
can be told. Which bit is which flag in it is the model's choice (log entry 64), and stands in SetEventMaskReplacesAll. -/
def Obligations.ReadEventsGivesImage : Prop :=
  ∃ form : BitVec 19 → BitVec 19 → Bool → Bool → Bool → List Byte,
    (∀ f m r x a f' m' r' x' a', form f m r x a = form f' m' r' x' a' → f = f' ∧ m = m' ∧ r = r' ∧ x = x' ∧ a = a') ∧
    ∀ (clear : Byte) s, s.Serves (.readEvents clear) → ∃ t, exec (.readEvents clear) s = .next t ∧
      (clear = 0#8 ∨ clear = 1#8 →
        Replies s t 0x88#8 .ok (form s.evu.flags s.evu.masks s.evu.routine s.evu.exceptional t.evu.attn) ∧
        (∀ f, t.evu.isSet f = (s.evu.isSet f && clear != 1#8)) ∧ t.evu.masks = s.evu.masks ∧
        t.evu.routine = s.evu.routine ∧ t.evu.exceptional = s.evu.exceptional ∧ t.AttnRight ∧
        ChangesOnly [.evu, .hli] s t) ∧
      (1 < clear.toNat → OnlyReplies s t 0x88#8 .badArg [])

/-- R170: SET EVENT MASK replaces all 21 values, finds ATTN again and clears no flag; a value in a position that names no flag or
class is BAD_ARG. Its reply names masks and enables before the image, as R170 does and section 11.3 does not (log entry 42); and the
bytes of that reply and of READ EVENTS have the first flag in the lowest bit, which section 11.3 says of the argument alone: for the
replies it is the model's choice (log entry 64). -/
def Obligations.SetEventMaskReplacesAll : Prop :=
  (∀ (masks : BitVec 24) (enables : Byte) s, s.Serves (.setEventMask masks enables) →
    ∃ t, exec (.setEventMask masks enables) s = .next t ∧
    (masks.toNat < 2 ^ 19 ∧ enables.toNat < 4 →
      (∀ f : EventFlag, t.evu.masks.getLsbD f.index = masks.getLsbD f.index) ∧
      t.evu.routine = enables.getLsbD 0 ∧ t.evu.exceptional = enables.getLsbD 1 ∧ t.evu.flags = s.evu.flags ∧ t.AttnRight ∧
      Replies s t 0x89#8 .ok (flagBytes t.evu.masks ++ enableByte t.evu ++ flagBytes s.evu.flags ++ markByte t.evu.attn) ∧
      ChangesOnly [.evu, .hli] s t) ∧
    (2 ^ 19 ≤ masks.toNat ∨ 4 ≤ enables.toNat → OnlyReplies s t 0x89#8 .badArg [])) ∧
  ∀ (clear : Byte) s, s.Serves (.readEvents clear) → clear.toNat ≤ 1 → ∃ t, exec (.readEvents clear) s = .next t ∧
    Replies s t 0x88#8 .ok (flagBytes s.evu.flags ++ flagBytes s.evu.masks ++ enableByte s.evu ++ markByte t.evu.attn)

/-- R161: JOURNAL RELEASE frees the record named and every older one, and the journal state follows; a number that no host-owned
record bears frees nothing. No event is cleared. -/
def Obligations.JournalReleaseFrees : Prop :=
  ∀ (q : Word16) s, s.Serves (.journalRelease q) → ∃ t, exec (.journalRelease q) s = .next t ∧
    (∀ older r newer, s.jrn.records = older ++ r :: newer → r.sequence = q.toNat → (∀ x ∈ older, x.sequence ≠ q.toNat) →
      t.jrn = { s.jrn with records := newer } ∧
      Replies s t 0x8B#8 .ok (nat8 (older.length + 1) ++ nat8 newer.length) ∧
      (∀ f, s.evu.isSet f = true → t.evu.isSet f = true) ∧ ChangesOnly [.jrn, .evu, .hli] s t) ∧
    ((∀ x ∈ s.jrn.records, x.sequence ≠ q.toNat) → OnlyReplies s t 0x8B#8 .badSeq [])

/-! ## Room mode and clock -/

/-- R165, R22: SET ROOM MODE to OPEN or QUIET changes the mode and writes a MODE record; the mode already in force changes
nothing, and an unknown code is BAD_ARG. A change to CLOSED disarms every ARMED and STARTING machine and no other: DISARM is queued
for its node and its session is refunded in full on the books, in ascending order of the machines; then the MODE record is written,
and the reply counts the sessions. The premises of that are R2 (such a record holds a session) and R57 (a START entry belongs to a
STARTING machine). The model's own part in it: log entry 43. -/
def Obligations.RoomModeChanges : Prop :=
  (∀ (mode : Byte) s, s.Serves (.setRoomMode mode) → ∃ t, exec (.setRoomMode mode) s = .next t ∧
    (2 < mode.toNat → OnlyReplies s t 0x8C#8 .badArg []) ∧
    ∀ x : RoomMode, x.code = mode.toNat →
      (x = s.sst.roomMode → OnlyReplies s t 0x8C#8 .ok (nat8 x.code ++ nat8 0)) ∧
      (x ≠ s.sst.roomMode → x ≠ .closed →
        t.sst = { s.sst with roomMode := x } ∧ TookFree s t { kind := .mode, machine := 0, detail := .mode x } ∧
        Replies s t 0x8C#8 .ok (nat8 x.code ++ nat8 0) ∧ ChangesOnly [.jrn, .evu, .sst, .hli] s t)) ∧
  ∀ s, s.Serves (.setRoomMode 2#8) → s.sst.roomMode ≠ .closed →
    (∀ m, (s.record m).state = .armed ∨ (s.record m).state = .starting → (s.record m).session ≠ none) →
    (∀ e ∈ s.fba.starts, (s.record e.machine).state = .starting) →
    ∃ t, exec (.setRoomMode 2#8) s = .next t ∧ t.sst = { s.sst with roomMode := .closed } ∧
      (∀ m, (s.record m).state = .armed ∨ (s.record m).state = .starting →
        (t.record m).state = (if (s.record m).silent then .offline else .idle) ∧ (t.record m).session = none ∧
        t.fba.hasStart m = false ∧ t.fba.hasRaise m = false ∧ ((s.node m).known = true → Commanded t m .disarm)) ∧
      (∀ m, (s.record m).state ≠ .armed → (s.record m).state ≠ .starting → t.record m = s.record m) ∧
      (let u := s.refundedInFull s.unstarted
       t.cru = u.cru ∧ TookFree u t { kind := .mode, machine := 0, detail := .mode .closed } ∧
       t.evu.isSet .refundCredited = u.evu.isSet .refundCredited) ∧
      Replies s t 0x8C#8 .ok (nat8 2 ++ nat8 s.unstarted.length) ∧
      ChangesOnly [.msv, .mbc, .fba, .cru, .flm, .jrn, .evu, .sst, .hli] s t

/-- R178, R123 and the timers of chapters 01, 03 and 04: SET CLOCK takes the day and the minute, the minute clamped, and a zero
seconds count, and CRU makes its expiry check. A second moves the clock on: as the minute passes 1,439 it returns to 0, the day
advances, 65,535 being followed by 0, and the expiry check of that day rollover is owed, which DAY_ROLLOVER has CRU make: that the
check comes by its own row, and not with the second, is the model's choice (log entries 1 and 5). The second also moves every timer
that runs one down to 0; a washer's guard timer and a dryer's block timer run only in RUNNING, heard and not on hold, and the run
clock with them. The premise on the reservations is that of R154. The model's own part in it: log entries 1, 5, 41 and 54. -/
def Obligations.ClockSetRolledAndMoved : Prop :=
  ((∀ (day minute : Word16) s, s.Serves (.setClock day minute) → s.RefundsFit → s.cru.refunds.length ≤ s.jrn.reservations →
    ∃ t, exec (.setClock day minute) s = .next t ∧
      t.sst = { s.sst with clock := some ⟨day.toNat, min 1439 minute.toNat, 0, false⟩ } ∧ ExpiryMade s t day.toNat ∧
      Replies s t 0x8D#8 .ok (clockBytes (some ⟨day.toNat, min 1439 minute.toNat, 0, false⟩)) ∧
      ChangesOnly [.cru, .jrn, .evu, .sst, .hli] s t) ∧
  (∀ s (c : Clock), s.phase = .running → s.sst.clock = some c → c.rollover = true → s.RefundsFit →
    s.cru.refunds.length ≤ s.jrn.reservations →
    ∃ t, exec .dayRollover s = .next t ∧
      t.sst = { s.sst with clock := some { c with rollover := false } } ∧ ExpiryMade s t c.day ∧
      ChangesOnly [.cru, .jrn, .evu, .sst] s t) ∧
  ∀ s, s.sst.clock.any (·.rollover) = false → exec .dayRollover s = .next s) ∧
  ∀ s, s.phase = .running → ∃ t, exec .clockSecond s = .next t ∧ ChangesOnly [.msv, .fba, .pay, .sst] s t ∧
    t.sst = { s.sst with clock := s.sst.clock.map Clock.tick } ∧
    (∀ c, s.sst.clock = some c → c.minute ≤ 1439 → c.second ≤ 59 → ∃ d, t.sst.clock = some d ∧
      let midnight := c.minute = 1439 ∧ c.second = 59
      d.day = (if midnight then (if c.day < 65535 then c.day + 1 else 0) else c.day) ∧
      d.rollover = (c.rollover || decide midnight) ∧
      d.minute * 60 + d.second = (c.minute * 60 + c.second + 1) % 86400) ∧
    t.fba = { s.fba with
      raises := s.fba.raises.map fun e => { e with timer := e.timer - 1 }, debounce := s.fba.debounce - 1 } ∧
    (∀ st, t.exchange st =
      { s.exchange st with order := (s.exchange st).order.map fun o => { o with timer := o.timer - 1 } }) ∧
    t.msv.recoveryWindow = s.msv.recoveryWindow.map (· - 1) ∧
    ∀ m,
      (t.record m).state = (s.record m).state ∧
      (t.record m).unloadTimer = (s.record m).unloadTimer - (if (s.record m).state = .done then 1 else 0) ∧
      (t.record m).silenceTimer = (s.record m).silenceTimer -
        (if (s.record m).silent = true ∧ (s.record m).session ≠ none then 1 else 0) ∧
      ∀ z, (s.record m).session = some z → ∃ z', (t.record m).session = some z' ∧
        let runs := (s.record m).state = .running ∧ (s.record m).silent = false ∧ s.onHold m = false
        z'.startWindow = z.startWindow - (if (s.record m).state = .armed then 1 else 0) ∧
        z'.startWait = z.startWait - (if (s.record m).state = .starting then 1 else 0) ∧
        z'.guardTimer = z.guardTimer - (if runs ∧ z.figures.kind = .washer then 1 else 0) ∧
        z'.blockTimer = z.blockTimer - (if runs ∧ z.figures.kind = .dryer then 1 else 0) ∧
        z'.runClock = z.runClock + (z.guardTimer - z'.guardTimer) + (z.blockTimer - z'.blockTimer) ∧
        z'.value = z.value ∧ z'.consumed = z.consumed ∧ z'.minutes = z.minutes

/-! ## Settings -/

/-- R175, R176: SET PROGRAM replaces, creates or removes a program, clamped; under the lock a change of a price-bearing field is
LOCKED, and removing an absent program changes nothing, the unsaved-edits mark among it (the reading of "nothing" is log entry
16's). SET TARIFF sets or removes a band, clamped; another band with the same start becomes absent; under the lock every SET TARIFF
is LOCKED. An id outside 1 to 16 and an index outside 1 to 6 are BAD_ARG, the index under the lock too (the model's choice, log
entry 55). The reply gives the record as held in the order of R175: id, kind, name and figures, all but the id as one optional
field (log entry 56). The model's own part in it: log entries 16, 18, 55, 56 and 71. -/
def Obligations.PriceEdits : Prop :=
  (∀ (id : Byte) form s, s.Serves (.setProgram id form) → s.sst.commit = none → ∃ t, exec (.setProgram id form) s = .next t ∧
    (id = 0#8 ∨ 16 < id.toNat → OnlyReplies s t 0x8E#8 .badArg s.sst.marks) ∧
    ∀ i : Fin 16, i.val + 1 = id.toNat →
      (s.sst.lock = true ∧ priceFields (ProgramForm.held form) ≠ priceFields s.sst.working.programs[i] →
        OnlyReplies s t 0x8E#8 .locked s.sst.marks) ∧
      (s.sst.lock = false ∨ priceFields (ProgramForm.held form) = priceFields s.sst.working.programs[i] →
        (ProgramForm.held form = none → s.sst.working.programs[i] = none → ChangesOnly [.hli] s t) ∧
        t.sst.working.programs[i] = ProgramForm.held form ∧
        (∀ j : Fin 16, j ≠ i → t.sst.working.programs[j] = s.sst.working.programs[j]) ∧
        (ProgramForm.held form ≠ none ∨ s.sst.working.programs[i] ≠ none →
          t.sst =
            { s.sst with working := { s.sst.working with programs := t.sst.working.programs }, unsaved := true }) ∧
        Replies s t 0x8E#8 .ok (nat8 id.toNat ++ programBytes (ProgramForm.held form) ++ t.sst.marks) ∧
        (∀ p, ProgramForm.held form = some p → programBytes (some p) =
          [1#8] ++ nat8 (kindCode p.body.figures.kind) ++ nat8 p.name.length ++ p.name ++ (match p.body with
            | .washer base warm hot planned drawBase drawHeat => natBytes16 base ++ natBytes16 warm ++ natBytes16 hot
                ++ nat8 planned ++ natBytes16 drawBase ++ natBytes16 drawHeat
            | .dryer rate air low high => natBytes16 rate ++ natBytes16 air ++ natBytes16 low ++ natBytes16 high)) ∧
        ChangesOnly [.sst, .hli] s t)) ∧
  ∀ (index : Byte) form s, s.Serves (.setTariff index form) → s.sst.commit = none → ∃ t, exec (.setTariff index form) s = .next t ∧
    (index = 0#8 ∨ 6 < index.toNat → OnlyReplies s t 0x8F#8 .badArg s.sst.marks) ∧
    ∀ i : Fin 6, i.val + 1 = index.toNat →
      (s.sst.lock = true → OnlyReplies s t 0x8F#8 .locked s.sst.marks) ∧
      (s.sst.lock = false →
        t.sst.working.bands[i] = TariffForm.held form ∧
        (∀ j : Fin 6, j ≠ i → t.sst.working.bands[j] =
          if (TariffForm.held form).any (fun b => s.sst.working.bands[j].any fun c => c.start == b.start) then none
          else s.sst.working.bands[j]) ∧
        t.sst = { s.sst with working := { s.sst.working with bands := t.sst.working.bands }, unsaved := true } ∧
        Replies s t 0x8F#8 .ok ((t.sst.working.bands.toArray.toList.map bandBytes).flatten ++ t.sst.marks) ∧
        ChangesOnly [.sst, .hli] s t)

/-- R52, R56, R67, R174: SET BUDGET takes both figures, clamped, and B_eff follows; after a change committed draw is within B_eff,
or OVER_BUDGET is declared. SET LIMITS replaces every limit, each clamped, unless its fill-slot limit is below the fill count:
then it is BUSY and applies none. The model's own part in it: log entries 16 and 18. -/
def Obligations.BudgetAndLimitsEdits : Prop :=
  (∀ (budget : Word16) (percent : Byte) s, s.Serves (.setBudget budget percent) → s.sst.commit = none →
    ∃ t, exec (.setBudget budget percent) s = .next t ∧
      let b := max 100 (min 8000 budget.toNat)
      let p := max 30 (min 100 percent.toNat)
      t.sst = { s.sst with working := { s.sst.working with budget := b, shed := p }, unsaved := true } ∧
      (b = s.sst.working.budget ∧ p = s.sst.working.shed → ChangesOnly [.sst, .hli] s t) ∧
      (b ≠ s.sst.working.budget ∨ p ≠ s.sst.working.shed →
        t.fba.beff = (if s.fba.demand = .shed then b * p / 100 else b) ∧
        (t.fba.committed ≤ t.fba.beff ∨ t.fba.overBudget = true) ∧
        (∀ m, (t.record m).state = (s.record m).state ∨ (s.fba.hasStart m = true ∧ (t.record m).state = .running))) ∧
      Replies s t 0x90#8 .ok (natBytes16 b ++ nat8 p ++ natBytes16 t.fba.beff ++ t.sst.marks) ∧
      ChangesOnly [.msv, .mbc, .fba, .evu, .sst, .hli] s t) ∧
  ∀ a s, s.Serves (.setLimits a) → s.sst.commit = none → ∃ t, exec (.setLimits a) s = .next t ∧
    let l := LimitArgs.held a
    l.InRange ∧
    (l.fillSlots < s.fba.fillCount → OnlyReplies s t 0x91#8 .busy s.sst.marks) ∧
    (s.fba.fillCount ≤ l.fillSlots →
      t.sst = { s.sst with working := { s.sst.working with limits := l }, unsaved := true } ∧
      Replies s t 0x91#8 .ok (l.bytes ++ t.sst.marks) ∧
      (l.fillSlots = s.sst.working.limits.fillSlots → ChangesOnly [.sst, .hli] s t) ∧
      ChangesOnly [.msv, .mbc, .fba, .sst, .hli] s t)

/-- R174, R177, R179: COMMIT SETTINGS marks the stored image invalid and takes a copy; while the write lasts every settings edit
is BUSY and changes nothing; the end of the write makes that copy the valid image, and with no commit in progress
COMMIT_WRITE_END changes nothing (the model's choice, log entry 1). LOCK PRICES sets the lock over the working prices, once. The
reply to COMMIT SETTINGS gives the commit state once, as the first of the three marks (log entry 60). The model's own part in it:
log entries 1, 16, 17, 18 and 60. -/
def Obligations.CommitAndLock : Prop :=
  (∀ i kind s, SettingsRequest i kind → s.Serves i → s.sst.commit ≠ none →
    ∃ t, exec i s = .next t ∧ OnlyReplies s t kind .busy s.sst.marks) ∧
  (∀ s, s.Serves .commitSettings → s.sst.commit = none → ∃ t, exec .commitSettings s = .next t ∧
    t.sst = { s.sst with imageMarked := false, commit := some s.sst.working } ∧
    Replies s t 0x92#8 .ok t.sst.marks ∧ ChangesOnly [.sst, .hli] s t) ∧
  (∀ s g, s.phase = .running → s.sst.commit = some g → ∃ t, exec .commitWriteEnd s = .next t ∧
    t.sst = { s.sst with image := g, imageMarked := true, imageCheck := true, commit := none, unsaved := false } ∧
    ChangesOnly [.sst] s t) ∧
  (∀ s, s.sst.commit = none → exec .commitWriteEnd s = .next s) ∧
  (∀ s, s.Serves .lockPrices → s.sst.commit = none → ∃ t, exec .lockPrices s = .next t ∧
    (s.sst.lock = false → t.sst = { s.sst with lock := true, lockCode := some s.sst.working.priceCode } ∧
      t.sst.priceMismatch = false) ∧
    (s.sst.lock = true → t.sst = s.sst) ∧
    Replies s t 0x93#8 .ok (markByte true ++ t.sst.marks) ∧ ChangesOnly [.sst, .hli] s t)

/-- R115 to R117: the screen mode changes while neither exchange is ORDERED; a serial joins the tail of the list, or leaves it;
SET HASH BIT gives one bit of the hash set its value, CLEAR HASH clears all 512, and an index above 511 is BAD_ARG. The mode already
in force, and the value that a bit holds, change nothing, the unsaved-edits mark among it; every other edit that is answered OK sets
that mark (log entry 16). The model's own part in it: log entries 16, 18 and 68. -/
def Obligations.ScreenEdits : Prop :=
  ((∀ (mode : Byte) s, s.Serves (.setScreenMode mode) → s.sst.commit = none → ∃ t, exec (.setScreenMode mode) s = .next t ∧
    (2 < mode.toNat → OnlyReplies s t 0x94#8 .badArg s.sst.marks) ∧
    ∀ x : ScreenMode, x.code = mode.toNat →
      (s.pay.a.order ≠ none ∨ s.pay.b.order ≠ none → OnlyReplies s t 0x94#8 .busy s.sst.marks) ∧
      (s.pay.a.order = none → s.pay.b.order = none →
        (x = s.sst.working.screen.mode → ChangesOnly [.hli] s t) ∧
        (x ≠ s.sst.working.screen.mode → ScreenIs s t { s.sst.working.screen with mode := x }) ∧
        Replies s t 0x94#8 .ok (nat8 x.code ++ t.sst.marks))) ∧
  (∀ (k : Serial32) s, s.Serves (.screenAdd k) → s.sst.commit = none → ∃ t, exec (.screenAdd k) s = .next t ∧
    let list := s.sst.working.screen.list
    (k = 0#32 → OnlyReplies s t 0x95#8 .badArg s.sst.marks) ∧
    (k ≠ 0#32 → k.toNat ∉ list → 16 ≤ list.length →
      Refuses s t 0x95#8 .listFull s.sst.marks ∧ ChangesOnly [.hli] s t) ∧
    (k ≠ 0#32 → (k.toNat ∈ list ∨ list.length < 16) →
      ∃ l, l = (if k.toNat ∈ list then list else list ++ [k.toNat]) ∧
        ScreenIs s t { s.sst.working.screen with list := l } ∧ Replies s t 0x95#8 .ok (nat8 l.length ++ t.sst.marks))) ∧
  ∀ (k : Serial32) s, s.Serves (.screenRemove k) → s.sst.commit = none → ∃ t, exec (.screenRemove k) s = .next t ∧
    (k = 0#32 → OnlyReplies s t 0x96#8 .badArg s.sst.marks) ∧
    (k ≠ 0#32 → ∃ l, l = s.sst.working.screen.list.filter (· != k.toNat) ∧
      ScreenIs s t { s.sst.working.screen with list := l } ∧ Replies s t 0x96#8 .ok (nat8 l.length ++ t.sst.marks))) ∧
  (∀ (index : Word16) (value : Byte) s, s.Serves (.setHashBit index value) → s.sst.commit = none →
    ∃ t, exec (.setHashBit index value) s = .next t ∧
    (511 < index.toNat ∨ 1 < value.toNat → OnlyReplies s t 0x97#8 .badArg s.sst.marks) ∧
    (index.toNat ≤ 511 → value.toNat ≤ 1 →
      (∀ j, j < 512 → t.sst.working.screen.hash.getLsbD j =
        if j = index.toNat then value == 1#8 else s.sst.working.screen.hash.getLsbD j) ∧
      ((value == 1#8) = s.sst.working.screen.hash.getLsbD index.toNat → ChangesOnly [.hli] s t) ∧
      ((value == 1#8) ≠ s.sst.working.screen.hash.getLsbD index.toNat →
        ScreenIs s t { s.sst.working.screen with hash := t.sst.working.screen.hash }) ∧
      Replies s t 0x97#8 .ok (markByte (value == 1#8) ++ t.sst.marks))) ∧
  ∀ s, s.Serves .clearHash → s.sst.commit = none → ∃ t, exec .clearHash s = .next t ∧
    ScreenIs s t { s.sst.working.screen with hash := 0#512 } ∧ Replies s t 0x98#8 .ok t.sst.marks

/-! ## Requests on machines, discovery and grants -/

/-- R142, R143, R25: SERVICE OUT by the state of the record: turned away in RESERVED and ABSENT, without effect in
OUT_OF_SERVICE, at once on a machine at rest; an ABORTING record takes the destination OUT_OF_SERVICE; and a session, in ARMED,
STARTING, RUNNING or RECOVERING with one of these retained, is ended with its refund. The confirmed-off flag has the grant of a
silent run, one found RECOVERING or ABORTING among them, released at once. Each that acts writes a SERVICE record and sets
LOCKOUT. The model's own part in it: log entries 15 and 18. -/
def Obligations.ServiceOutActs : Prop :=
  ∀ (n off : Byte) s, s.Serves (.serviceOut n off) → ∃ t, exec (.serviceOut n off) s = .next t ∧
    (n = 0#8 ∨ 24 < n.toNat ∨ 1 < off.toNat → OnlyReplies s t 0x99#8 .badArg []) ∧
    ∀ m, addrNumber m = n.toNat → off.toNat ≤ 1 →
      ((s.record m).state = .reserved → OnlyReplies s t 0x99#8 .busy []) ∧
      ((s.record m).state = .absent → Refuses s t 0x99#8 .noNode [] ∧ ChangesOnly [.hli] s t) ∧
      ((s.record m).state = .outOfService → OnlyReplies s t 0x99#8 .ok (nat8 MState.outOfService.code)) ∧
      ((s.record m).state = .idle ∨ (s.record m).state = .done ∨ (s.record m).state = .faulted ∨
          (s.record m).state = .offline →
        t.msv = { s.msv with
          records := s.msv.records.put m { s.record m with state := .outOfService, unloadTimer := 0 } } ∧
        TookFree s t { kind := .service, machine := addrNumber m, detail := .out } ∧ t.evu.isSet .lockout = true ∧
        Replies s t 0x99#8 .ok (nat8 MState.outOfService.code) ∧ ChangesOnly [.msv, .jrn, .evu, .hli] s t) ∧
      ((s.record m).state = .aborting →
        TookFree s t { kind := .service, machine := addrNumber m, detail := .out } ∧ t.evu.isSet .lockout = true ∧
        t.flm = s.flm ∧
        (off = 0#8 ∨ (s.record m).silent = false →
          t.msv = { s.msv with records := s.msv.records.put m { s.record m with stopDest := some .outOfService } } ∧
          t.fba = s.fba ∧ Replies s t 0x99#8 .ok (nat8 MState.aborting.code)) ∧
        (off = 1#8 → (s.record m).silent = true →
          t.record m = { s.record m with state := .outOfService, stopDest := none, unloadTimer := 0 } ∧
          (t.grant m).granted = none ∧
          ((s.grant m).granted ≠ none → (t.grant m).draw = 0 ∧ m ∉ t.fba.startList) ∧
          Replies s t 0x99#8 .ok (nat8 MState.outOfService.code)) ∧
        ChangesOnly [.msv, .mbc, .fba, .jrn, .evu, .hli] s t) ∧
      ∀ (z : Session) x, (s.record m).session = some z → (s.record m).standsIn x →
        x = .armed ∨ x = .starting ∨ x = .running →
        let r := if x = .running then z.refund .running s.sst.working.limits.grace else z.total
        SessionGone s t m z.payer r ∧
        t.faults m = { s.faults m with
          current := some
            { kind := none, cause := .hostOut, severity := .lockout, escalated := false, stamp := s.stamp
              state := x, payer := some z.payer, refund := some r, secondary := none }
          openMark := true } ∧
        TookFree (s.refunded m z.payer r) t
          { kind := .service, machine := addrNumber m, serial := some z.payer, amount := some r, detail := .out } ∧
        t.evu.isSet .lockout = true ∧
        (x ≠ .running → (t.record m).state = .outOfService ∧ ((s.node m).known = true → Commanded t m .disarm) ∧
          Replies s t 0x99#8 .ok (nat8 MState.outOfService.code)) ∧
        (x = .running → ((s.node m).known = true → Commanded t m (.stop true)) ∧
          let released := off = 1#8 ∧ ((s.record m).silent = true ∨ (s.record m).state = .recovering)
          (¬released → (t.record m).state = .aborting ∧ (t.record m).stopDest = some .outOfService ∧
            (t.grant m).granted = (s.grant m).granted ∧ Replies s t 0x99#8 .ok (nat8 MState.aborting.code)) ∧
          (released → (t.record m).state = .outOfService ∧ (t.grant m).granted = none ∧
            ((s.grant m).granted ≠ none → (t.grant m).draw = 0 ∧ m ∉ t.fba.startList) ∧
            Replies s t 0x99#8 .ok (nat8 MState.outOfService.code)))

/-- R144: SERVICE RETURN answers BAD_ARG, REFUSED NOT_OUT or REFUSED CLASH, or takes its five steps. The model's own part in it:
log entry 18. -/
def Obligations.ServiceReturnActs : Prop :=
  ∀ (n : Byte) s, s.Serves (.serviceReturn n) → ∃ t, exec (.serviceReturn n) s = .next t ∧
    (n = 0#8 ∨ 24 < n.toNat → OnlyReplies s t 0x9A#8 .badArg []) ∧
    ∀ m, addrNumber m = n.toNat →
      ((s.record m).state ≠ .outOfService → Refuses s t 0x9A#8 .notOut [] ∧ ChangesOnly [.hli] s t) ∧
      ((s.record m).state = .outOfService → (s.node m).clash = true →
        Refuses s t 0x9A#8 .clash [] ∧ ChangesOnly [.hli] s t) ∧
      ((s.record m).state = .outOfService → (s.node m).clash = false → ∃ x,
        (x = if (s.node m).heard = true ∧ (s.record m).silent = false then .idle else .offline) ∧
        t.msv = { s.msv with records := s.msv.records.put m { s.record m with state := x, unloadTimer := 0 } } ∧
        t.mbc = { s.mbc with nodes := s.mbc.nodes.put m { s.node m with lastFault := none } } ∧
        t.flm = s.flm.put m { s.faults m with stopCount := 0, openMark := false } ∧
        TookFree s t { kind := .service, machine := addrNumber m, detail := .returned } ∧
        Replies s t 0x9A#8 .ok (nat8 x.code) ∧ ChangesOnly [.msv, .mbc, .flm, .jrn, .evu, .hli] s t)

/-- R145, R20, R27, R108: ABORT CYCLE on a machine without a session, RESERVED among them, is turned away. In ARMED, STARTING,
RUNNING, or RECOVERING with one of these retained, it ends the session, with the refund of R108 or with none, and records the
order; a session that had not begun leaves FAULTED, or OFFLINE where its node is silent, and a run ABORTING. The model's own part
in it: log entry 18. -/
def Obligations.AbortCycleActs : Prop :=
  ∀ (n flag : Byte) s, s.Serves (.abortCycle n flag) → ∃ t, exec (.abortCycle n flag) s = .next t ∧
    (n = 0#8 ∨ 24 < n.toNat ∨ 1 < flag.toNat → OnlyReplies s t 0x9B#8 .badArg []) ∧
    ∀ m, addrNumber m = n.toNat → flag.toNat ≤ 1 →
      ((s.record m).state = .reserved → OnlyReplies s t 0x9B#8 .busy []) ∧
      ((s.record m).state ≠ .reserved → (s.record m).session = none →
        Refuses s t 0x9B#8 .noSession [] ∧ ChangesOnly [.hli] s t) ∧
      ∀ (z : Session) x, (s.record m).session = some z → (s.record m).standsIn x →
        x = .armed ∨ x = .starting ∨ x = .running →
        let full := if x = .running then z.refund .running s.sst.working.limits.grace else z.total
        let r := if flag = 1#8 then full else 0
        let left := if x = .running then MState.aborting else if (s.record m).silent then .offline else .faulted
        SessionGone s t m z.payer r ∧ (t.record m).state = left ∧
        (x = .running → (t.record m).stopDest = some .faulted) ∧
        ((s.node m).known = true → Commanded t m (if x = .running then .stop true else .disarm)) ∧
        t.faults m = { s.faults m with
          current := some
            { kind := none, cause := .hostAbort, severity := .stop, escalated := false, stamp := s.stamp
              state := x, payer := some z.payer, refund := some r, secondary := none }
          openMark := decide (left ≠ .offline) } ∧
        TookFree (s.refunded m z.payer r) t
          { kind := .service, machine := addrNumber m, serial := some z.payer, amount := some r, detail := .abort } ∧
        t.evu.isSet .fault = s.evu.isSet .fault ∧ Replies s t 0x9B#8 .ok (nat8 left.code ++ nat24 r)

/-- R47, R45, R48, R182: REDISCOVER is BUSY while a machine is RESERVED, before the first slot scan is complete and while a
discovery is ACTIVE; otherwise it starts a HOST discovery, which offers the lowest free address, with ASSIGN queued for it at the
tail, or ends at once. A valid report in the offered slot while the answer window is open answers the ASSIGN: the address is KNOWN
and occupied, the unanswered count is 0, the window closed, and the lowest address still free is offered, with its ASSIGN at the
tail, or the discovery ends; any other valid report only occupies its slot. An answer window that closed without an answer counts;
the third ends the discovery, and otherwise the lowest free address is offered anew. Eight periods closed complete the first slot
scan, and nothing else changes. The model's own part in it: log entries 1, 33 and 34. -/
def Obligations.DiscoveryAndScan : Prop :=
  (∀ s, s.Serves .rediscover → ∃ t, exec .rediscover s = .next t ∧
    ((∃ m, (s.record m).state = .reserved) ∨ s.mbc.scanComplete = false ∨ s.mbc.discovery.active = true →
      OnlyReplies s t 0x9C#8 .busy []) ∧
    ((∀ m, (s.record m).state ≠ .reserved) → s.mbc.scanComplete = true → s.mbc.discovery.active = false →
      t.mbc.nodes = s.mbc.nodes ∧ t.mbc.discovery.cause = some .host ∧ t.mbc.discovery.unanswered = 0 ∧
      t.mbc.discovery.occupied = [] ∧
      (∀ a, t.mbc.discovery.offered = some a ↔
        (s.node a).known = false ∧ ∀ b, b < a → (s.node b).known = true) ∧
      t.mbc.discovery.active = t.mbc.discovery.offered.isSome ∧
      t.mbc.queue.map (fun e => (e.addr, e.command)) = s.mbc.queue.map (fun e => (e.addr, e.command)) ++
        (t.mbc.discovery.offered.map fun a => (a, BusCommand.assign)).toList ∧
      Replies s t 0x9C#8 .ok [] ∧ ChangesOnly [.mbc, .hli] s t)) ∧
  (∀ slot rep r s, ReportTaken s slot rep r → s.mbc.discovery.active = true →
    ∃ t, exec (.validReport slot rep) s = .next t ∧
      let d := s.mbc.discovery
      let heard := if slot ∈ d.occupied then d.occupied else d.occupied ++ [slot]
      let answers := d.offered = some slot ∧ 0 < d.window ∧ d.fresh = false
      (t.node slot).known = true ∧
      (answers →
        t.mbc.discovery.unanswered = 0 ∧ t.mbc.discovery.window = 0 ∧ t.mbc.discovery.occupied = heard ∧
        t.mbc.discovery.cause = d.cause ∧
        (∀ b, t.mbc.discovery.offered = some b ↔
          ((s.node b).known = false ∧ b ∉ heard) ∧ ∀ k, k < b → (s.node k).known = true ∨ k ∈ heard) ∧
        t.mbc.discovery.active = t.mbc.discovery.offered.isSome ∧
        ∀ b, t.mbc.discovery.offered = some b →
          t.mbc.queue.getLast?.map (fun e => (e.addr, e.command)) = some (b, BusCommand.assign)) ∧
      (¬answers → t.mbc.discovery = { d with occupied := heard })) ∧
  (∀ s a, s.phase = .running → s.mbc.discovery.active = true → s.mbc.discovery.offered = some a →
    s.mbc.discovery.window = 0 → (∀ e ∈ s.mbc.queue, e.command ≠ .assign) →
    ∃ t, exec .answerWindowClose s = .next t ∧ t.mbc.discovery.unanswered = s.mbc.discovery.unanswered + 1 ∧
      t.mbc.nodes = s.mbc.nodes ∧
      (3 ≤ s.mbc.discovery.unanswered + 1 →
        t.mbc.discovery.active = false ∧ t.mbc.discovery.offered = none ∧ t.mbc.queue = s.mbc.queue) ∧
      (s.mbc.discovery.unanswered + 1 < 3 →
        (∀ b, t.mbc.discovery.offered = some b ↔
          ((s.node b).known = false ∧ b ∉ s.mbc.discovery.occupied) ∧
            ∀ k, k < b → (s.node k).known = true ∨ k ∈ s.mbc.discovery.occupied) ∧
        t.mbc.queue.map (fun e => (e.addr, e.command)) = s.mbc.queue.map (fun e => (e.addr, e.command)) ++
          (t.mbc.discovery.offered.map fun b => (b, BusCommand.assign)).toList) ∧
      ChangesOnly [.mbc] s t) ∧
  ∀ s, s.phase = .running → s.mbc.scanComplete = false → 8 ≤ s.mbc.scanCount →
    ∃ t, exec .firstSlotScanComplete s = .next t ∧ t.mbc = { s.mbc with scanComplete := true } ∧ ChangesOnly [.mbc] s t

/-- R127, R119, R120: REFUND GRANT checks its arguments and the journal's room, and credits the serial up to the cap, in the
entry it has or in a new one at the newest end. Every credit does so against its caller's two reservations: an existing entry
takes the amount up to the cap, and a new entry, which in a full table takes the place of the oldest one without pledge or hold,
keeps the second reservation; a refund of 0 returns both. -/
def Obligations.RefundGrantCredits : Prop :=
  (∀ (k : Serial32) (amount : Word16) s, s.Serves (.refundGrant k amount) → ∃ t, exec (.refundGrant k amount) s = .next t ∧
    (k = 0#32 ∨ amount = 0#16 ∨ 9999 < amount.toNat → OnlyReplies s t 0x9D#8 .badArg []) ∧
    (k ≠ 0#32 → amount ≠ 0#16 → amount.toNat ≤ 9999 →
      (s.jrn.free < 2 → OnlyReplies s t 0x9D#8 .busy []) ∧
      (2 ≤ s.jrn.free → t.evu.isSet .refundCredited = true ∧ ChangesOnly [.cru, .jrn, .evu, .hli] s t ∧
        (∀ older (e : RefundEntry) newer, s.cru.refunds = older ++ e :: newer → e.serial = k.toNat →
          (∀ x ∈ older ++ newer, x.serial ≠ k.toNat) →
          t.cru = { s.cru with
            refunds := older ++ { e with amount := min (e.amount + amount.toNat) 99999, origin := 0 } :: newer } ∧
          t.jrn.reservations = s.jrn.reservations ∧ t.jrn.records.length = s.jrn.records.length + 1 ∧
          Replies s t 0x9D#8 .ok (nat24 (min (e.amount + amount.toNat) 99999))) ∧
        ((∀ x ∈ s.cru.refunds, x.serial ≠ k.toNat) → s.cru.refunds.length < 32 →
          t.cru = { s.cru with refunds := s.cru.refunds ++ [⟨k.toNat, amount.toNat, s.today, false, none, 0⟩] } ∧
          t.jrn.reservations = s.jrn.reservations + 1 ∧
          t.jrn.records = s.jrn.records ++ [⟨s.jrn.sequence, s.stamp,
            { kind := .refundGranted, machine := 0, serial := some k.toNat, amount := some amount.toNat
              balanceAfter := some amount.toNat }⟩] ∧
          Replies s t 0x9D#8 .ok (nat24 amount.toNat))))) ∧
  ∀ k serial amount origin s, 1 ≤ amount → 2 ≤ s.jrn.reservations →
    let t := creditSerial k serial amount origin s
    (∀ older (e : RefundEntry) newer, s.cru.refunds = older ++ e :: newer → e.serial = serial →
      (∀ x ∈ older ++ newer, x.serial ≠ serial) →
      let after := min (e.amount + amount) 99999
      t.cru = { s.cru with refunds := older ++ { e with amount := after, origin := origin } :: newer } ∧
      t.jrn = s.jrn.wrote s.stamp [creditBody k serial amount origin after (e.amount + amount - after)] 2) ∧
    ((∀ x ∈ s.cru.refunds, x.serial ≠ serial) →
      let after := min amount 99999
      let entry : RefundEntry := ⟨serial, after, s.today, false, none, origin⟩
      let body := creditBody k serial amount origin after (amount - after)
      (s.cru.refunds.length < 32 →
        t.cru = { s.cru with refunds := s.cru.refunds ++ [entry] } ∧ t.jrn = s.jrn.wrote s.stamp [body] 1) ∧
      ∀ older (e : RefundEntry) newer, 32 ≤ s.cru.refunds.length → s.cru.refunds = older ++ e :: newer →
        (∀ x ∈ older ++ newer, x.serial ≠ e.serial) →
        (∀ x ∈ older, x.pledged = true ∨ x.hold ≠ none) → e.pledged = false → e.hold = none →
        t.cru = { s.cru with refunds := older ++ newer ++ [entry] } ∧
        t.jrn = s.jrn.wrote s.stamp
          [{ kind := .refundExpired, machine := e.origin, serial := some e.serial, amount := some e.amount, detail := .evicted },
            body] 2) ∧
    t.evu.isSet .refundCredited = true ∧ ChangesOnly [.cru, .jrn, .evu] s t ∧
    (∀ m, s.refunded m serial 0 = returnSlots 2 s ∧
      (s.refunded m serial 0).jrn = { s.jrn with reservations := s.jrn.reservations - 2 } ∧
      s.refunded m serial amount = creditSerial .refund serial amount (addrNumber m) s)

/-! ## Pay stations -/

/-- R78 to R84: a PURCHASE at an ORDERED exchange is counted and declined STATION_BUSY, and the exchange with its timer stands;
at an IDLE one the first of checks 1 to 11 that fails gives the reason of the DECLINE, and nothing but the line changes. A
mismatch of the lock code at check 3 halts payment, with PAY_HALTED where it was not halted before. Check 8 never declines; one
that finds a pending debit unresolved acts at once and stands in a statement of its own, as does check 12. The model's own part
in it: log entry 30. -/
def Obligations.PurchaseTurnedAway : Prop :=
  ∀ st (msg : PurchaseMsg) s, s.phase = .running → msg.option.toNat ≤ 3 → ∃ t, exec (.purchase st msg) s = .next t ∧
    let shown := if 99999 < msg.balance.toNat then 0 else msg.balance.toNat
    (∀ o, (s.exchange st).order = some o →
      t.exchange st = { s.exchange st with conflicts := min 65535 ((s.exchange st).conflicts + 1) } ∧
      t.exchange (otherStation st) = s.exchange (otherStation st) ∧ t.pay.halted = s.pay.halted ∧
      LineShows t st (.decline .stationBusy shown) ∧ ChangesOnly [.pay, .out] s t) ∧
    ((s.exchange st).order = none →
      (∀ reason, FirstFailing st msg s reason → LineShows t st (.decline reason shown) ∧ ChangesOnly [.out] s t) ∧
      (RoomTakes msg s → s.sst.priceMismatch = true →
        t.pay = { s.pay with halted := true } ∧
        t.evu = (if s.pay.halted then s.evu else s.evu.set .payHalted) ∧
        LineShows t st (.decline .payHalted shown) ∧ ChangesOnly [.pay, .evu, .out] s t))

/-- R79 to R85, R99 to R105: a PURCHASE that passes checks 1 to 11, a new wash, a new dryer run or a top-up, is settled by the
fold of the balance read B, the reversal X and the usable credit C that the card's pending debit and refund entry give, and the
charge P at the tariff of this moment. Three slots are reserved, a machine bought new is RESERVED, the entry of a credit folded
is held, and the exchange is ORDERED; where P exceeds all three the order is credit-only, and where X and C are 0 as well the
PURCHASE is declined INSUFFICIENT and nothing but the line changes. The model's own part in it: log entries 8, 11, 30
and 59. -/
def Obligations.PurchaseOpensExchange : Prop :=
  ∀ st (msg : PurchaseMsg) s m (b : Bought) res x c, s.phase = .running → msg.option.toNat ≤ 3 →
    (s.exchange st).order = none → CardTakes st msg s → addrNumber m = msg.machine.toNat → Buys msg s m b →
    Resolves msg s res x c →
    ∃ t, exec (.purchase st msg) s = .next t ∧
      let sum := msg.balance.toNat + x + c
      (sum < b.charge → x + c = 0 → LineShows t st (.decline .insufficient msg.balance.toNat) ∧ ChangesOnly [.out] s t) ∧
      (b.charge ≤ sum ∨ 0 < x + c →
        let short := sum < b.charge
        let charge := if short then 0 else b.charge
        let balance := min (sum - charge) 99999
        let folded := if short then c else c - (sum - b.charge - 99999)
        let ptype := if short then PurchaseType.creditOnly else if b.topup then .topup else .new
        let n := if (s.exchange st).orderCounter < 255 then (s.exchange st).orderCounter + 1 else 0
        t.exchange st = { s.exchange st with
          orderCounter := n
          order := some
            { number := n, ptype := ptype, serial := msg.serial.toNat, balanceRead := msg.balance.toNat
              counterRead := msg.counter.toNat, machine := m, program := b.program, option := b.option, minutes := b.minutes
              tariff := s.tariff, charge := charge, newBalance := balance, newCounter := msg.counter.toNat + 1
              folded := if folded = 0 then none else some folded, reversal := if x = 0 then none else some x
              resolution := res, timer := 5, figures := b.figures } } ∧
        t.exchange (otherStation st) = s.exchange (otherStation st) ∧ t.pay.halted = s.pay.halted ∧
        (ptype = .new → t.record m = { s.record m with state := .reserved, reserving := some st }) ∧
        (ptype ≠ .new → t.record m = s.record m) ∧ (∀ k, k ≠ m → t.record k = s.record k) ∧
        t.cru = { s.cru with refunds := s.cru.refunds.map fun e =>
          if 0 < folded ∧ e.serial = msg.serial.toNat then { e with hold := some st } else e } ∧
        t.jrn = { s.jrn with reservations := s.jrn.reservations + 3 } ∧
        LineShows t st (.order n balance (msg.counter.toNat + 1) charge (decide (ptype = .creditOnly))) ∧
        ChangesOnly [.msv, .pay, .cru, .jrn, .evu, .out] s t)

/-- R82, check 8: a PURCHASE of a card whose pending debit the card image agrees with in neither way acts at once, whatever the
later checks decide: DEBIT_UNRESOLVED is written against the entry's own reservation with the entry's fields and the card image,
its event is set, the pledge on the refund entry is cleared and the entry is gone. An exchange that the PURCHASE then opens
carries no reversal and no resolution. The model's own part in it: log entry 30. -/
def Obligations.PurchaseFindsUnresolved : Prop :=
  ∀ st (msg : PurchaseMsg) p s, s.phase = .running → msg.option.toNat ≤ 3 → (s.exchange st).order = none →
    CardTakes st msg s → s.cru.pendingOf msg.serial.toNat = some p → ¬p.agrees msg → 1 ≤ s.jrn.reservations →
    ∃ t, exec (.purchase st msg) s = .next t ∧
      let body : RecordBody :=
        { kind := .debitUnresolved, machine := addrNumber p.machine, serial := some p.serial, amount := some p.amount
          balanceAfter := some msg.balance.toNat, counterAfter := some msg.counter.toNat
          folded := if p.folded = 0 then none else some p.folded
          reversal := if p.reversal = 0 then none else some p.reversal }
      let opened := (t.exchange st).order
      t.jrn = { s.jrn.append s.stamp body with
        reservations := s.jrn.reservations - 1 + (if opened = none then 0 else 3) } ∧
      t.evu.isSet .debitUnresolved = true ∧
      t.cru.pendings = s.cru.pendings.filter (·.serial != msg.serial.toNat) ∧
      (∃ hold : Bool, t.cru.refunds = s.cru.refunds.map fun e =>
        if e.serial = msg.serial.toNat then { e with pledged := false, hold := if hold then some st else e.hold } else e) ∧
      (∀ o, opened = some o → o.serial = msg.serial.toNat ∧ o.reversal = none ∧ o.resolution = none) ∧
      ChangesOnly [.msv, .pay, .cru, .jrn, .evu, .out] s t

/-- R87, R8, R2, R20, R22, R122: DONE for a new purchase writes the SALE record first and settles the card's tables: the credit
folded leaves the refund entry, and a pending debit that the purchase resolved is settled and gone. Then MSV arms the machine
with a fresh session and ARM queued, the exchange is IDLE and the RECEIPT is sent. In a CLOSED room the new session is disarmed
at once with its full charge refunded, and declined ROOM_CLOSED; a lockout pending ends it likewise and leaves OUT_OF_SERVICE,
and it is declined MACHINE_OUT. The model's own part in it: log entries 11, 12, 30, 53, 57 and 67. -/
def Obligations.ResultDoneArms : Prop :=
  ∀ st (msg : ResultMsg) o s, s.phase = .running → (s.exchange st).order = some o → s.BooksReady → o.ptype = .new →
    msg.order.toNat = o.number → msg.outcome = 0#8 → msg.counter.map (·.toNat) = some o.newCounter →
    ∃ t, exec (.result st msg) s = .next t ∧
      let m := o.machine
      let u := s.settled o .sale 0
      t.evu.isSet .sale = true ∧ (0 < o.back → t.evu.isSet .refundCredited = true) ∧
      t.exchange st = { s.exchange st with order := none } ∧
      t.exchange (otherStation st) = s.exchange (otherStation st) ∧ t.pay.halted = s.pay.halted ∧
      ((s.record m).lockoutPending = false → s.sst.roomMode ≠ .closed →
        t.cru = u.cru ∧ t.jrn = u.jrn ∧
        t.record m = { s.record m with
          state := .armed, reserving := none, silenceTimer := if (s.record m).silent then 300 else 0
          session := some
            { payer := o.serial, program := o.program, figures := o.figures, option := o.option, total := o.charge
              value := o.charge, consumed := 0, minutes := o.minutes, purchases := 1, runClock := 0, guardTimer := 0
              blockTimer := 0, startWindow := s.sst.working.limits.startWindow * 60, startWait := 0, startTime := none
              ending := false, armAcked := false } } ∧
        (∀ k, k ≠ m → t.record k = s.record k) ∧
        ((s.node m).known = true → Commanded t m (.arm o.program o.option)) ∧
        LineShows t st (match o.figures with
          | .washer _ _ _ => .receiptWasher m o.program
          | .dryer _ _ _ _ => .receiptDryer m (o.minutes.getD 0) (o.minutes.getD 0)) ∧
        ChangesOnly [.msv, .mbc, .pay, .cru, .jrn, .evu, .out] s t) ∧
      ((s.record m).lockoutPending = true ∨ s.sst.roomMode = .closed →
        SessionGone u t m o.serial o.charge ∧ t.jrn = (u.refunded m o.serial o.charge).jrn ∧
        ((s.node m).known = true → Commanded t m .disarm) ∧ (t.record m).reserving = none ∧
        (t.record m).lockoutPending = false ∧
        ((s.record m).lockoutPending = false → (t.record m).state = (if (s.record m).silent then .offline else .idle) ∧
          t.faults m = { s.faults m with openMark := false }) ∧
        ((s.record m).lockoutPending = true → (t.record m).state = .outOfService ∧
          t.faults m = { s.faults m with
            current := (s.faults m).current.map fun c => { c with payer := some o.serial, refund := some o.charge } }) ∧
        LineShows t st (.decline (if s.sst.roomMode = .closed then .roomClosed else .machineOut)
          (if 99999 < o.newBalance then 0 else o.newBalance)) ∧
        ChangesOnly [.msv, .mbc, .fba, .pay, .cru, .flm, .jrn, .evu, .out] s t)

/-- R88, R17, R119, R122: DONE for a top-up writes the TOPUP record and settles the card's tables. Where the session takes it, in
ARMED, STARTING or RUNNING, charge and minutes join the session, two reservations are returned and the RECEIPT is sent; where it
does not, the session stands, the charge is credited to the card as a refused top-up, and the DECLINE is MACHINE_BUSY. The
model's own part in it: log entries 30, 53 and 57. -/
def Obligations.ResultDoneTopsUp : Prop :=
  ∀ st (msg : ResultMsg) o s, s.phase = .running → (s.exchange st).order = some o → s.BooksReady → o.ptype = .topup →
    msg.order.toNat = o.number → msg.outcome = 0#8 → msg.counter.map (·.toNat) = some o.newCounter →
    ∃ t, exec (.result st msg) s = .next t ∧
      let m := o.machine
      let u := s.settled o .topup 0
      t.evu.isSet .topup = true ∧ t.exchange st = { s.exchange st with order := none } ∧
      t.exchange (otherStation st) = s.exchange (otherStation st) ∧ t.pay.halted = s.pay.halted ∧
      (∀ k, k ≠ m → t.record k = s.record k) ∧
      (∀ z, TakesTopup (s.record m) z o.serial →
        t.cru = u.cru ∧ t.jrn = (s.settled o .topup 2).jrn ∧
        t.record m = { s.record m with
          session := some { z with
            total := z.total + o.charge, value := z.value + o.charge
            minutes := some (z.minutes.getD 0 + o.minutes.getD 0), purchases := z.purchases + 1 } } ∧
        LineShows t st (.receiptDryer m (o.minutes.getD 0) (z.minutes.getD 0 + o.minutes.getD 0))) ∧
      ((∀ z, ¬TakesTopup (s.record m) z o.serial) →
        (0 < o.charge → t.cru = (creditSerial .topupRefused o.serial o.charge (addrNumber m) u).cru ∧
          t.jrn = (creditSerial .topupRefused o.serial o.charge (addrNumber m) u).jrn) ∧
        (o.charge = 0 → t.cru = u.cru ∧ t.jrn = (s.settled o .topup 2).jrn) ∧ t.record m = s.record m ∧
        LineShows t st (.decline .machineBusy (if 99999 < o.newBalance then 0 else o.newBalance))) ∧
      ChangesOnly [.msv, .pay, .cru, .jrn, .evu, .out] s t

/-- R89, R105, R122: DONE for a credit-only order writes CREDIT_APPLIED with an amount of 0, settles the card's tables, returns
two reservations and declines INSUFFICIENT with the new balance; no machine is touched. The record names the machine of the
PURCHASE (the model's choice, log entry 52). The model's own part in it: log entries 30, 52 and 53. -/
def Obligations.ResultDoneCredits : Prop :=
  ∀ st (msg : ResultMsg) o s, s.phase = .running → (s.exchange st).order = some o → s.BooksReady → o.ptype = .creditOnly →
    o.charge = 0 → msg.order.toNat = o.number → msg.outcome = 0#8 → msg.counter.map (·.toNat) = some o.newCounter →
    ∃ t, exec (.result st msg) s = .next t ∧ t.cru = (s.settled o .creditApplied 2).cru ∧
      t.jrn = (s.settled o .creditApplied 2).jrn ∧ t.exchange st = { s.exchange st with order := none } ∧
      t.exchange (otherStation st) = s.exchange (otherStation st) ∧ t.pay.halted = s.pay.halted ∧
      LineShows t st (.decline .insufficient (if 99999 < o.newBalance then 0 else o.newBalance)) ∧
      ChangesOnly [.pay, .cru, .jrn, .evu, .out] s t

/-- R90, R91, R82, R122, R125, R8: a TORN outcome, a DONE whose counter is not the one ordered, or the expiry of the result timer
makes the order a pending debit: DEBIT_UNCERTAIN is written with its cause, and the entry that describes the order stands at the
newest end, new, or in place of the one that the purchase had resolved and that is then settled; credit folded is pledged to it.
In a full table the oldest entry not in flight makes room. A machine reserved for the order is freed, for OUT_OF_SERVICE where a
lockout was pending, and only the wrong counter sends a message. While the clock is UNSET the entry's day is absent (the model's
choice, log entry 23). The model's own part in it: log entries 1, 23, 30 and 53. -/
def Obligations.UncertainMakesPending : Prop :=
  ∀ c cause st o s, s.phase = .running → (s.exchange st).order = some o → s.BooksReady →
    ((∃ msg : ResultMsg, c = .result st msg ∧ msg.order.toNat = o.number ∧ msg.outcome = 1#8 ∧ msg.counter = none ∧
        cause = .torn) ∨
      (∃ (msg : ResultMsg) (k : Word16), c = .result st msg ∧ msg.order.toNat = o.number ∧ msg.outcome = 0#8 ∧
        msg.counter = some k ∧ k.toNat ≠ o.newCounter ∧ cause = .counter) ∨
      (c = .resultTimerExpiry st ∧ o.timer = 0 ∧ cause = .timeout)) →
    ∃ t, exec c s = .next t ∧
      let other := (s.exchange (otherStation st)).order
      t.cru = (s.uncertain o cause other).cru ∧ t.jrn = (s.uncertain o cause other).jrn ∧
      t.evu.isSet .debitUncertain = true ∧ (0 < o.back → t.evu.isSet .refundCredited = true) ∧
      t.evu.isSet .debitUnresolved = ((s.evictedFor o other).isSome || s.evu.isSet .debitUnresolved) ∧
      t.exchange st = { s.exchange st with order := none } ∧
      t.exchange (otherStation st) = s.exchange (otherStation st) ∧ t.pay.halted = s.pay.halted ∧
      (o.ptype = .new → (s.record o.machine).state = .reserved → Freed s t o.machine) ∧
      (o.ptype ≠ .new ∨ (s.record o.machine).state ≠ .reserved → t.msv = s.msv) ∧
      (cause = .counter →
        LineShows t st (.decline .cardInvalid (if 99999 < o.balanceRead then 0 else o.balanceRead))) ∧
      (cause ≠ .counter → t.out = s.out) ∧
      ChangesOnly [.msv, .pay, .cru, .flm, .jrn, .evu, .out] s t

/-- R92, R8, R23, R86, R75, R93: a FAILED outcome returns the three reservations, releases the hold, frees a machine reserved for
the order, for OUT_OF_SERVICE where a lockout was pending and as OFFLINE where its node is silent, and makes the exchange IDLE;
no record is written, the pending debits stand and nothing is sent. A RESULT at an IDLE exchange, or with another order number,
is late and counted; a discarded message is counted as a line error; neither changes anything else, and a CANCEL changes nothing
at all. The model's own part in it: log entry 38. -/
def Obligations.ResultFailedOrLate : Prop :=
  (∀ st (msg : ResultMsg) o s, s.phase = .running → (s.exchange st).order = some o → msg.order.toNat = o.number →
    msg.outcome = 2#8 → msg.counter = none →
    ∃ t, exec (.result st msg) s = .next t ∧
      t.jrn = { s.jrn with reservations := s.jrn.reservations - 3 } ∧
      t.cru = { s.cru with refunds := s.cru.refunds.map fun e =>
        if e.serial = o.serial ∧ e.hold = some st then { e with hold := none } else e } ∧
      t.exchange st = { s.exchange st with order := none } ∧
      (o.ptype = .new → (s.record o.machine).state = .reserved → Freed s t o.machine) ∧
      (o.ptype ≠ .new → t.msv = s.msv) ∧ ChangesOnly [.msv, .pay, .cru, .flm, .jrn, .evu] s t) ∧
  (∀ st (msg : ResultMsg) s, s.phase = .running → msg.codesListed = true →
    (∀ o, (s.exchange st).order = some o → o.number ≠ msg.order.toNat) →
    ∃ t, exec (.result st msg) s = .next t ∧
      t.exchange st = { s.exchange st with lates := min 65535 ((s.exchange st).lates + 1) } ∧
      t.exchange (otherStation st) = s.exchange (otherStation st) ∧ t.pay.halted = s.pay.halted ∧ ChangesOnly [.pay] s t) ∧
  (∀ st s, exec (.cancel st) s = .next s) ∧
  ∀ st c s, s.phase = .running →
    (c = .stationMessageDiscarded st ∨ (∃ msg, c = .purchase st msg ∧ msg.codesListed = false) ∨
      (∃ msg, c = .result st msg ∧ msg.codesListed = false)) →
    ∃ t, exec c s = .next t ∧
      t.exchange st = { s.exchange st with lineErrors := min 65535 ((s.exchange st).lineErrors + 1) } ∧
      t.exchange (otherStation st) = s.exchange (otherStation st) ∧ t.pay.halted = s.pay.halted ∧ ChangesOnly [.pay] s t

/-! ## The machine bus -/

/-- R30, R40, R41, R43, R45: a beacon carries the next number and the first two entries that may go, each with its address,
command and tag; an entry sent has its send count raised. A first send gives the entry its tag, the node's counter of its class plus
one, with 255 followed by 1, and one more where that equals the last echo (which wraps too, log entry 37), and the counter keeps it;
later sends keep the tag and the counters. An ASSIGN leaves the queue and opens its answer window. The last slot's outcome
stands taken. The model's own part in it: log entries 6, 30, 33 and 37. -/
def Obligations.BeaconSends : Prop :=
  ∀ s, s.phase = .running → s.SlotDone → s.QueuePlaces → ∃ t, exec .beacon s = .next t ∧
    let chosen := (s.mbc.queue.filter fun e => match e.command with
      | .assign => s.mbc.discovery.window == 0
      | _ => (s.node e.addr).heard && !(s.node e.addr).silentMark && decide (e.sends < 3)).take 2
    let next := fun n : Nat => if n < 255 then n + 1 else 1
    let given := fun counter echo : Nat => if next counter = echo then next (next counter) else next counter
    t.mbc.beacons = (if s.mbc.beacons < 65535 then s.mbc.beacons + 1 else 0) ∧ t.mbc.periodOpen = true ∧
    (∃ f, t.out = { s.out with beacon := some f } ∧ f.number = t.mbc.beacons ∧
      f.entries.map (fun x => (x.1, x.2.1)) = chosen.map (fun e => (e.addr, e.command)) ∧
      ∀ x ∈ f.entries, x.2.1 ≠ .assign → ∃ e ∈ t.mbc.queue, e.addr = x.1 ∧ e.command = x.2.1 ∧ e.tag = some x.2.2) ∧
    (∀ e ∈ chosen, e.command ≠ .assign → ∃ e' ∈ t.mbc.queue,
      e'.addr = e.addr ∧ e'.command = e.command ∧ e'.owner = e.owner ∧ e'.sends = e.sends + 1 ∧ e'.sentNow = true ∧
      (e.tag ≠ none → e'.tag = e.tag) ∧
      (e.tag = none → e'.tag = (match e.command.cls with
        | some .level => some (given (s.node e.addr).lvlTag (s.node e.addr).lvlEcho)
        | _ => some (given (s.node e.addr).ctlTag (s.node e.addr).ctlEcho)))) ∧
    (∀ m, let first := fun c => chosen.any fun e => e.fills m c && e.tag.isNone
      t.node m = { s.node m with
        ctlTag := if first .control then given (s.node m).ctlTag (s.node m).ctlEcho else (s.node m).ctlTag
        lvlTag := if first .level then given (s.node m).lvlTag (s.node m).lvlEcho else (s.node m).lvlTag }) ∧
    (∀ e ∈ chosen, e.command = .assign →
      (∀ x ∈ t.mbc.queue, x.command ≠ .assign) ∧ t.mbc.discovery.window = 2) ∧
    (∀ e ∈ s.mbc.queue, e.command ≠ .assign → e ∉ chosen → e ∈ t.mbc.queue) ∧ ChangesOnly [.mbc, .out] s t

/-- R31, R35, R37, R45, R48: what a slot without a valid report, and the close of the period, do to the counts: a malformed report
and a check error are counted and occupy the slot during a discovery, any but a check error ends the run of check errors, and the
close counts a missed beacon for each address that holds an address and was not heard. Here the last slot's outcome stands taken
(R30; ReportBringsMachineIn). These clauses are the model's choice, by log entry 1: a third check error in a row with the clash
mark clear leaves the count at 3 and the clash owed, where R37 has MBC act at once, and ADDRESS_CLASH, or else the next slot or the
close of the period, then takes the steps of R37 (log entry 6); PERIOD_CLOSE leaves a missed count of 8 without its notice, an
entry sent three times in the queue, and a scan count of 8 not complete, which SILENCE_NOTICE, CMD_LOST and
FIRST_SLOT_SCAN_COMPLETE then take up; and the slot events and PERIOD_CLOSE act whenever the part runs. The model's own part in it:
log entries 1, 6, 33, 34 and 38. -/
def Obligations.SlotsAndPeriodCounted : Prop :=
  (∀ c slot s, s.phase = .running → s.SlotDone →
    (c = .malformedReport slot ∨ (∃ rep, c = .validReport slot rep ∧ decodeReport slot rep = none)) →
    ∃ t, exec c s = .next t ∧
      t.mbc.nodes = s.mbc.nodes.put slot
        { s.node slot with errorRun := 0, malformed := min 65535 ((s.node slot).malformed + 1) } ∧
      (s.mbc.discovery.active = true → slot ∈ t.mbc.discovery.occupied) ∧ ChangesOnly [.mbc] s t) ∧
  (∀ slot s, s.phase = .running → s.SlotDone → ∃ t, exec (.checkError slot) s = .next t ∧
      t.mbc.nodes = s.mbc.nodes.put slot
        { s.node slot with
          errors := min 65535 ((s.node slot).errors + 1)
          errorRun := if 2 ≤ (s.node slot).errorRun then (if (s.node slot).clash then 0 else 3)
            else (s.node slot).errorRun + 1
          clashOwed := decide (2 ≤ (s.node slot).errorRun) && !(s.node slot).clash } ∧
      (s.mbc.discovery.active = true → slot ∈ t.mbc.discovery.occupied) ∧ ChangesOnly [.mbc] s t) ∧
  (∀ slot s, s.phase = .running → s.SlotDone → ∃ t, exec (.emptySlot slot) s = .next t ∧
      t.mbc = { s.mbc with nodes := s.mbc.nodes.put slot { s.node slot with errorRun := 0 } } ∧ ChangesOnly [.mbc] s t) ∧
  ∀ s, s.phase = .running → s.SlotDone → ∃ t, exec .periodClose s = .next t ∧
    (∀ m, t.node m = { s.node m with
      missed := if (s.node m).known = false then 0 else if (s.node m).heardNow then (s.node m).missed
        else min 255 ((s.node m).missed + 1)
      heardNow := false }) ∧
    t.mbc.queue = s.mbc.queue.map (fun e => { e with sentNow := false }) ∧
    t.mbc.discovery = { s.mbc.discovery with
      fresh := false
      window := if s.mbc.discovery.fresh then s.mbc.discovery.window else s.mbc.discovery.window - 1 } ∧
    (s.mbc.scanComplete = false → s.mbc.scanSkip = false → s.mbc.discovery.active = false →
      t.mbc.scanCount = min 8 (s.mbc.scanCount + 1)) ∧
    (s.mbc.scanComplete = true ∨ s.mbc.scanSkip = true → t.mbc.scanCount = s.mbc.scanCount) ∧
    t.mbc.periodOpen = false ∧ t.mbc.scanComplete = s.mbc.scanComplete ∧ t.mbc.beacons = s.mbc.beacons ∧
    ChangesOnly [.mbc] s t

/-! ## Valid reports -/

/-- R3, R4, R5, R7, R19, R21, R25, R30, R32, R34 to R36, R55: a valid report of a machine that no session stands on stores the door
and the kind (in RESERVED a kind only where none was held), ends a silence, in the record and in the silent mark, makes the address
KNOWN and has FBA store the levels. An ABSENT or OFFLINE record becomes IDLE whatever the node state; with the door OPEN so do a
DONE and a FAULTED one; IDLE, RESERVED and OUT_OF_SERVICE stand. For N_ARMED and N_START DISARM is queued, and for N_RUN
STOP(abort), but not in RESERVED, where a report leaves the state (R7) and calls for none. No command waits for the node, no
discovery runs here, and N_FAULT, with its fault code, stands in statements of its own. A report that is the third to repeat the
keep-alive count is heard and acknowledged only, and stays in hand until NODE_STALE has gone to FLM (R32 step 5). A beacon, a slot
event, the close of the period and what ends the run find such a report taken to its end, and a clash or an excess that a slot left
owed with FLM, whether or not the rows for them came before (R30): each acts as it would after those rows. The model's own part in
it: log entry 6. -/
def Obligations.ReportBringsMachineIn : Prop :=
  (∀ slot rep r s, ReportTaken s slot rep r → r.state ≠ .nFault →
    (match (s.record slot).state with
      | .absent | .offline | .idle | .reserved | .done | .faulted | .outOfService => True
      | .armed | .starting | .running | .aborting | .recovering => False) →
    (∀ e ∈ s.mbc.queue, e.addr ≠ slot) → s.mbc.discovery.active = false →
    ∃ t, exec (.validReport slot rep) s = .next t ∧
      let x := s.record slot
      let freed := (x.state = .done ∨ x.state = .faulted) ∧ r.door = .opened
      let enters := x.state = .absent ∨ x.state = .offline ∨ freed
      t.record slot = { x.withReport r with
        state := if enters then .idle else x.state
        unloadTimer := if enters then 0 else x.unloadTimer
        kind := if x.state = .reserved ∧ x.kind ≠ none then x.kind else some r.kind } ∧
      t.mbc.queue.map (fun e => (e.addr, e.command)) = s.mbc.queue.map (fun e => (e.addr, e.command)) ++
        (if x.state = .reserved then [] else match r.state with
          | .nArmed | .nStart => [(slot, BusCommand.disarm)]
          | .nRun => [(slot, BusCommand.stop true)]
          | _ => []) ∧
      (t.node slot).known = true ∧ (t.node slot).kind = some r.kind ∧ (t.node slot).heard = true ∧
      (t.node slot).heardNow = true ∧ (t.node slot).missed = 0 ∧ (t.node slot).errorRun = 0 ∧ (t.node slot).clash = false ∧
      (t.node slot).silentMark = false ∧ (t.node slot).lastKeep = some r.keepAlive ∧ (t.node slot).ctlEcho = r.ctlTag ∧
      (t.node slot).lvlEcho = r.lvlTag ∧ (t.node slot).lastFault = none ∧
      (t.grant slot).wanted = some (r.wanted, r.wantedFill) ∧ (t.grant slot).actual = some (r.actual, r.actualFill) ∧
      (t.grant slot).granted = (s.grant slot).granted ∧
      t.flm = s.flm.put slot { s.faults slot with openMark := (s.faults slot).openMark && !decide enters } ∧
      (∀ k, k ≠ slot → t.record k = s.record k ∧ t.node k = s.node k ∧ t.grant k = s.grant k) ∧
      ChangesOnly [.msv, .mbc, .fba, .flm] s t) ∧
  (∀ slot rep r s, s.phase = .running → decodeReport slot rep = some r → s.SlotDone →
    (s.node slot).lastKeep = some r.keepAlive → 2 ≤ (s.node slot).staleRun →
    ∃ t, exec (.validReport slot rep) s = .next t ∧ (t.node slot).inHand = some r ∧ (t.node slot).staleRun = 0 ∧
      (t.node slot).heardNow = true ∧ (∀ k, (t.record k).state = (s.record k).state) ∧
      ChangesOnly [.msv, .mbc, .fba] s t) ∧
  ∀ c s, s.phase = .running → s.findsSlotDone c →
    ∃ u, Leads slotRows s u ∧ u.phase = .running ∧ u.SlotDone ∧ exec c s = exec c u

/-- R42, R9, R71, R3: a valid report acknowledges each command that was sent to its node at least once and whose tag it echoes:
the command leaves the queue, an ARM so taken is marked in the session, a GRANT so taken is no longer pending, and the echoes are
stored. Here the report is N_ARMED and the record ARMED, which changes nothing else but the door and a silence. -/
def Obligations.ReportAcknowledges : Prop :=
  ∀ slot rep r z s, ReportTaken s slot rep r → s.QueuePlaces → s.mbc.discovery.active = false → r.state = .nArmed →
    (s.record slot).state = .armed → (s.record slot).session = some z → (s.record slot).kind = some r.kind →
    ∃ t, exec (.validReport slot rep) s = .next t ∧
      let taken := fun e : BusEntry => e.addr = slot ∧ 0 < e.sends ∧
        ((e.command.cls = some .control ∧ e.tag = some r.ctlTag) ∨ (e.command.cls = some .level ∧ e.tag = some r.lvlTag))
      (∀ e, e ∈ t.mbc.queue ↔ e ∈ s.mbc.queue ∧ ¬taken e) ∧
      (∀ e ∈ s.mbc.queue, taken e → ∀ p o, e.command = .arm p o →
        t.record slot = { (s.record slot).withReport r with session := some { z with armAcked := true } }) ∧
      ((∀ e ∈ s.mbc.queue, taken e → ∀ p o, e.command ≠ .arm p o) → t.record slot = (s.record slot).withReport r) ∧
      (∀ e ∈ s.mbc.queue, taken e → ∀ l f, e.command = .grant l f → (t.grant slot).pending = false) ∧
      ((∀ e ∈ s.mbc.queue, taken e → ∀ l f, e.command ≠ .grant l f) → (t.grant slot).pending = (s.grant slot).pending) ∧
      (t.node slot).ctlEcho = r.ctlTag ∧ (t.node slot).lvlEcho = r.lvlTag ∧
      (∀ k, k ≠ slot → t.record k = s.record k ∧ t.node k = s.node k ∧ t.grant k = s.grant k) ∧
      ChangesOnly [.msv, .mbc, .fba] s t

/-- R9, R11, R13, R14, R15, R55, R58 to R61, R63, R68: in ARMED a report that the node has not kept the arming has ARM queued again
where the last was acknowledged; N_START or N_RUN leads to STARTING, with HOLD queued, the start-wait timer loaded, the start-window
timer standing and, while OVER_BUDGET holds the queue, a START entry at the tail. In STARTING a report that the node has given up
leads back to ARMED, with the entry gone, and N_START or N_RUN of a record that has no START entry, since a silence or the recovery
window took it, asks for one anew at the tail. Where nothing else waits an entry that fits is granted at once: a washer BASE with
fill, here where it wants just that, and RUNNING with its guard timer loaded; a dryer the highest level from what it wants downward
that fits, and RUNNING with its block timer loaded, with a RAISE entry for what it wants where that is higher, and on hold where the
level is AIR; where not even AIR fits its entry stands. No command waits for the node. That the entry bears the arrival counter's
present value, and that the start time is absent while the clock is UNSET, is the model's reading (log entries 9 and 23). The
model's own part in it: log entries 9, 23 and 41. -/
def Obligations.ReportArmsAndStarts : Prop :=
  ∀ slot rep r z s, ReportTaken s slot rep r → s.mbc.discovery.active = false → (∀ e ∈ s.mbc.queue, e.addr ≠ slot) →
    (s.record slot).session = some z → (s.record slot).kind = some r.kind → z.figures.kind = r.kind →
    ∃ t, exec (.validReport slot rep) s = .next t ∧
      let x := (s.record slot).withReport r
      let notKept := r.state = .nIdle ∨ r.state = .nEnd ∨ r.state = .nStopped
      let starts := r.state = .nStart ∨ r.state = .nRun
      ((s.record slot).state = .armed → notKept →
        (z.armAcked = true → t.record slot = { x with session := some { z with armAcked := false } } ∧
          Commanded t slot (.arm z.program z.option)) ∧
        (z.armAcked = false → t.record slot = x ∧ t.mbc.queue = s.mbc.queue)) ∧
      ((s.record slot).state = .armed → starts → s.fba.overBudget = true → s.fba.beff < s.fba.committed →
        s.fba.hasStart slot = false →
        t.record slot = { x with
          state := .starting, session := some { z with startWait := s.sst.working.limits.startWait * 60 } } ∧
        Commanded t slot .hold ∧ t.fba.raises = s.fba.raises ∧
        t.fba.starts = s.fba.starts ++
          [{ machine := slot, level := if r.kind = .washer then .base else r.wanted, fill := decide (r.kind = .washer)
             arrival := s.fba.arrivals, timer := 0 }]) ∧
      ((s.record slot).state = .starting → notKept ∨ r.state = .nArmed →
        (t.record slot).state = .armed ∧ t.fba.hasStart slot = false ∧ t.fba.hasRaise slot = false ∧
        (t.record slot).session = some { z with startWait := 0, armAcked := z.armAcked && decide (r.state = .nArmed) } ∧
        (z.armAcked = true → notKept → Commanded t slot (.arm z.program z.option))) ∧
      ((s.record slot).state = .starting → starts → s.fba.overBudget = true → s.fba.beff < s.fba.committed →
        s.fba.hasStart slot = false →
        t.record slot = x ∧ t.mbc.queue = s.mbc.queue ∧ t.fba.raises = s.fba.raises ∧
        t.fba.starts = s.fba.starts ++
          [{ machine := slot, level := if r.kind = .washer then .base else r.wanted, fill := decide (r.kind = .washer)
             arrival := s.fba.arrivals, timer := 0 }]) ∧
      ((s.record slot).state = .armed ∨ (s.record slot).state = .starting → starts →
        s.fba.overBudget = false → s.fba.raises = [] → s.fba.starts = [] →
        s.grant slot = { GrantEntry.empty with wanted := (s.grant slot).wanted, actual := (s.grant slot).actual } →
        ∀ rate air low high, z.figures = .dryer rate air low high →
          let draws := LevelDraws.dryer air low high
          let fits := fun y : Level => y.rank ≤ r.wanted.rank ∧ s.fba.committed + draws.draw y ≤ s.fba.beff
          ((s.record slot).state = .armed → Commanded t slot .hold) ∧
          ((∀ y : Level, y.kind = .dryer → ¬fits y) →
            (t.record slot).state = .starting ∧ (t.grant slot).granted = none ∧ t.fba.raises = [] ∧
            t.fba.starts =
              [{ machine := slot, level := r.wanted, fill := false, arrival := s.fba.arrivals, timer := 0 }]) ∧
          ∀ y : Level, y.kind = .dryer → fits y → (∀ u : Level, u.kind = .dryer → y.rank < u.rank → ¬fits u) →
            t.record slot = { x with
              state := .running
              session := some { z with
                startWait := 0, startWindow := 0, startTime := s.stamp, runClock := 0, guardTimer := 0, blockTimer := 60 } } ∧
            (t.grant slot).granted = some y ∧ (t.grant slot).fill = false ∧ (t.grant slot).draw = draws.draw y ∧
            (t.grant slot).draws = some draws ∧ (t.grant slot).pending = true ∧ Levelled t slot y false ∧
            t.fba.startList = s.fba.startList ++ [slot] ∧ t.fba.starts = [] ∧
            t.fba.raises = (if y = r.wanted then []
              else [{ machine := slot, level := r.wanted, fill := false
                      arrival := if s.fba.arrivals < 65535 then s.fba.arrivals + 1 else 0
                      timer := s.sst.working.limits.raiseWait * 60 }]) ∧
            t.onHold slot = decide (y = .air ∧ r.wanted ≠ .air) ∧
            t.fba.committed = s.fba.committed + draws.draw y) ∧
      ∀ planned base heat, (s.record slot).state = .armed ∨ (s.record slot).state = .starting → starts →
        z.figures = .washer planned base heat → s.fba.overBudget = false → s.fba.raises = [] → s.fba.starts = [] →
        s.grant slot = { GrantEntry.empty with wanted := (s.grant slot).wanted, actual := (s.grant slot).actual } →
        (∀ w, (s.grant slot).wanted = some w → w = (.base, true)) → r.wanted = .base → r.wantedFill = true →
        s.fba.committed + base ≤ s.fba.beff → s.fba.fillCount < s.sst.working.limits.fillSlots →
        t.record slot = { x with
          state := .running
          session := some { z with
            startWait := 0, startWindow := 0, startTime := s.stamp, runClock := 0, blockTimer := 0
            guardTimer := (planned + s.sst.working.limits.guardMargin) * 60 } } ∧
        (t.grant slot).granted = some .base ∧ (t.grant slot).fill = true ∧ (t.grant slot).draw = base ∧
        (t.grant slot).pending = true ∧ Levelled t slot .base true ∧ t.fba.startList = s.fba.startList ++ [slot] ∧
        t.fba.starts = [] ∧ t.fba.raises = [] ∧ t.fba.committed = s.fba.committed + base

/-- R18, R157: a valid report of N_END, N_IDLE or N_STOPPED from a RUNNING machine ends the session: the grant is released,
CYCLE_END is asked for with value consumed equal to the total, both reservations are returned, the STOP count is 0 and the record
is DONE with its unload timer. The model's own part in it: log entry 10. -/
def Obligations.ReportEndsRun : Prop :=
  ∀ slot rep r z s, ReportTaken s slot rep r → r.state = .nEnd ∨ r.state = .nIdle ∨ r.state = .nStopped →
    (s.record slot).state = .running → (s.record slot).session = some z → (s.record slot).kind = some r.kind →
    (s.grant slot).granted ≠ none →
    ∃ t, exec (.validReport slot rep) s = .next t ∧
      (t.record slot).state = .done ∧ (t.record slot).unloadTimer = 1800 ∧ (t.record slot).session = none ∧
      (t.grant slot).granted = none ∧ (t.grant slot).draw = 0 ∧ (t.grant slot).fill = false ∧ slot ∉ t.fba.startList ∧
      t.fba.hasStart slot = false ∧ t.fba.hasRaise slot = false ∧
      (0 < s.jrn.free → t.jrn =
        let written := s.jrn.append s.stamp
          { kind := .cycleEnd, machine := addrNumber slot, serial := some z.payer, amount := some z.total }
        { written with reservations := s.jrn.reservations - 2 }) ∧
      (s.jrn.free = 0 → t.jrn = { s.jrn with
        overflow := min 65535 (s.jrn.overflow + 1), reservations := s.jrn.reservations - 2 }) ∧
      t.evu.isSet .cycleEnd = true ∧ (t.faults slot).stopCount = 0 ∧
      ChangesOnly [.msv, .mbc, .fba, .flm, .jrn, .evu] s t

/-- R21, R4, R146, R20: in ABORTING a report that the node has stopped releases the grant and leads to the stop destination,
FAULTED or OUT_OF_SERVICE, and any other but N_FAULT has STOP(abort) queued again; no START entry stands for such a machine
(R57). A report of another kind than the paid session's, in ARMED, STARTING or RUNNING, or in RECOVERING with one of these retained,
which it is found in then (R27), ends the session with its refund as a primary without a kind, of the cause KIND_CHANGED; it stores
no kind, counts nothing and writes a FAULT record. -/
def Obligations.ReportStopsOrAborts : Prop :=
  (∀ slot rep r s, ReportTaken s slot rep r → (s.record slot).state = .aborting → s.fba.hasStart slot = false →
    ∃ t, exec (.validReport slot rep) s = .next t ∧
      let stopped := r.state = .nStopped ∨ r.state = .nEnd ∨ r.state = .nIdle
      (stopped →
        (t.record slot).state = (if (s.record slot).stopDest = some .outOfService then .outOfService else .faulted) ∧
        (t.record slot).stopDest = none ∧ (t.grant slot).granted = none ∧
        ((s.grant slot).granted ≠ none →
          (t.grant slot).draw = 0 ∧ (t.grant slot).fill = false ∧ slot ∉ t.fba.startList) ∧
        t.fba.hasStart slot = false ∧ t.fba.hasRaise slot = false) ∧
      (¬stopped → r.state ≠ .nFault →
        (t.record slot).state = .aborting ∧ (t.record slot).stopDest = (s.record slot).stopDest ∧
        Commanded t slot (.stop true) ∧ (t.grant slot).granted.isSome = (s.grant slot).granted.isSome) ∧
      (r.state ≠ .nFault → t.jrn = s.jrn ∧ t.cru = s.cru)) ∧
  ∀ slot rep r z k x s, ReportTaken s slot rep r → r.state ≠ .nFault → (s.record slot).session = some z →
    (s.record slot).standsIn x → x = .armed ∨ x = .starting ∨ x = .running →
    (s.record slot).kind = some k → k ≠ r.kind →
    ∃ t, exec (.validReport slot rep) s = .next t ∧
      let running := x = .running
      let refund := if running then z.refund .running s.sst.working.limits.grace else z.total
      SessionGone s t slot z.payer refund ∧ (t.record slot).state = (if running then .aborting else .faulted) ∧
      (running → (t.record slot).stopDest = some .faulted) ∧ (t.record slot).kind = some k ∧
      (t.record slot).retained = (if (s.record slot).state = .recovering then none else (s.record slot).retained) ∧
      Commanded t slot (if running then .stop true else .disarm) ∧
      t.faults slot = { s.faults slot with
        current := some
          { kind := none, cause := .kindChanged, severity := .stop, escalated := false, stamp := s.stamp
            state := x, payer := some z.payer, refund := some refund, secondary := none }
        openMark := true } ∧
      TookFree (s.refunded slot z.payer refund) t
        { kind := .fault, machine := addrNumber slot, serial := some z.payer, amount := some refund
          detail := .kindChanged } ∧
      t.evu.isSet .fault = true

/-- R27, R10, R18, R22, R146: a RECOVERING record resolves on a valid report by its retained state and the node state: a run goes
on, ends as DONE or IDLE, or is found lost and aborted with its refund; a session that had not begun comes back ARMED with its
start window anew, with ARM queued again where the node has not kept it, or enters STARTING, and in a CLOSED room is disarmed at
once with a full refund. N_FAULT restores the retained state; here its code has been handed to FLM before. OVER_BUDGET holds the
queue where a START entry joins it. No command waits for the node, and no START entry of it stands (R57). The model's own part in
it: log entries 9 and 36. -/
def Obligations.ReportResolvesRecovery : Prop :=
  ∀ slot rep r (x : Retained) z s, ReportTaken s slot rep r → s.mbc.discovery.active = false →
    (∀ e ∈ s.mbc.queue, e.addr ≠ slot) → (s.record slot).state = .recovering → (s.record slot).retained = some x →
    (s.record slot).session = some z → (s.record slot).kind = some r.kind → z.figures.kind = r.kind →
    (r.state = .nFault → (s.node slot).lastFault = r.fault) → s.fba.hasStart slot = false →
    ∃ t, exec (.validReport slot rep) s = .next t ∧
      let y := { (s.record slot).withReport r with retained := none }
      let minute := s.sst.working.limits.startWindow * 60
      let starts := r.state = .nStart ∨ r.state = .nRun
      (x = .running → r.state = .nRun ∨ r.state = .nFault →
        t.record slot = { y with state := .running } ∧ t.jrn = s.jrn ∧ t.cru = s.cru) ∧
      (x = .running → r.state = .nEnd ∨ r.state = .nIdle ∨ r.state = .nStopped →
        (t.record slot).state = (if r.state = .nEnd then .done else .idle) ∧
        (t.record slot).unloadTimer = (if r.state = .nEnd then 1800 else 0) ∧ (t.record slot).session = none ∧
        (t.record slot).retained = none ∧ (t.grant slot).granted = none ∧
        ((s.grant slot).granted ≠ none → (t.grant slot).draw = 0 ∧ slot ∉ t.fba.startList) ∧
        t.evu.isSet .cycleEnd = true ∧ (t.faults slot).stopCount = 0 ∧ t.cru = s.cru) ∧
      (x = .running → r.state = .nArmed ∨ r.state = .nStart →
        let refund := z.refund .running s.sst.working.limits.grace
        SessionGone s t slot z.payer refund ∧ (t.record slot).state = .aborting ∧
        (t.record slot).stopDest = some .faulted ∧ Commanded t slot (.stop true) ∧
        t.faults slot = { s.faults slot with
          current := some
            { kind := none, cause := .runLost, severity := .stop, escalated := false, stamp := s.stamp, state := .running
              payer := some z.payer, refund := some refund, secondary := none }
          openMark := true } ∧
        TookFree (s.refunded slot z.payer refund) t
          { kind := .fault, machine := addrNumber slot, serial := some z.payer, amount := some refund, detail := .runLost } ∧
        t.evu.isSet .fault = true) ∧
      (x ≠ .running → s.sst.roomMode = .closed →
        SessionGone s t slot z.payer z.total ∧ (t.record slot).state = .idle ∧ Commanded t slot .disarm ∧
        t.jrn = (s.refunded slot z.payer z.total).jrn ∧ t.flm = s.flm.put slot { s.faults slot with openMark := false }) ∧
      (x ≠ .running → s.sst.roomMode ≠ .closed →
        (r.state = .nArmed →
          t.record slot = { y with state := .armed, session := some { z with startWindow := minute, startWait := 0 } } ∧
          t.mbc.queue = s.mbc.queue) ∧
        (r.state = .nIdle ∨ r.state = .nEnd ∨ r.state = .nStopped →
          t.record slot =
            { y with state := .armed, session := some { z with startWindow := minute, startWait := 0, armAcked := false } } ∧
          Commanded t slot (.arm z.program z.option)) ∧
        (starts → s.fba.overBudget = true → s.fba.beff < s.fba.committed →
          t.record slot =
            { y with
              state := .starting, session := some { z with startWait := s.sst.working.limits.startWait * 60 } } ∧
          Commanded t slot .hold ∧
          t.fba.starts = s.fba.starts ++
            [{ machine := slot, level := if r.kind = .washer then .base else r.wanted, fill := decide (r.kind = .washer)
               arrival := s.fba.arrivals, timer := 0 }]) ∧
        (r.state = .nFault → t.record slot = { y with state := x.state }))

/-- R69, R27, R55, R63, R65, R71: a report for a machine whose grant is held silent rebuilds it: the granted level becomes the
actual level where that is no higher, fill stays where the node reports it, the draw is found again and the mark is cleared. In
RUNNING the rebuilt level and fill go out as GRANT; here the node wants no more than that and the budget holds. In ABORTING no
level command is queued. A report of another kind than the grant's rebuilds nothing. A running dryer whose grant has been rebuilt
is on hold exactly where it is left at AIR and wants more, as after a reset that kept it at AIR (log entry 41). No admission-queue
entry of the machine stands, since R68 and R73 have removed it. A report of a RUNNING machine whose grant is not held silent has a
decrease taken at once, while OVER_BUDGET is declared too; an increase still wanted joins the tail of the RAISE group, or sets the
target of the machine's RAISE entry in place, and a RAISE entry for which none is wanted goes; where nothing else waits the entry
is granted at once if it fits (R59, R62). On each report of N_RUN the excess run rises, or is 0, by R72, and DRAW_EXCESS is owed as
it reaches 2 and 10; that the two are then given to FLM by rows of their own, before the next slot at the latest, is the model's
choice (log entry 6). The model's own part in it: log entries 6, 9 and 41. -/
def Obligations.ReportRebuildsGrant : Prop :=
  (∀ slot rep r g s, ReportTaken s slot rep r → (s.grant slot).heldSilent = true → (s.grant slot).granted = some g →
    r.state = .nRun → s.fba.hasStart slot = false → s.fba.hasRaise slot = false →
    ∃ t, exec (.validReport slot rep) s = .next t ∧
      let level := if r.actual.rank ≤ g.rank then r.actual else g
      let fill := (s.grant slot).fill && r.actualFill
      let draw := (s.grant slot).drawOf level
      ((s.record slot).state = .aborting → g.kind = r.kind →
        (t.grant slot).granted = some level ∧ (t.grant slot).fill = fill ∧ (t.grant slot).draw = draw ∧
        (t.grant slot).heldSilent = false ∧
        ∀ e ∈ t.mbc.queue, e.fills slot .level = true → e ∈ s.mbc.queue) ∧
      ((s.record slot).state = .aborting → g.kind ≠ r.kind →
        (t.grant slot).granted = some g ∧ (t.grant slot).fill = (s.grant slot).fill ∧
        (t.grant slot).draw = (s.grant slot).draw ∧ (t.grant slot).heldSilent = true) ∧
      ((s.record slot).state = .running → (s.record slot).kind = some r.kind → g.kind = r.kind →
        r.wanted = level → r.wantedFill = fill →
        s.fba.committed - (s.grant slot).draw + draw ≤ s.fba.beff →
        (t.record slot).state = .running ∧ (t.record slot).session.map (·.payer) = (s.record slot).session.map (·.payer) ∧
        (t.grant slot).granted = some level ∧ (t.grant slot).fill = fill ∧ (t.grant slot).draw = draw ∧
        (t.grant slot).heldSilent = false ∧ (t.grant slot).pending = true ∧ Levelled t slot level fill ∧
        t.fba.hasRaise slot = false ∧ t.fba.committed ≤ t.fba.beff ∧ t.fba.overBudget = false) ∧
      ∀ z, (s.record slot).state = .running → (s.record slot).kind = some r.kind → (s.record slot).session = some z →
        z.figures.kind = .dryer → g.kind = .dryer → r.kind = .dryer →
        (t.grant slot).granted.isSome = true ∧
        t.onHold slot = decide ((t.grant slot).granted = some .air ∧ r.wanted ≠ .air)) ∧
  (∀ slot rep r g s, ReportTaken s slot rep r → (s.grant slot).heldSilent = false → (s.grant slot).granted = some g →
    r.state = .nRun → (s.record slot).state = .running → (s.record slot).kind = some r.kind → g.kind = r.kind →
    s.fba.hasStart slot = false →
    ∃ t, exec (.validReport slot rep) s = .next t ∧
      let e := s.grant slot
      let level := if r.wanted.rank < g.rank then r.wanted else g
      let fill := e.fill && r.wantedFill
      let lower := level ≠ g ∨ fill ≠ e.fill
      let draw := if lower then e.drawOf level else e.draw
      let committed := s.fba.committed - e.draw + draw
      let fills := s.fba.fillCount - (if e.fill ≠ fill then 1 else 0)
      let more := level.rank < r.wanted.rank ∨ (r.wantedFill = true ∧ fill = false)
      let entry : AdmEntry :=
        { machine := slot, level := r.wanted, fill := r.wantedFill, arrival := s.fba.arrivals
          timer := s.sst.working.limits.raiseWait * 60 }
      let taken := (t.grant slot).granted = some level ∧ (t.grant slot).fill = fill ∧ (t.grant slot).draw = draw ∧
        (lower → (t.grant slot).pending = true ∧ Levelled t slot level fill)
      (t.record slot).state = .running ∧
      (s.fba.overBudget = true → s.fba.beff < committed →
        taken ∧ t.fba.starts = s.fba.starts ∧ t.fba.overBudget = true ∧ (∀ k, k ≠ slot → t.grant k = s.grant k) ∧
        t.fba.raises = (if more then
            (if s.fba.hasRaise slot = true then
              s.fba.raises.map fun a =>
                if a.machine = slot then { a with level := r.wanted, fill := r.wantedFill } else a
            else s.fba.raises ++ [entry])
          else s.fba.raises.filter (·.machine != slot))) ∧
      (s.fba.overBudget = false → committed ≤ s.fba.beff → s.fba.starts = [] →
        (¬more → (∀ a ∈ s.fba.raises, a.machine = slot) → taken ∧ t.fba.raises = [] ∧ t.fba.committed = committed) ∧
        (more → s.fba.raises = [] →
          let fits := committed - draw + e.drawOf r.wanted ≤ s.fba.beff ∧
            (r.wantedFill = true → fill = false → fills + 1 ≤ s.sst.working.limits.fillSlots)
          (¬fits → taken ∧ t.fba.raises = [entry]) ∧
          (fits →
            (t.grant slot).granted = some r.wanted ∧ (t.grant slot).fill = r.wantedFill ∧
            (t.grant slot).draw = e.drawOf r.wanted ∧ (t.grant slot).pending = true ∧
            Levelled t slot r.wanted r.wantedFill ∧ t.fba.raises = [])))) ∧
  ∀ slot rep r s, ReportTaken s slot rep r → r.state = .nRun →
    (match (s.record slot).state with
      | .armed | .starting | .recovering => False
      | .absent | .offline | .idle | .reserved | .running | .done | .aborting | .faulted | .outOfService => True) →
    ∃ t, exec (.validReport slot rep) s = .next t ∧
      let e := s.grant slot
      let acked := (s.mbc.waiting slot .level).any fun x => decide (0 < x.sends) && x.tag == some r.lvlTag
      let waits := e.pending && !acked
      let run := if (s.node slot).silentMark then 0 else e.excessRun
      let bare := decide (0 < r.actual.rank) || r.actualFill
      let above := match e.granted with
        | some g => if g.kind = r.kind then decide (g.rank < r.actual.rank) || (r.actualFill && !e.fill) else bare
        | none => bare
      (t.grant slot).excessRun = (if waits = true then 0 else if above = true then min 10 (run + 1) else 0) ∧
      (t.grant slot).excessOwed = (!waits && above && run == 1) ∧
      (t.grant slot).persistOwed = (!waits && above && run == 9)

/-- R35, R23, R68: a silence notice that is due sets the silent mark; a machine at rest becomes OFFLINE, a session is held with
its silence timer at 300 s and its grant held silent, and its admission-queue entry goes. The model's own part in it: log entries 1
and 48. -/
def Obligations.SilenceNoticeHolds : Prop :=
  ∀ m s, s.phase = .running → (s.node m).known = true → 8 ≤ (s.node m).missed → (s.node m).silentMark = false →
    (s.record m).silent = false → (s.record m).state ≠ .recovering → (s.grant m).heldSilent = false →
    ∃ t, exec (.silenceNotice m) s = .next t ∧
      (t.node m).silentMark = true ∧ (t.record m).silent = true ∧
      (t.record m).silenceTimer = (if (s.record m).session = none then 0 else 300) ∧
      (t.record m).session = (s.record m).session ∧
      (t.record m).state = (match (s.record m).state with
        | .idle | .done | .faulted => .offline
        | x => x) ∧
      t.evu = s.evu.set .nodeSilent ∧ (t.grant m).heldSilent = (s.grant m).granted.isSome ∧
      (t.grant m).granted = (s.grant m).granted ∧ (t.grant m).draw = (s.grant m).draw ∧
      t.fba.hasStart m = false ∧ t.fba.hasRaise m = false ∧ ChangesOnly [.msv, .mbc, .fba, .flm, .evu] s t

/-! ## Grants and sheds -/

/-- R59 to R64, R13: a re-examination, here after SET LIMITS has changed the fill-slot limit with OVER_BUDGET clear, takes the
head of the admission queue, the first RAISE entry or else the first START entry. A head that does not fit holds back every entry
behind it. A RAISE that fits is granted whole; a washer's START is granted BASE with fill; a dryer's is granted the highest level
from its target downward that fits, with a RAISE entry for the target where that is lower and the hold begun where it is AIR, and
is not granted where none fits. A granted START enters RUNNING. The model's own part in it: log entries 9 and 23. -/
def Obligations.QueueHeadsGranted : Prop :=
  ∀ a s, s.Serves (.setLimits a) → s.sst.commit = none → s.fba.overBudget = false →
    ∃ t, exec (.setLimits a) s = .next t ∧
      let l := LimitArgs.held a
      let room := fun (m : Addr) (draw : Nat) (needsSlot : Bool) =>
        s.fba.committed - (s.grant m).draw + draw ≤ s.fba.beff ∧ (needsSlot = true → s.fba.fillCount + 1 ≤ l.fillSlots)
      (l.fillSlots ≠ s.sst.working.limits.fillSlots → s.fba.fillCount ≤ l.fillSlots →
        (∀ e behind, s.fba.raises = e :: behind →
          ¬room e.machine ((s.grant e.machine).drawOf e.level) (e.fill && !(s.grant e.machine).fill) →
          t.fba = s.fba ∧ t.msv = s.msv ∧ t.mbc = s.mbc) ∧
        (∀ e, s.fba.raises = [e] → s.fba.starts = [] →
          room e.machine ((s.grant e.machine).drawOf e.level) (e.fill && !(s.grant e.machine).fill) →
          (t.grant e.machine).granted = some e.level ∧ (t.grant e.machine).fill = ((s.grant e.machine).fill || e.fill) ∧
          (t.grant e.machine).draw = (s.grant e.machine).drawOf e.level ∧ t.fba.raises = [] ∧
          t.fba.startList = s.fba.startList ∧ (∀ k, k ≠ e.machine → t.grant k = s.grant k) ∧ t.msv = s.msv ∧
          ((s.node e.machine).known = true → (t.grant e.machine).pending = true ∧
            Levelled t e.machine e.level ((s.grant e.machine).fill || e.fill))) ∧
        ∀ e behind (z : Session), s.fba.raises = [] → s.fba.starts = e :: behind →
          (s.record e.machine).session = some z → (s.grant e.machine).granted = none → (s.grant e.machine).draw = 0 →
          (∀ planned b h, z.figures = .washer planned b h → ¬room e.machine b true →
            t.fba = s.fba ∧ t.msv = s.msv ∧ t.mbc = s.mbc) ∧
          (∀ planned b h, z.figures = .washer planned b h → behind = [] → room e.machine b true →
            (∀ w, (s.grant e.machine).wanted = some w → w = (.base, true)) →
            t.record e.machine = { s.record e.machine with
              state := .running
              session := some { z with
                startWait := 0, startWindow := 0, startTime := s.stamp, runClock := 0, blockTimer := 0
                guardTimer := (planned + l.guardMargin) * 60 } } ∧
            (t.grant e.machine).granted = some .base ∧ (t.grant e.machine).fill = true ∧ (t.grant e.machine).draw = b ∧
            (t.grant e.machine).draws = some (.washer b h) ∧ t.fba.starts = [] ∧ t.fba.raises = [] ∧
            t.fba.startList = s.fba.startList ++ [e.machine] ∧
            ((s.node e.machine).known = true → Levelled t e.machine .base true)) ∧
          ∀ rate air low high, z.figures = .dryer rate air low high → e.level.kind = .dryer →
            let draws := LevelDraws.dryer air low high
            let fits := fun x : Level => x.rank ≤ e.level.rank ∧ room e.machine (draws.draw x) false
            ((∀ x : Level, x.kind = .dryer → ¬fits x) → t.fba = s.fba ∧ t.msv = s.msv ∧ t.mbc = s.mbc) ∧
            ∀ x : Level, x.kind = .dryer → behind = [] → fits x →
              (∀ y : Level, y.kind = .dryer → x.rank < y.rank → ¬fits y) →
              t.record e.machine = { s.record e.machine with
                state := .running
                session := some { z with
                  startWait := 0, startWindow := 0, startTime := s.stamp, runClock := 0, guardTimer := 0
                  blockTimer := 60 } } ∧
              (t.grant e.machine).granted = some x ∧ (t.grant e.machine).draw = draws.draw x ∧
              (t.grant e.machine).draws = some draws ∧ t.fba.starts = [] ∧
              t.fba.startList = s.fba.startList ++ [e.machine] ∧
              t.fba.raises = (if x = e.level then []
                else [{ machine := e.machine, level := e.level, fill := false, arrival := s.fba.arrivals
                        timer := l.raiseWait * 60 }]) ∧
              t.onHold e.machine = decide (x = .air ∧ e.level ≠ .air) ∧
              ((s.node e.machine).known = true → Levelled t e.machine x false))

/-- R65 to R67, R52: a budget check, here after SET BUDGET has taken B_eff below committed draw with no RAISE entry waiting,
sheds by its steps, dryers from HIGH to LOW, dryers from LOW to AIR, washers from HEAT to BASE, within each the newest started
first. Here the first shed brings committed draw within B_eff: that machine is granted the lower level with its fill, gets GRANT
and a RAISE entry for what it wants, and a dryer at AIR is on hold; every other grant stands. Where nothing is sheddable
OVER_BUDGET is declared, with its event on the declaration, and every grant stands. The model's own part in it: log entry
9. -/
def Obligations.ShedsNewestFirst : Prop :=
  ∀ (budget : Word16) (percent : Byte) s, s.Serves (.setBudget budget percent) → s.sst.commit = none →
    ∃ t, exec (.setBudget budget percent) s = .next t ∧
      let b := max 100 (min 8000 budget.toNat)
      let p := max 30 (min 100 percent.toNat)
      let beff := if s.fba.demand = .shed then b * p / 100 else b
      let sheds := fun (m : Addr) (upper lower : Level) =>
        (s.record m).state = .running ∧ (s.grant m).heldSilent = false ∧ (s.grant m).granted = some upper ∧
        (s.grant m).drawOf lower < (s.grant m).draw
      let steps : List (Level × Level) := [(.high, .low), (.low, .air), (.heat, .base)]
      ((b ≠ s.sst.working.budget ∨ p ≠ s.sst.working.shed) → beff < s.fba.committed →
        ((∀ m ∈ s.fba.startList, ∀ x ∈ steps, ¬sheds m x.1 x.2) →
          t.fba = { s.fba with beff := beff, overBudget := true } ∧ t.msv = s.msv ∧ t.mbc = s.mbc ∧
          t.evu = (if s.fba.overBudget then s.evu else s.evu.set .overBudget)) ∧
        ∀ older m newer before upper lower after, s.fba.startList = older ++ m :: newer →
          steps = before ++ (upper, lower) :: after → sheds m upper lower →
          (∀ k ∈ newer, ¬sheds k upper lower) → (∀ k ∈ s.fba.startList, ∀ x ∈ before, ¬sheds k x.1 x.2) →
          s.fba.raises = [] → (s.grant m).wanted = some (upper, (s.grant m).fill) →
          (s.grant m).draw = (s.grant m).drawOf upper →
          s.fba.committed - (s.grant m).draw + (s.grant m).drawOf lower ≤ beff →
          (t.grant m).granted = some lower ∧ (t.grant m).draw = (s.grant m).drawOf lower ∧
          (t.grant m).fill = (s.grant m).fill ∧
          ((s.node m).known = true → (t.grant m).pending = true ∧ Levelled t m lower (s.grant m).fill) ∧
          t.fba.raises =
            [{ machine := m, level := upper, fill := (s.grant m).fill, arrival := s.fba.arrivals
               timer := s.sst.working.limits.raiseWait * 60 }] ∧
          (∀ z, (s.record m).session = some z → z.figures.kind = upper.kind → t.onHold m = decide (lower ≠ .low)) ∧
          (∀ k, k ≠ m → t.grant k = s.grant k) ∧ t.fba.startList = s.fba.startList ∧ t.msv = s.msv ∧
          t.fba.overBudget = false ∧ t.fba.committed = s.fba.committed - (s.grant m).draw + (s.grant m).drawOf lower)

/-! ## Timers and faults -/

/-- R10, R12, R15, R106, R19: the expiry of the start window of an ARMED session, or of the start wait of a STARTING one, disarms
with full refund: no FAULT record is written and the STOP count stands. The block timer's expiry takes one meter step, after
which V is 0 exactly when M is; at M = 0 the session is ending and STOP(end) is queued, and otherwise the timer is loaded anew.
The unload timer's expiry frees a DONE machine. The model's own part in it: log entry 1. -/
def Obligations.TimersExpire : Prop :=
  (∀ c m z s, s.phase = .running → (s.record m).session = some z →
    ((c = .startWindowExpiry m ∧ (s.record m).state = .armed ∧ z.startWindow = 0) ∨
      (c = .startWaitExpiry m ∧ (s.record m).state = .starting ∧ z.startWait = 0)) →
    ∃ t, exec c s = .next t ∧ SessionGone s t m z.payer z.total ∧ ((s.node m).known = true → Commanded t m .disarm) ∧
      (t.record m).state = (if (s.record m).silent then .offline else .idle) ∧
      t.jrn = (s.refunded m z.payer z.total).jrn ∧ t.flm = s.flm.put m { s.faults m with openMark := false } ∧
      (∀ k, k ≠ m → s.fba.hasStart k = false → t.record k = s.record k) ∧
      ChangesOnly [.msv, .mbc, .fba, .cru, .flm, .jrn, .evu] s t) ∧
  (∀ m z n s, s.phase = .running → (s.record m).state = .running → (s.record m).session = some z → z.figures.kind = .dryer →
    z.blockTimer = 0 → z.ending = false → z.minutes = some n → 1 ≤ n → 1 ≤ z.value →
    ∃ t z', exec (.blockTimerExpiry m) s = .next t ∧ t.record m = { s.record m with session := some z' } ∧
      z' = { z with
        value := z.value - z.value / n, consumed := z.consumed + z.value / n, minutes := some (n - 1)
        blockTimer := if n = 1 then 0 else 60, ending := decide (n = 1) } ∧
      (z'.value = 0 ↔ n = 1) ∧ z'.consumed + z'.value = z.consumed + z.value ∧
      (n = 1 → (s.node m).known = true → Commanded t m (.stop false)) ∧
      (1 < n → t.mbc = s.mbc) ∧ (∀ k, k ≠ m → t.record k = s.record k) ∧ ChangesOnly [.msv, .mbc] s t) ∧
  ∀ m s, s.phase = .running → (s.record m).state = .done → (s.record m).unloadTimer = 0 →
    ∃ t, exec (.unloadTimerExpiry m) s = .next t ∧
      t.msv = { s.msv with
        records := s.msv.records.put m { s.record m with state := if (s.record m).silent then .offline else .idle } } ∧
      t.flm = s.flm.put m { s.faults m with openMark := false } ∧ ChangesOnly [.msv, .flm] s t

/-- R131 to R135, R137 to R140, R38, R20, R24: an event that reports a fault of a machine whose open mark is clear, a valid report
that brings a new node fault code among them, is taken as a primary, by the state of the record. A RUNNING session is ended by
STOP(abort) with its refund, and the record is ABORTING; one in ARMED or STARTING by DISARM with its full charge, and the record
FAULTED, or OFFLINE where its node is silent, or OUT_OF_SERVICE for LOCKOUT; and in RECOVERING the recovery ends and the order acts
on the retained state. There the consecutive-STOP count rises, which may escalate STOP. DOOR_LOCK in ARMED and STARTING is RETRY:
the count stands, STARTING goes back to ARMED with its START entry gone, and ARMED stands. Without a session STOP leaves record and
open mark, and LOCKOUT leads to OUT_OF_SERVICE, or sets lockout pending in RESERVED, with the open mark set. The current fault, the
history, the journal record and the events say so each time; whether a CLASH record bears payer and refund is left open there, as
R139 and R150 differ, and the statement holds for either. NODE_STALE is taken of a report in hand, before the rest of that
report, which then acts on the record that the fault has left. A fault code that a report brings to a CLOSED room's RECOVERING
record, whose session has not begun to run, finds that session disarmed (R27) and is left out here; lockout pending stands on no
record with a session (R8). The model's own part in it: log entries 1, 6, 13, 53 and 58. -/
def Obligations.FaultAbortsRun : Prop :=
  (∀ c m k persisting z s, s.phase = .running → RaisesFault s c m k persisting → (s.record m).state = .running →
    (s.record m).session = some z → (s.faults m).openMark = false → ∃ t, exec c s = .next t ∧
      let own := eventSeverity k persisting
      let sev := if s.escalates m own then Severity.lockout else own
      let r := z.refund .running s.sst.working.limits.grace
      SessionGone s t m z.payer r ∧ ((s.node m).known = true → Commanded t m (.stop true)) ∧
      (t.record m).state = .aborting ∧
      (t.record m).stopDest = some (if sev = .lockout then .outOfService else .faulted) ∧
      (t.faults m).openMark = true ∧ PrimaryTaken s t m k own .running (some (z.payer, r)) ∧
      ((s.grant m).granted ≠ none → (t.grant m).granted ≠ none) ∧
      ((∀ rep, c ≠ .validReport m rep) → (t.grant m).granted = (s.grant m).granted) ∧
      ChangesOnly [.msv, .mbc, .fba, .cru, .flm, .jrn, .evu] s t) ∧
  (∀ c m k persisting z x s, s.phase = .running → RaisesFault s c m k persisting → (s.record m).session = some z →
    (s.record m).standsIn x → (s.record m).state ≠ .running → x = .armed ∨ x = .starting ∨ x = .running →
    k ≠ .doorLock ∨ x = .running → (s.faults m).openMark = false → (s.record m).lockoutPending = false →
    (∀ rep, c = .validReport m rep → (s.record m).state = .recovering → x ≠ .running → s.sst.roomMode ≠ .closed) →
    ∃ t, exec c s = .next t ∧
      let own := eventSeverity k persisting
      let dest := if own = .lockout ∨ s.escalates m own = true then MState.outOfService else .faulted
      let r := if x = .running then z.refund .running s.sst.working.limits.grace else z.total
      let stale := c = .nodeStale m
      let silent := (s.record m).silent = true ∧ (stale ∨ s.broughtBy m c = none)
      let left := if x = .running then MState.aborting else if dest = .faulted ∧ silent then .offline else dest
      let y := left.landedBy dest (if stale then s.broughtBy m c else none)
      SessionGone s t m z.payer r ∧ (t.record m).state = y ∧ ((s.record m).state = .recovering → (t.record m).retained = none) ∧
      (y = .aborting →
        (t.record m).stopDest = some (if dest = .outOfService then StopDest.outOfService else .faulted)) ∧
      (¬stale → (s.node m).known = true → Commanded t m (if x = .running then .stop true else .disarm)) ∧
      (t.faults m).openMark = decide (y ≠ .idle ∧ y ≠ .offline) ∧ PrimaryTaken s t m k own x (some (z.payer, r)) ∧
      ChangesOnly [.msv, .mbc, .fba, .cru, .flm, .jrn, .evu] s t) ∧
  (∀ c m k persisting s, s.phase = .running → RaisesFault s c m k persisting → (s.record m).session = none →
    (match (s.record m).state with
      | .idle | .done | .offline | .absent | .reserved | .outOfService => True
      | .armed | .starting | .running | .aborting | .faulted | .recovering => False) →
    (s.faults m).openMark = false → ∃ t, exec c s = .next t ∧
      let own := eventSeverity k persisting
      let stale := c = .nodeStale m
      let x := (s.record m).state.landedBy .faulted (if stale then none else s.broughtBy m c)
      let left := if own = .lockout ∧ x ≠ .reserved then MState.outOfService else x
      let y := left.landedBy .faulted (if stale then s.broughtBy m c else none)
      (t.record m).state = y ∧
      (own = .stop → (t.faults m).openMark = false ∧ (s.broughtBy m c = none → t.msv = s.msv)) ∧
      (own = .lockout → (t.faults m).openMark = true ∧
        (x = .reserved → (t.record m).lockoutPending = true ∧ (t.record m).reserving = (s.record m).reserving)) ∧
      PrimaryTaken s t m k own x none ∧ t.cru = s.cru ∧ t.jrn.reservations = s.jrn.reservations ∧
      ChangesOnly [.msv, .mbc, .fba, .flm, .jrn, .evu] s t) ∧
  ∀ m rep r z x s, ReportTaken s m rep r → r.fault = some .doorLock → (s.node m).lastFault ≠ some .doorLock →
    (s.record m).kindDiffers r.kind = false → s.startStands m r.kind → (s.record m).session = some z →
    (s.record m).standsIn x → x = .armed ∨ x = .starting → (s.faults m).openMark = false →
    (s.record m).lockoutPending = false → ((s.record m).state = .recovering → s.sst.roomMode ≠ .closed) →
    ∃ t, exec (.validReport m rep) s = .next t ∧
      (t.record m).state = .armed ∧ ((s.record m).state = .recovering → (t.record m).retained = none) ∧
      t.fba.hasStart m = false ∧
      (x = .starting → t.fba.hasRaise m = false) ∧
      (∃ acked, (t.record m).session =
        some { z with armAcked := acked, startWait := if x = .starting then 0 else z.startWait }) ∧
      (t.faults m).openMark = false ∧ PrimaryTaken s t m .doorLock .retry x none ∧ t.cru = s.cru ∧
      t.jrn.reservations = s.jrn.reservations

/-- R131, R136, R138, R139, R140, R20, R21, R37, R43, R71: a fault reported while the open mark is set is a secondary: it is
counted and recorded, joins the current fault, and orders nothing unless it raises the severity to LOCKOUT. Node fault codes
brought by a valid report and NODE_STALE are among them; a report finds the open mark set in the states that R131 names, ABORTING,
FAULTED, OUT_OF_SERVICE and RESERVED, and one that frees a FAULTED machine clears the mark before its code is taken (R32).
NODE_STALE is taken before the rest of its report, by which an ABORTING machine may reach its stop destination and a FAULTED one be
freed. No START entry stands for the machine where a report is taken (R57). Whatever the open mark, ADDRESS_CLASH sets the clash
mark, makes the address KNOWN, where its presence was NONE with the kind absent, sets the run of check errors to 0 and sets its
event; and CMD_LOST takes the entry out of the queue, after which only a new entry may stand in its place, and has the GRANT
pending of a lost GRANT become no and leaves the grant as it was. Neither acts while it is not due (log entry 1). The model's own
part in it: log entries 1, 6, 13 and 14. -/
def Obligations.OpenFaultTakesSecondary : Prop :=
  (∀ c m k persisting cf s, s.phase = .running → RaisesFault s c m k persisting → (s.faults m).openMark = true →
    (s.faults m).current = some cf →
    (∀ r, s.broughtBy m c = some r →
      (s.record m).state = .aborting ∨ (s.record m).state = .faulted ∨ (s.record m).state = .outOfService ∨
        (s.record m).state = .reserved) →
    (∀ rep r, c = .validReport m rep → decodeReport m rep = some r → ¬((s.record m).state = .faulted ∧ r.door = .opened)) →
    ∃ t, exec c s = .next t ∧
      let own := eventSeverity k persisting
      let freed := (s.record m).state = .faulted ∧ (s.broughtBy m c).any (·.door == .opened) = true
      let ends := (s.record m).state = .aborting ∧
        (s.broughtBy m c).any (fun r => r.state == .nStopped || r.state == .nEnd || r.state == .nIdle) = true
      t.faults m = { s.faults m with
        current := some { cf with
          secondary := if cf.secondary = none ∨ cf.severity.rank < own.rank then some k else cf.secondary
          severity := if cf.severity.rank < own.rank then own else cf.severity }
        openMark := (t.faults m).openMark, history := countedHistory (s.faults m).history k } ∧
      t.evu.isSet .fault = true ∧
      (cf.severity = .lockout ∨ own = .stop →
        (t.record m).state =
          (if freed then .idle
           else if ends then (if (s.record m).stopDest = some .outOfService then .outOfService else .faulted)
           else (s.record m).state) ∧
        (t.faults m).openMark = !decide freed ∧ (s.broughtBy m c = none → t.msv = s.msv) ∧ t.cru = s.cru ∧
        TookFree s t (faultTaken m k own false true none) ∧ t.evu.isSet .lockout = s.evu.isSet .lockout) ∧
      (cf.severity = .stop → own = .lockout →
        t.evu.isSet .lockout = true ∧
        ((s.record m).state = .aborting →
          (t.record m).state = .aborting ∧ (t.record m).stopDest = some .outOfService ∧
          (s.broughtBy m c = none → t.record m = { s.record m with stopDest := some .outOfService })) ∧
        ((s.record m).state = .faulted ∨ (s.record m).state = .outOfService → (t.record m).state = .outOfService) ∧
        ((s.record m).state = .reserved →
          (t.record m).state = .reserved ∧ (t.record m).lockoutPending = true) ∧
        ((s.record m).state = .aborting ∨ (s.record m).state = .faulted ∨ (s.record m).state = .outOfService ∨
            (s.record m).state = .reserved →
          (t.faults m).openMark = true ∧ TookFree s t (faultTaken m k own false true none)))) ∧
  (∀ m s, s.phase = .running → ∃ t, exec (.addressClash m) s = .next t ∧
    ((s.node m).clashOwed = false → t = s) ∧
    ((s.node m).clashOwed = true →
      t.node m = { s.node m with
        clash := true, known := true, kind := if (s.node m).known then (s.node m).kind else none, errorRun := 0
        clashOwed := false } ∧
      (∀ a, a ≠ m → t.node a = s.node a) ∧ t.evu.isSet .addressClash = true ∧
      (t.faults m).history = countedHistory (s.faults m).history .addressClash)) ∧
  ∀ m c e s, s.phase = .running → s.mbc.waiting m c = some e → ∃ t, exec (.cmdLost m c) s = .next t ∧
    (e.sends < 3 ∨ e.sentNow = true → t = s) ∧
    (3 ≤ e.sends → e.sentNow = false →
      (∀ x ∈ t.mbc.queue, x.fills m c = true → x.sends = 0 ∧ x.tag = none) ∧
      (c = .level → (t.grant m).pending = false) ∧ (t.grant m).granted = (s.grant m).granted ∧
      (t.grant m).fill = (s.grant m).fill ∧ (t.grant m).draw = (s.grant m).draw ∧
      (t.faults m).history = countedHistory (s.faults m).history .cmdLost)

/-- R28, R27, R10, R22: at the end of the recovery window a record still RECOVERING takes its retained state as silent, with 300 s
on its silence timer; in a CLOSED room one that had not begun to run is disarmed with its full refund instead, in ascending order
of the machines, and stands OFFLINE, as its node is silent. An ABSENT record whose address is held becomes OFFLINE, and one whose
address is not stays. The premise of the refunds is R57 (a START entry belongs to a STARTING machine). The model's own part in it:
log entry 1. -/
def Obligations.RecoveryWindowEnds : Prop :=
  ∀ s, s.phase = .running → s.msv.recoveryWindow = some 0 →
    ∃ t, exec .recoveryWindowEnd s = .next t ∧ t.msv.recoveryWindow = none ∧
      (let disarmed := allMachines.filter fun m =>
        (s.record m).state == .recovering && (s.record m).retained != some .running
       (∀ e ∈ s.fba.starts, (s.record e.machine).state = .starting) →
        t.cru = (if s.sst.roomMode = .closed then s.refundedInFull disarmed else s).cru ∧
        t.jrn = (if s.sst.roomMode = .closed then s.refundedInFull disarmed else s).jrn) ∧
      ∀ m, s.fba.hasStart m = false →
        (∀ x, (s.record m).state = .recovering → (s.record m).retained = some x →
          (x = .running ∨ s.sst.roomMode ≠ .closed →
            t.record m = { s.record m with state := x.state, retained := none, silent := true, silenceTimer := 300 }) ∧
          ∀ z, (s.record m).session = some z → x ≠ .running → s.sst.roomMode = .closed →
            t.record m = { s.record m with
              state := .offline, retained := none, silent := true, silenceTimer := 0, session := none, unloadTimer := 0 } ∧
            t.fba.hasStart m = false ∧ t.fba.hasRaise m = false ∧ (t.faults m).openMark = false ∧
            ((s.node m).known = true → Commanded t m .disarm)) ∧
        ((s.record m).state = .absent → (s.node m).known = true →
          t.record m = { s.record m with state := .offline, silent := true, unloadTimer := 0 }) ∧
        ((s.record m).state = .absent → (s.node m).known = false → (s.node m).silentMark = false →
          t.record m = s.record m)

/-- R51, R52, R67: a change of the DEMAND line starts or stops the debounce timer; its expiry makes the reading the demand state,
B_eff follows, DEMAND_SHED is set for SHED, and committed draw is within B_eff or OVER_BUDGET is declared. The model's own part in
it: log entry 1. -/
def Obligations.DemandFollowsLine : Prop :=
  (∀ (d : Demand) s, s.phase = .running → ∃ t, exec (.demandLineChange d) s = .next t ∧
    (d = s.fba.line → t = s) ∧
    (d ≠ s.fba.line → t.fba = { s.fba with line := d, debounce := if d = s.fba.demand then 0 else 2 }) ∧
    ChangesOnly [.fba] s t) ∧
  ∀ s, s.phase = .running → s.fba.line ≠ s.fba.demand → s.fba.debounce = 0 →
    ∃ t, exec .debounceTimerExpiry s = .next t ∧ t.fba.demand = s.fba.line ∧
      t.fba.beff = (match s.fba.line with
        | .normal => s.sst.working.budget
        | .shed => s.sst.working.budget * s.sst.working.shed / 100) ∧
      (t.fba.committed ≤ t.fba.beff ∨ t.fba.overBudget = true) ∧
      t.evu.isSet .demandShed = (s.fba.line == .shed || s.evu.isSet .demandShed) ∧
      ChangesOnly [.msv, .mbc, .fba, .evu] s t

/-! ## Arithmetic -/

/-- R114, R82, R84, R103 to R105, R109: the hash index of a serial is the sum of its digits in base 512, modulo 512. The fold
neither makes nor loses money: what the card held, with the reversal and the credit folded, is what it will hold and the charge;
the credit left over stays on the books. A refund never exceeds the charge. -/
def Obligations.ArithmeticHolds : Prop :=
  (∀ serial, serial < 2 ^ 32 → ∃ d0 d1 d2 d3, d0 ≤ 511 ∧ d1 ≤ 511 ∧ d2 ≤ 511 ∧ d3 ≤ 31 ∧
    serial = d0 + d1 * 512 + d2 * 262144 + d3 * 134217728 ∧ hashIndex serial = (d0 + d1 + d2 + d3) % 512) ∧
  (∀ b x c p, b + x ≤ 99999 → match foldOrder b x c p with
    | .full balance folded => balance + p = b + x + folded ∧ balance ≤ 99999 ∧ folded ≤ c ∧ (folded = c ∨ balance = 99999)
    | .creditOnly balance folded => b + x + c < p ∧ 0 < x + c ∧ folded = c ∧ balance = min (b + x + c) 99999
    | .short => b < p ∧ x = 0 ∧ c = 0) ∧
  ∀ (z : Session) state grace, z.consumed + z.value = z.total → z.refund state grace ≤ z.total

/-! ## What every step keeps -/

/-- R169: every step keeps ATTN active exactly while some set flag is unmasked and its class is enabled. -/
def Obligations.AttnStaysRight : Prop := ∀ s t, s.AttnRight → step s = .next t → t.AttnRight

/-- R154: every step keeps host-owned records and reserved slots within 128 together. -/
def Obligations.JournalStaysWithin : Prop := ∀ s t, s.JournalFits → step s = .next t → t.JournalFits

/-- R2, R118, R94: every step keeps value consumed plus value remaining equal to total charged in every session, the refund credit
table within 32 entries of distinct serials, and a card serial in at most one ORDERED exchange. -/
def Obligations.MoneyStaysWhole : Prop :=
  (∀ s t, s.MoneyWhole → step s = .next t → t.MoneyWhole) ∧
  (∀ s t, s.RefundsFit → step s = .next t → t.RefundsFit) ∧
  ∀ s t, s.CardsApart → step s = .next t → t.CardsApart

/-- R94, R124, R125, R152: every step keeps the pending debit table at no more than 8 entries of distinct serials, the card of an
ORDERED exchange in it exactly where that exchange has resolved it, the cards at the two stations apart, and a journal slot
reserved for all that may still have to be written: three for each ORDERED exchange, two for each session, one for each refund
entry and one for each pending debit. -/
def Obligations.BooksStayBacked : Prop :=
  ∀ s t, s.BooksBacked → step s = .next t → t.BooksBacked

/-- R39: every step keeps at most one control and one level command in the queue for any node. -/
def Obligations.QueueKeepsPlaces : Prop := ∀ s t, s.QueuePlaces → step s = .next t → t.QueuePlaces

/-- R56: every step keeps the number of machines holding a fill slot within the fill-slot limit. -/
def Obligations.FillStaysWithinLimit : Prop := ∀ s t, s.FillWithinLimit → step s = .next t → t.FillWithinLimit

/-- R67: every step keeps committed draw, the grants held for silent nodes included, within B_eff while the part runs, unless
OVER_BUDGET is declared. The model's own part in it: log entries 28 and 35. -/
def Obligations.BudgetStaysDeclared : Prop :=
  ∀ s t, s.BudgetDeclared → step s = .next t → t.BudgetDeclared

/-- R113, R174 to R176: every step keeps the working settings, the stored image and a copy being written in their ranges. -/
def Obligations.SettingsStayLegal : Prop := ∀ s t, s.SettingsLegal → step s = .next t → t.SettingsLegal

/-- What every step keeps holds right after reset. The model's own part in it: log entries 3 and 4. -/
def Obligations.InvariantsAtReset : Prop :=
  State.reset.AttnRight ∧ State.reset.JournalFits ∧ State.reset.MoneyWhole ∧ State.reset.RefundsFit ∧
    State.reset.CardsApart ∧ State.reset.QueuePlaces ∧ State.reset.FillWithinLimit ∧ State.reset.SettingsLegal ∧
    State.reset.BooksBacked ∧ State.reset.BudgetDeclared

/-- R148, R161, R162: only JOURNAL RELEASE and a cold reset take records out of the journal; R167, R171, R172: only READ EVENTS, a
reset or the loss of power clears an event flag; R164, R165: only SET ROOM MODE and a cold reset change the room mode. -/
def Obligations.NothingIsLostUnasked : Prop :=
  ∀ c s t, exec c s = .next t →
    ((∀ q, c ≠ .journalRelease q) → (∀ a b d e, c ≠ .coldReset a b d e) → s.jrn.records <+: t.jrn.records) ∧
    ((∀ x, c ≠ .readEvents x) → (∀ a b d e, c ≠ .coldReset a b d e) → c ≠ .resetInputAsserted → c ≠ .replySent →
      c ≠ .powerFailure → ∀ f, s.evu.isSet f = true → t.evu.isSet f = true) ∧
    ((∀ x, c ≠ .setRoomMode x) → (∀ a b d e, c ≠ .coldReset a b d e) → t.sst.roomMode = s.sst.roomMode)

/-! ## Encodings -/

/-- R75, R183, R187, R31, R32: the kind and payload of every well-formed request are read back as that request, with every
argument. A slot report is read exactly when its contents are in range and its address is the slot's, and its bytes bring the
outcome that R31 gives; a whole frame received without a gap brings the good frame of its kind and payload. A station's message
with listed codes is read back from the bytes after its start byte, and one whose check fails is discarded (R75). The model's own
part in it: log entries 29 and 38. -/
def Obligations.WiresReadBack : Prop :=
  (∀ i k p, i.wellFormed = true → encodeRequest i = some (k, p) → decodeRequest k p = some i) ∧
  (∀ slot r, (decodeReport slot r).isSome = r.inRange slot) ∧
  (∀ slot r, slotCommand slot (slotBytes r) = if r.inRange slot then .validReport slot r else .malformedReport slot) ∧
  (∀ st i k p, encodeStation i = some (st, k, p) → (∀ msg, i = .purchase st msg → msg.codesListed = true) →
    (∀ msg, i = .result st msg → msg.codesListed = true) → stationMessage st ((frameBytes k p).drop 1) = i) ∧
  (∀ st (body : List Byte) (hi lo : Byte), [hi, lo] ≠ bytes16 (crc16 body) →
    stationMessage st (body ++ [hi, lo]) = .stationMessageDiscarded st) ∧
  ∀ (kind : Byte) (payload : List Byte), payload.length ≤ 250 →
    receiveBytes none ((frameBytes kind payload).map fun b => ⟨b, false⟩) = [.goodFrame kind payload]

end
end

