-- ==== Sys2Proof/Laws/Decode.lean ====
section
/-! SUPPORT. The laws of the envelope of section 11.1: what its check covers, and what a whole frame and a station's message whose
check fails bring. -/
namespace Sys2Proof

@[simp] theorem checkedPart_append (body : List Byte) (hi lo : Byte) : checkedPart (body ++ [hi, lo]) = body := by
  simp [checkedPart]

theorem checkPasses_append (body : List Byte) (hi lo : Byte) :
    checkPasses (body ++ [hi, lo]) = decide (bytes16 (crc16 body) = [hi, lo]) := by
  simp [checkPasses]

theorem wholeFrame_of_check_fails {body : List Byte} (h : checkPasses body = false) : wholeFrame body = .badFrame := by
  simp [wholeFrame, h]

theorem stationMessage_of_check_fails (st : Station) {body : List Byte} (h : checkPasses body = false) :
    stationMessage st body = .stationMessageDiscarded st := by
  simp [stationMessage, h]

/-- A message whose length byte counts its payload and whose check passes is read by its kind and payload. -/
theorem stationMessage_of_check_passes (st : Station) (kind : Byte) (p : List Byte) (h : p.length < 256) :
    stationMessage st ([BitVec.ofNat 8 p.length, kind] ++ p ++ bytes16 (crc16 ([BitVec.ofNat 8 p.length, kind] ++ p))) =
      stationCommand st kind p := by
  have c : checkPasses ([BitVec.ofNat 8 p.length, kind] ++ p ++ bytes16 (crc16 ([BitVec.ofNat 8 p.length, kind] ++ p))) = true :=
    (checkPasses_append _ _ _).trans (decide_eq_true rfl)
  have k : checkedPart ([BitVec.ofNat 8 p.length, kind] ++ p ++ bytes16 (crc16 ([BitVec.ofNat 8 p.length, kind] ++ p))) = _ :=
    checkedPart_append _ _ _
  rw [stationMessage, c, k]
  simp [bytes16, Nat.mod_eq_of_lt h]

end Sys2Proof
end

