-- ==== Sys2Proof/Laws/State.lean ====
section
/-! SUPPORT. One lemma for each field of State under each of its named updates, and the table laws. -/
namespace Sys2Proof.Machine

@[simp] theorem State.withPhase_phase (s : State) (x : Phase) : (s.withPhase x).phase = x := rfl
@[simp] theorem State.withPhase_resetHeld (s : State) (x : Phase) : (s.withPhase x).resetHeld = s.resetHeld := rfl
@[simp] theorem State.withPhase_msv (s : State) (x : Phase) : (s.withPhase x).msv = s.msv := rfl
@[simp] theorem State.withPhase_mbc (s : State) (x : Phase) : (s.withPhase x).mbc = s.mbc := rfl
@[simp] theorem State.withPhase_fba (s : State) (x : Phase) : (s.withPhase x).fba = s.fba := rfl
@[simp] theorem State.withPhase_pay (s : State) (x : Phase) : (s.withPhase x).pay = s.pay := rfl
@[simp] theorem State.withPhase_cru (s : State) (x : Phase) : (s.withPhase x).cru = s.cru := rfl
@[simp] theorem State.withPhase_flm (s : State) (x : Phase) : (s.withPhase x).flm = s.flm := rfl
@[simp] theorem State.withPhase_jrn (s : State) (x : Phase) : (s.withPhase x).jrn = s.jrn := rfl
@[simp] theorem State.withPhase_evu (s : State) (x : Phase) : (s.withPhase x).evu = s.evu := rfl
@[simp] theorem State.withPhase_sst (s : State) (x : Phase) : (s.withPhase x).sst = s.sst := rfl
@[simp] theorem State.withPhase_hli (s : State) (x : Phase) : (s.withPhase x).hli = s.hli := rfl
@[simp] theorem State.withPhase_out (s : State) (x : Phase) : (s.withPhase x).out = s.out := rfl
@[simp] theorem State.withPhase_pending (s : State) (x : Phase) : (s.withPhase x).pending = s.pending := rfl
@[simp] theorem State.withResetHeld_phase (s : State) (x : Bool) : (s.withResetHeld x).phase = s.phase := rfl
@[simp] theorem State.withResetHeld_resetHeld (s : State) (x : Bool) : (s.withResetHeld x).resetHeld = x := rfl
@[simp] theorem State.withResetHeld_msv (s : State) (x : Bool) : (s.withResetHeld x).msv = s.msv := rfl
@[simp] theorem State.withResetHeld_mbc (s : State) (x : Bool) : (s.withResetHeld x).mbc = s.mbc := rfl
@[simp] theorem State.withResetHeld_fba (s : State) (x : Bool) : (s.withResetHeld x).fba = s.fba := rfl
@[simp] theorem State.withResetHeld_pay (s : State) (x : Bool) : (s.withResetHeld x).pay = s.pay := rfl
@[simp] theorem State.withResetHeld_cru (s : State) (x : Bool) : (s.withResetHeld x).cru = s.cru := rfl
@[simp] theorem State.withResetHeld_flm (s : State) (x : Bool) : (s.withResetHeld x).flm = s.flm := rfl
@[simp] theorem State.withResetHeld_jrn (s : State) (x : Bool) : (s.withResetHeld x).jrn = s.jrn := rfl
@[simp] theorem State.withResetHeld_evu (s : State) (x : Bool) : (s.withResetHeld x).evu = s.evu := rfl
@[simp] theorem State.withResetHeld_sst (s : State) (x : Bool) : (s.withResetHeld x).sst = s.sst := rfl
@[simp] theorem State.withResetHeld_hli (s : State) (x : Bool) : (s.withResetHeld x).hli = s.hli := rfl
@[simp] theorem State.withResetHeld_out (s : State) (x : Bool) : (s.withResetHeld x).out = s.out := rfl
@[simp] theorem State.withResetHeld_pending (s : State) (x : Bool) : (s.withResetHeld x).pending = s.pending := rfl
@[simp] theorem State.withMsv_phase (s : State) (x : Msv) : (s.withMsv x).phase = s.phase := rfl
@[simp] theorem State.withMsv_resetHeld (s : State) (x : Msv) : (s.withMsv x).resetHeld = s.resetHeld := rfl
@[simp] theorem State.withMsv_msv (s : State) (x : Msv) : (s.withMsv x).msv = x := rfl
@[simp] theorem State.withMsv_mbc (s : State) (x : Msv) : (s.withMsv x).mbc = s.mbc := rfl
@[simp] theorem State.withMsv_fba (s : State) (x : Msv) : (s.withMsv x).fba = s.fba := rfl
@[simp] theorem State.withMsv_pay (s : State) (x : Msv) : (s.withMsv x).pay = s.pay := rfl
@[simp] theorem State.withMsv_cru (s : State) (x : Msv) : (s.withMsv x).cru = s.cru := rfl
@[simp] theorem State.withMsv_flm (s : State) (x : Msv) : (s.withMsv x).flm = s.flm := rfl
@[simp] theorem State.withMsv_jrn (s : State) (x : Msv) : (s.withMsv x).jrn = s.jrn := rfl
@[simp] theorem State.withMsv_evu (s : State) (x : Msv) : (s.withMsv x).evu = s.evu := rfl
@[simp] theorem State.withMsv_sst (s : State) (x : Msv) : (s.withMsv x).sst = s.sst := rfl
@[simp] theorem State.withMsv_hli (s : State) (x : Msv) : (s.withMsv x).hli = s.hli := rfl
@[simp] theorem State.withMsv_out (s : State) (x : Msv) : (s.withMsv x).out = s.out := rfl
@[simp] theorem State.withMsv_pending (s : State) (x : Msv) : (s.withMsv x).pending = s.pending := rfl
@[simp] theorem State.withMbc_phase (s : State) (x : Mbc) : (s.withMbc x).phase = s.phase := rfl
@[simp] theorem State.withMbc_resetHeld (s : State) (x : Mbc) : (s.withMbc x).resetHeld = s.resetHeld := rfl
@[simp] theorem State.withMbc_msv (s : State) (x : Mbc) : (s.withMbc x).msv = s.msv := rfl
@[simp] theorem State.withMbc_mbc (s : State) (x : Mbc) : (s.withMbc x).mbc = x := rfl
@[simp] theorem State.withMbc_fba (s : State) (x : Mbc) : (s.withMbc x).fba = s.fba := rfl
@[simp] theorem State.withMbc_pay (s : State) (x : Mbc) : (s.withMbc x).pay = s.pay := rfl
@[simp] theorem State.withMbc_cru (s : State) (x : Mbc) : (s.withMbc x).cru = s.cru := rfl
@[simp] theorem State.withMbc_flm (s : State) (x : Mbc) : (s.withMbc x).flm = s.flm := rfl
@[simp] theorem State.withMbc_jrn (s : State) (x : Mbc) : (s.withMbc x).jrn = s.jrn := rfl
@[simp] theorem State.withMbc_evu (s : State) (x : Mbc) : (s.withMbc x).evu = s.evu := rfl
@[simp] theorem State.withMbc_sst (s : State) (x : Mbc) : (s.withMbc x).sst = s.sst := rfl
@[simp] theorem State.withMbc_hli (s : State) (x : Mbc) : (s.withMbc x).hli = s.hli := rfl
@[simp] theorem State.withMbc_out (s : State) (x : Mbc) : (s.withMbc x).out = s.out := rfl
@[simp] theorem State.withMbc_pending (s : State) (x : Mbc) : (s.withMbc x).pending = s.pending := rfl
@[simp] theorem State.withFba_phase (s : State) (x : Fba) : (s.withFba x).phase = s.phase := rfl
@[simp] theorem State.withFba_resetHeld (s : State) (x : Fba) : (s.withFba x).resetHeld = s.resetHeld := rfl
@[simp] theorem State.withFba_msv (s : State) (x : Fba) : (s.withFba x).msv = s.msv := rfl
@[simp] theorem State.withFba_mbc (s : State) (x : Fba) : (s.withFba x).mbc = s.mbc := rfl
@[simp] theorem State.withFba_fba (s : State) (x : Fba) : (s.withFba x).fba = x := rfl
@[simp] theorem State.withFba_pay (s : State) (x : Fba) : (s.withFba x).pay = s.pay := rfl
@[simp] theorem State.withFba_cru (s : State) (x : Fba) : (s.withFba x).cru = s.cru := rfl
@[simp] theorem State.withFba_flm (s : State) (x : Fba) : (s.withFba x).flm = s.flm := rfl
@[simp] theorem State.withFba_jrn (s : State) (x : Fba) : (s.withFba x).jrn = s.jrn := rfl
@[simp] theorem State.withFba_evu (s : State) (x : Fba) : (s.withFba x).evu = s.evu := rfl
@[simp] theorem State.withFba_sst (s : State) (x : Fba) : (s.withFba x).sst = s.sst := rfl
@[simp] theorem State.withFba_hli (s : State) (x : Fba) : (s.withFba x).hli = s.hli := rfl
@[simp] theorem State.withFba_out (s : State) (x : Fba) : (s.withFba x).out = s.out := rfl
@[simp] theorem State.withFba_pending (s : State) (x : Fba) : (s.withFba x).pending = s.pending := rfl
@[simp] theorem State.withPay_phase (s : State) (x : Pay) : (s.withPay x).phase = s.phase := rfl
@[simp] theorem State.withPay_resetHeld (s : State) (x : Pay) : (s.withPay x).resetHeld = s.resetHeld := rfl
@[simp] theorem State.withPay_msv (s : State) (x : Pay) : (s.withPay x).msv = s.msv := rfl
@[simp] theorem State.withPay_mbc (s : State) (x : Pay) : (s.withPay x).mbc = s.mbc := rfl
@[simp] theorem State.withPay_fba (s : State) (x : Pay) : (s.withPay x).fba = s.fba := rfl
@[simp] theorem State.withPay_pay (s : State) (x : Pay) : (s.withPay x).pay = x := rfl
@[simp] theorem State.withPay_cru (s : State) (x : Pay) : (s.withPay x).cru = s.cru := rfl
@[simp] theorem State.withPay_flm (s : State) (x : Pay) : (s.withPay x).flm = s.flm := rfl
@[simp] theorem State.withPay_jrn (s : State) (x : Pay) : (s.withPay x).jrn = s.jrn := rfl
@[simp] theorem State.withPay_evu (s : State) (x : Pay) : (s.withPay x).evu = s.evu := rfl
@[simp] theorem State.withPay_sst (s : State) (x : Pay) : (s.withPay x).sst = s.sst := rfl
@[simp] theorem State.withPay_hli (s : State) (x : Pay) : (s.withPay x).hli = s.hli := rfl
@[simp] theorem State.withPay_out (s : State) (x : Pay) : (s.withPay x).out = s.out := rfl
@[simp] theorem State.withPay_pending (s : State) (x : Pay) : (s.withPay x).pending = s.pending := rfl
@[simp] theorem State.withCru_phase (s : State) (x : Cru) : (s.withCru x).phase = s.phase := rfl
@[simp] theorem State.withCru_resetHeld (s : State) (x : Cru) : (s.withCru x).resetHeld = s.resetHeld := rfl
@[simp] theorem State.withCru_msv (s : State) (x : Cru) : (s.withCru x).msv = s.msv := rfl
@[simp] theorem State.withCru_mbc (s : State) (x : Cru) : (s.withCru x).mbc = s.mbc := rfl
@[simp] theorem State.withCru_fba (s : State) (x : Cru) : (s.withCru x).fba = s.fba := rfl
@[simp] theorem State.withCru_pay (s : State) (x : Cru) : (s.withCru x).pay = s.pay := rfl
@[simp] theorem State.withCru_cru (s : State) (x : Cru) : (s.withCru x).cru = x := rfl
@[simp] theorem State.withCru_flm (s : State) (x : Cru) : (s.withCru x).flm = s.flm := rfl
@[simp] theorem State.withCru_jrn (s : State) (x : Cru) : (s.withCru x).jrn = s.jrn := rfl
@[simp] theorem State.withCru_evu (s : State) (x : Cru) : (s.withCru x).evu = s.evu := rfl
@[simp] theorem State.withCru_sst (s : State) (x : Cru) : (s.withCru x).sst = s.sst := rfl
@[simp] theorem State.withCru_hli (s : State) (x : Cru) : (s.withCru x).hli = s.hli := rfl
@[simp] theorem State.withCru_out (s : State) (x : Cru) : (s.withCru x).out = s.out := rfl
@[simp] theorem State.withCru_pending (s : State) (x : Cru) : (s.withCru x).pending = s.pending := rfl
@[simp] theorem State.withFlm_phase (s : State) (x : PerMachine FaultRecord) : (s.withFlm x).phase = s.phase := rfl
@[simp] theorem State.withFlm_resetHeld (s : State) (x : PerMachine FaultRecord) : (s.withFlm x).resetHeld = s.resetHeld := rfl
@[simp] theorem State.withFlm_msv (s : State) (x : PerMachine FaultRecord) : (s.withFlm x).msv = s.msv := rfl
@[simp] theorem State.withFlm_mbc (s : State) (x : PerMachine FaultRecord) : (s.withFlm x).mbc = s.mbc := rfl
@[simp] theorem State.withFlm_fba (s : State) (x : PerMachine FaultRecord) : (s.withFlm x).fba = s.fba := rfl
@[simp] theorem State.withFlm_pay (s : State) (x : PerMachine FaultRecord) : (s.withFlm x).pay = s.pay := rfl
@[simp] theorem State.withFlm_cru (s : State) (x : PerMachine FaultRecord) : (s.withFlm x).cru = s.cru := rfl
@[simp] theorem State.withFlm_flm (s : State) (x : PerMachine FaultRecord) : (s.withFlm x).flm = x := rfl
@[simp] theorem State.withFlm_jrn (s : State) (x : PerMachine FaultRecord) : (s.withFlm x).jrn = s.jrn := rfl
@[simp] theorem State.withFlm_evu (s : State) (x : PerMachine FaultRecord) : (s.withFlm x).evu = s.evu := rfl
@[simp] theorem State.withFlm_sst (s : State) (x : PerMachine FaultRecord) : (s.withFlm x).sst = s.sst := rfl
@[simp] theorem State.withFlm_hli (s : State) (x : PerMachine FaultRecord) : (s.withFlm x).hli = s.hli := rfl
@[simp] theorem State.withFlm_out (s : State) (x : PerMachine FaultRecord) : (s.withFlm x).out = s.out := rfl
@[simp] theorem State.withFlm_pending (s : State) (x : PerMachine FaultRecord) : (s.withFlm x).pending = s.pending := rfl
@[simp] theorem State.withJrn_phase (s : State) (x : Jrn) : (s.withJrn x).phase = s.phase := rfl
@[simp] theorem State.withJrn_resetHeld (s : State) (x : Jrn) : (s.withJrn x).resetHeld = s.resetHeld := rfl
@[simp] theorem State.withJrn_msv (s : State) (x : Jrn) : (s.withJrn x).msv = s.msv := rfl
@[simp] theorem State.withJrn_mbc (s : State) (x : Jrn) : (s.withJrn x).mbc = s.mbc := rfl
@[simp] theorem State.withJrn_fba (s : State) (x : Jrn) : (s.withJrn x).fba = s.fba := rfl
@[simp] theorem State.withJrn_pay (s : State) (x : Jrn) : (s.withJrn x).pay = s.pay := rfl
@[simp] theorem State.withJrn_cru (s : State) (x : Jrn) : (s.withJrn x).cru = s.cru := rfl
@[simp] theorem State.withJrn_flm (s : State) (x : Jrn) : (s.withJrn x).flm = s.flm := rfl
@[simp] theorem State.withJrn_jrn (s : State) (x : Jrn) : (s.withJrn x).jrn = x := rfl
@[simp] theorem State.withJrn_evu (s : State) (x : Jrn) : (s.withJrn x).evu = s.evu := rfl
@[simp] theorem State.withJrn_sst (s : State) (x : Jrn) : (s.withJrn x).sst = s.sst := rfl
@[simp] theorem State.withJrn_hli (s : State) (x : Jrn) : (s.withJrn x).hli = s.hli := rfl
@[simp] theorem State.withJrn_out (s : State) (x : Jrn) : (s.withJrn x).out = s.out := rfl
@[simp] theorem State.withJrn_pending (s : State) (x : Jrn) : (s.withJrn x).pending = s.pending := rfl
@[simp] theorem State.withEvu_phase (s : State) (x : Evu) : (s.withEvu x).phase = s.phase := rfl
@[simp] theorem State.withEvu_resetHeld (s : State) (x : Evu) : (s.withEvu x).resetHeld = s.resetHeld := rfl
@[simp] theorem State.withEvu_msv (s : State) (x : Evu) : (s.withEvu x).msv = s.msv := rfl
@[simp] theorem State.withEvu_mbc (s : State) (x : Evu) : (s.withEvu x).mbc = s.mbc := rfl
@[simp] theorem State.withEvu_fba (s : State) (x : Evu) : (s.withEvu x).fba = s.fba := rfl
@[simp] theorem State.withEvu_pay (s : State) (x : Evu) : (s.withEvu x).pay = s.pay := rfl
@[simp] theorem State.withEvu_cru (s : State) (x : Evu) : (s.withEvu x).cru = s.cru := rfl
@[simp] theorem State.withEvu_flm (s : State) (x : Evu) : (s.withEvu x).flm = s.flm := rfl
@[simp] theorem State.withEvu_jrn (s : State) (x : Evu) : (s.withEvu x).jrn = s.jrn := rfl
@[simp] theorem State.withEvu_evu (s : State) (x : Evu) : (s.withEvu x).evu = x := rfl
@[simp] theorem State.withEvu_sst (s : State) (x : Evu) : (s.withEvu x).sst = s.sst := rfl
@[simp] theorem State.withEvu_hli (s : State) (x : Evu) : (s.withEvu x).hli = s.hli := rfl
@[simp] theorem State.withEvu_out (s : State) (x : Evu) : (s.withEvu x).out = s.out := rfl
@[simp] theorem State.withEvu_pending (s : State) (x : Evu) : (s.withEvu x).pending = s.pending := rfl
@[simp] theorem State.withSst_phase (s : State) (x : Sst) : (s.withSst x).phase = s.phase := rfl
@[simp] theorem State.withSst_resetHeld (s : State) (x : Sst) : (s.withSst x).resetHeld = s.resetHeld := rfl
@[simp] theorem State.withSst_msv (s : State) (x : Sst) : (s.withSst x).msv = s.msv := rfl
@[simp] theorem State.withSst_mbc (s : State) (x : Sst) : (s.withSst x).mbc = s.mbc := rfl
@[simp] theorem State.withSst_fba (s : State) (x : Sst) : (s.withSst x).fba = s.fba := rfl
@[simp] theorem State.withSst_pay (s : State) (x : Sst) : (s.withSst x).pay = s.pay := rfl
@[simp] theorem State.withSst_cru (s : State) (x : Sst) : (s.withSst x).cru = s.cru := rfl
@[simp] theorem State.withSst_flm (s : State) (x : Sst) : (s.withSst x).flm = s.flm := rfl
@[simp] theorem State.withSst_jrn (s : State) (x : Sst) : (s.withSst x).jrn = s.jrn := rfl
@[simp] theorem State.withSst_evu (s : State) (x : Sst) : (s.withSst x).evu = s.evu := rfl
@[simp] theorem State.withSst_sst (s : State) (x : Sst) : (s.withSst x).sst = x := rfl
@[simp] theorem State.withSst_hli (s : State) (x : Sst) : (s.withSst x).hli = s.hli := rfl
@[simp] theorem State.withSst_out (s : State) (x : Sst) : (s.withSst x).out = s.out := rfl
@[simp] theorem State.withSst_pending (s : State) (x : Sst) : (s.withSst x).pending = s.pending := rfl
@[simp] theorem State.withHli_phase (s : State) (x : Hli) : (s.withHli x).phase = s.phase := rfl
@[simp] theorem State.withHli_resetHeld (s : State) (x : Hli) : (s.withHli x).resetHeld = s.resetHeld := rfl
@[simp] theorem State.withHli_msv (s : State) (x : Hli) : (s.withHli x).msv = s.msv := rfl
@[simp] theorem State.withHli_mbc (s : State) (x : Hli) : (s.withHli x).mbc = s.mbc := rfl
@[simp] theorem State.withHli_fba (s : State) (x : Hli) : (s.withHli x).fba = s.fba := rfl
@[simp] theorem State.withHli_pay (s : State) (x : Hli) : (s.withHli x).pay = s.pay := rfl
@[simp] theorem State.withHli_cru (s : State) (x : Hli) : (s.withHli x).cru = s.cru := rfl
@[simp] theorem State.withHli_flm (s : State) (x : Hli) : (s.withHli x).flm = s.flm := rfl
@[simp] theorem State.withHli_jrn (s : State) (x : Hli) : (s.withHli x).jrn = s.jrn := rfl
@[simp] theorem State.withHli_evu (s : State) (x : Hli) : (s.withHli x).evu = s.evu := rfl
@[simp] theorem State.withHli_sst (s : State) (x : Hli) : (s.withHli x).sst = s.sst := rfl
@[simp] theorem State.withHli_hli (s : State) (x : Hli) : (s.withHli x).hli = x := rfl
@[simp] theorem State.withHli_out (s : State) (x : Hli) : (s.withHli x).out = s.out := rfl
@[simp] theorem State.withHli_pending (s : State) (x : Hli) : (s.withHli x).pending = s.pending := rfl
@[simp] theorem State.withOut_phase (s : State) (x : Outputs) : (s.withOut x).phase = s.phase := rfl
@[simp] theorem State.withOut_resetHeld (s : State) (x : Outputs) : (s.withOut x).resetHeld = s.resetHeld := rfl
@[simp] theorem State.withOut_msv (s : State) (x : Outputs) : (s.withOut x).msv = s.msv := rfl
@[simp] theorem State.withOut_mbc (s : State) (x : Outputs) : (s.withOut x).mbc = s.mbc := rfl
@[simp] theorem State.withOut_fba (s : State) (x : Outputs) : (s.withOut x).fba = s.fba := rfl
@[simp] theorem State.withOut_pay (s : State) (x : Outputs) : (s.withOut x).pay = s.pay := rfl
@[simp] theorem State.withOut_cru (s : State) (x : Outputs) : (s.withOut x).cru = s.cru := rfl
@[simp] theorem State.withOut_flm (s : State) (x : Outputs) : (s.withOut x).flm = s.flm := rfl
@[simp] theorem State.withOut_jrn (s : State) (x : Outputs) : (s.withOut x).jrn = s.jrn := rfl
@[simp] theorem State.withOut_evu (s : State) (x : Outputs) : (s.withOut x).evu = s.evu := rfl
@[simp] theorem State.withOut_sst (s : State) (x : Outputs) : (s.withOut x).sst = s.sst := rfl
@[simp] theorem State.withOut_hli (s : State) (x : Outputs) : (s.withOut x).hli = s.hli := rfl
@[simp] theorem State.withOut_out (s : State) (x : Outputs) : (s.withOut x).out = x := rfl
@[simp] theorem State.withOut_pending (s : State) (x : Outputs) : (s.withOut x).pending = s.pending := rfl
@[simp] theorem State.withPending_phase (s : State) (x : List Instr) : (s.withPending x).phase = s.phase := rfl
@[simp] theorem State.withPending_resetHeld (s : State) (x : List Instr) : (s.withPending x).resetHeld = s.resetHeld := rfl
@[simp] theorem State.withPending_msv (s : State) (x : List Instr) : (s.withPending x).msv = s.msv := rfl
@[simp] theorem State.withPending_mbc (s : State) (x : List Instr) : (s.withPending x).mbc = s.mbc := rfl
@[simp] theorem State.withPending_fba (s : State) (x : List Instr) : (s.withPending x).fba = s.fba := rfl
@[simp] theorem State.withPending_pay (s : State) (x : List Instr) : (s.withPending x).pay = s.pay := rfl
@[simp] theorem State.withPending_cru (s : State) (x : List Instr) : (s.withPending x).cru = s.cru := rfl
@[simp] theorem State.withPending_flm (s : State) (x : List Instr) : (s.withPending x).flm = s.flm := rfl
@[simp] theorem State.withPending_jrn (s : State) (x : List Instr) : (s.withPending x).jrn = s.jrn := rfl
@[simp] theorem State.withPending_evu (s : State) (x : List Instr) : (s.withPending x).evu = s.evu := rfl
@[simp] theorem State.withPending_sst (s : State) (x : List Instr) : (s.withPending x).sst = s.sst := rfl
@[simp] theorem State.withPending_hli (s : State) (x : List Instr) : (s.withPending x).hli = s.hli := rfl
@[simp] theorem State.withPending_out (s : State) (x : List Instr) : (s.withPending x).out = s.out := rfl
@[simp] theorem State.withPending_pending (s : State) (x : List Instr) : (s.withPending x).pending = x := rfl

/-! ## Tables of 24 -/

@[simp] theorem PerMachine.at_put_self {α : Type} (v : PerMachine α) (m : Addr) (x : α) : (v.put m x).at m = x := by
  simp [PerMachine.at, PerMachine.put]

theorem PerMachine.at_put_ne {α : Type} (v : PerMachine α) {m n : Addr} (x : α) (h : m ≠ n) : (v.put m x).at n = v.at n := by
  have : m.val ≠ n.val := fun e => h (Fin.ext e)
  simp [PerMachine.at, PerMachine.put, this]

theorem PerMachine.at_put {α : Type} (v : PerMachine α) (m n : Addr) (x : α) :
    (v.put m x).at n = if m = n then x else v.at n := by
  split
  · next h => subst h; simp
  · next h => exact PerMachine.at_put_ne v x h

@[simp] theorem PerMachine.at_mapAll {α β : Type} (v : PerMachine α) (f : α → β) (m : Addr) : (v.mapAll f).at m = f (v.at m) := by
  simp [PerMachine.at, PerMachine.mapAll]

@[simp] theorem PerMachine.at_mapWith {α β : Type} (v : PerMachine α) (f : Addr → α → β) (m : Addr) :
    (v.mapWith f).at m = f m (v.at m) := by
  have h : ∀ i : Addr, allMachines[i.val]'(by simp [allMachines]) = i := by decide
  simp [PerMachine.at, PerMachine.mapWith, h]

theorem PerMachine.ext {α : Type} {v w : PerMachine α} (h : ∀ m, v.at m = w.at m) : v = w := by
  apply Vector.ext
  intro i hi
  exact h ⟨i, hi⟩

end Sys2Proof.Machine
end

