-- ==== Sys2Proof/Laws/Ops.lean ====
section
/-! SUPPORT. The laws of the shared operations of Machine/Ops.lean and Machine/Flags.lean: what each one reads back, which parts
it leaves, and the cases of what the journal does. -/
namespace Sys2Proof.Machine

/-! ## Tables: what an update reads back -/

@[simp] theorem State.record_setRecord (s : State) (m n : Addr) (x : MachineRecord) :
    (s.setRecord m x).record n = if m = n then x else s.record n := by
  simp [State.record, State.setRecord, PerMachine.at_put]
@[simp] theorem State.node_setRecord (s : State) (m n : Addr) (x : MachineRecord) : (s.setRecord m x).node n = s.node n := rfl
@[simp] theorem State.grant_setRecord (s : State) (m n : Addr) (x : MachineRecord) : (s.setRecord m x).grant n = s.grant n := rfl
@[simp] theorem State.faults_setRecord (s : State) (m n : Addr) (x : MachineRecord) : (s.setRecord m x).faults n = s.faults n := rfl
@[simp] theorem State.exchange_setRecord (s : State) (m : Addr) (st : Station) (x : MachineRecord) :
    (s.setRecord m x).exchange st = s.exchange st := by cases st <;> rfl
@[simp] theorem State.setRecord_phase (s : State) (m : Addr) (x : MachineRecord) : (s.setRecord m x).phase = s.phase := rfl
@[simp] theorem State.setRecord_resetHeld (s : State) (m : Addr) (x : MachineRecord) : (s.setRecord m x).resetHeld = s.resetHeld := rfl
@[simp] theorem State.setRecord_mbc (s : State) (m : Addr) (x : MachineRecord) : (s.setRecord m x).mbc = s.mbc := rfl
@[simp] theorem State.setRecord_fba (s : State) (m : Addr) (x : MachineRecord) : (s.setRecord m x).fba = s.fba := rfl
@[simp] theorem State.setRecord_pay (s : State) (m : Addr) (x : MachineRecord) : (s.setRecord m x).pay = s.pay := rfl
@[simp] theorem State.setRecord_cru (s : State) (m : Addr) (x : MachineRecord) : (s.setRecord m x).cru = s.cru := rfl
@[simp] theorem State.setRecord_flm (s : State) (m : Addr) (x : MachineRecord) : (s.setRecord m x).flm = s.flm := rfl
@[simp] theorem State.setRecord_jrn (s : State) (m : Addr) (x : MachineRecord) : (s.setRecord m x).jrn = s.jrn := rfl
@[simp] theorem State.setRecord_evu (s : State) (m : Addr) (x : MachineRecord) : (s.setRecord m x).evu = s.evu := rfl
@[simp] theorem State.setRecord_sst (s : State) (m : Addr) (x : MachineRecord) : (s.setRecord m x).sst = s.sst := rfl
@[simp] theorem State.setRecord_hli (s : State) (m : Addr) (x : MachineRecord) : (s.setRecord m x).hli = s.hli := rfl
@[simp] theorem State.setRecord_out (s : State) (m : Addr) (x : MachineRecord) : (s.setRecord m x).out = s.out := rfl
@[simp] theorem State.setRecord_pending (s : State) (m : Addr) (x : MachineRecord) : (s.setRecord m x).pending = s.pending := rfl

@[simp] theorem State.node_setNode (s : State) (m n : Addr) (x : NodeEntry) :
    (s.setNode m x).node n = if m = n then x else s.node n := by
  simp [State.node, State.setNode, PerMachine.at_put]
@[simp] theorem State.record_setNode (s : State) (m n : Addr) (x : NodeEntry) : (s.setNode m x).record n = s.record n := rfl
@[simp] theorem State.grant_setNode (s : State) (m n : Addr) (x : NodeEntry) : (s.setNode m x).grant n = s.grant n := rfl
@[simp] theorem State.faults_setNode (s : State) (m n : Addr) (x : NodeEntry) : (s.setNode m x).faults n = s.faults n := rfl
@[simp] theorem State.exchange_setNode (s : State) (m : Addr) (st : Station) (x : NodeEntry) :
    (s.setNode m x).exchange st = s.exchange st := by cases st <;> rfl
@[simp] theorem State.setNode_phase (s : State) (m : Addr) (x : NodeEntry) : (s.setNode m x).phase = s.phase := rfl
@[simp] theorem State.setNode_resetHeld (s : State) (m : Addr) (x : NodeEntry) : (s.setNode m x).resetHeld = s.resetHeld := rfl
@[simp] theorem State.setNode_msv (s : State) (m : Addr) (x : NodeEntry) : (s.setNode m x).msv = s.msv := rfl
@[simp] theorem State.setNode_fba (s : State) (m : Addr) (x : NodeEntry) : (s.setNode m x).fba = s.fba := rfl
@[simp] theorem State.setNode_pay (s : State) (m : Addr) (x : NodeEntry) : (s.setNode m x).pay = s.pay := rfl
@[simp] theorem State.setNode_cru (s : State) (m : Addr) (x : NodeEntry) : (s.setNode m x).cru = s.cru := rfl
@[simp] theorem State.setNode_flm (s : State) (m : Addr) (x : NodeEntry) : (s.setNode m x).flm = s.flm := rfl
@[simp] theorem State.setNode_jrn (s : State) (m : Addr) (x : NodeEntry) : (s.setNode m x).jrn = s.jrn := rfl
@[simp] theorem State.setNode_evu (s : State) (m : Addr) (x : NodeEntry) : (s.setNode m x).evu = s.evu := rfl
@[simp] theorem State.setNode_sst (s : State) (m : Addr) (x : NodeEntry) : (s.setNode m x).sst = s.sst := rfl
@[simp] theorem State.setNode_hli (s : State) (m : Addr) (x : NodeEntry) : (s.setNode m x).hli = s.hli := rfl
@[simp] theorem State.setNode_out (s : State) (m : Addr) (x : NodeEntry) : (s.setNode m x).out = s.out := rfl
@[simp] theorem State.setNode_pending (s : State) (m : Addr) (x : NodeEntry) : (s.setNode m x).pending = s.pending := rfl

@[simp] theorem State.grant_setGrant (s : State) (m n : Addr) (x : GrantEntry) :
    (s.setGrant m x).grant n = if m = n then x else s.grant n := by
  simp [State.grant, State.setGrant, PerMachine.at_put]
@[simp] theorem State.record_setGrant (s : State) (m n : Addr) (x : GrantEntry) : (s.setGrant m x).record n = s.record n := rfl
@[simp] theorem State.node_setGrant (s : State) (m n : Addr) (x : GrantEntry) : (s.setGrant m x).node n = s.node n := rfl
@[simp] theorem State.faults_setGrant (s : State) (m n : Addr) (x : GrantEntry) : (s.setGrant m x).faults n = s.faults n := rfl
@[simp] theorem State.exchange_setGrant (s : State) (m : Addr) (st : Station) (x : GrantEntry) :
    (s.setGrant m x).exchange st = s.exchange st := by cases st <;> rfl
@[simp] theorem State.setGrant_phase (s : State) (m : Addr) (x : GrantEntry) : (s.setGrant m x).phase = s.phase := rfl
@[simp] theorem State.setGrant_resetHeld (s : State) (m : Addr) (x : GrantEntry) : (s.setGrant m x).resetHeld = s.resetHeld := rfl
@[simp] theorem State.setGrant_msv (s : State) (m : Addr) (x : GrantEntry) : (s.setGrant m x).msv = s.msv := rfl
@[simp] theorem State.setGrant_mbc (s : State) (m : Addr) (x : GrantEntry) : (s.setGrant m x).mbc = s.mbc := rfl
@[simp] theorem State.setGrant_pay (s : State) (m : Addr) (x : GrantEntry) : (s.setGrant m x).pay = s.pay := rfl
@[simp] theorem State.setGrant_cru (s : State) (m : Addr) (x : GrantEntry) : (s.setGrant m x).cru = s.cru := rfl
@[simp] theorem State.setGrant_flm (s : State) (m : Addr) (x : GrantEntry) : (s.setGrant m x).flm = s.flm := rfl
@[simp] theorem State.setGrant_jrn (s : State) (m : Addr) (x : GrantEntry) : (s.setGrant m x).jrn = s.jrn := rfl
@[simp] theorem State.setGrant_evu (s : State) (m : Addr) (x : GrantEntry) : (s.setGrant m x).evu = s.evu := rfl
@[simp] theorem State.setGrant_sst (s : State) (m : Addr) (x : GrantEntry) : (s.setGrant m x).sst = s.sst := rfl
@[simp] theorem State.setGrant_hli (s : State) (m : Addr) (x : GrantEntry) : (s.setGrant m x).hli = s.hli := rfl
@[simp] theorem State.setGrant_out (s : State) (m : Addr) (x : GrantEntry) : (s.setGrant m x).out = s.out := rfl
@[simp] theorem State.setGrant_pending (s : State) (m : Addr) (x : GrantEntry) : (s.setGrant m x).pending = s.pending := rfl

@[simp] theorem State.faults_setFaults (s : State) (m n : Addr) (x : FaultRecord) :
    (s.setFaults m x).faults n = if m = n then x else s.faults n := by
  simp [State.faults, State.setFaults, PerMachine.at_put]
@[simp] theorem State.record_setFaults (s : State) (m n : Addr) (x : FaultRecord) : (s.setFaults m x).record n = s.record n := rfl
@[simp] theorem State.node_setFaults (s : State) (m n : Addr) (x : FaultRecord) : (s.setFaults m x).node n = s.node n := rfl
@[simp] theorem State.grant_setFaults (s : State) (m n : Addr) (x : FaultRecord) : (s.setFaults m x).grant n = s.grant n := rfl
@[simp] theorem State.exchange_setFaults (s : State) (m : Addr) (st : Station) (x : FaultRecord) :
    (s.setFaults m x).exchange st = s.exchange st := by cases st <;> rfl
@[simp] theorem State.setFaults_phase (s : State) (m : Addr) (x : FaultRecord) : (s.setFaults m x).phase = s.phase := rfl
@[simp] theorem State.setFaults_resetHeld (s : State) (m : Addr) (x : FaultRecord) : (s.setFaults m x).resetHeld = s.resetHeld := rfl
@[simp] theorem State.setFaults_msv (s : State) (m : Addr) (x : FaultRecord) : (s.setFaults m x).msv = s.msv := rfl
@[simp] theorem State.setFaults_mbc (s : State) (m : Addr) (x : FaultRecord) : (s.setFaults m x).mbc = s.mbc := rfl
@[simp] theorem State.setFaults_fba (s : State) (m : Addr) (x : FaultRecord) : (s.setFaults m x).fba = s.fba := rfl
@[simp] theorem State.setFaults_pay (s : State) (m : Addr) (x : FaultRecord) : (s.setFaults m x).pay = s.pay := rfl
@[simp] theorem State.setFaults_cru (s : State) (m : Addr) (x : FaultRecord) : (s.setFaults m x).cru = s.cru := rfl
@[simp] theorem State.setFaults_jrn (s : State) (m : Addr) (x : FaultRecord) : (s.setFaults m x).jrn = s.jrn := rfl
@[simp] theorem State.setFaults_evu (s : State) (m : Addr) (x : FaultRecord) : (s.setFaults m x).evu = s.evu := rfl
@[simp] theorem State.setFaults_sst (s : State) (m : Addr) (x : FaultRecord) : (s.setFaults m x).sst = s.sst := rfl
@[simp] theorem State.setFaults_hli (s : State) (m : Addr) (x : FaultRecord) : (s.setFaults m x).hli = s.hli := rfl
@[simp] theorem State.setFaults_out (s : State) (m : Addr) (x : FaultRecord) : (s.setFaults m x).out = s.out := rfl
@[simp] theorem State.setFaults_pending (s : State) (m : Addr) (x : FaultRecord) : (s.setFaults m x).pending = s.pending := rfl

@[simp] theorem State.exchange_setExchange (s : State) (st su : Station) (x : Exchange) :
    (s.setExchange st x).exchange su = if st = su then x else s.exchange su := by
  cases st <;> cases su <;> rfl
@[simp] theorem State.record_setExchange (s : State) (st : Station) (x : Exchange) (m : Addr) :
    (s.setExchange st x).record m = s.record m := by cases st <;> rfl
@[simp] theorem State.node_setExchange (s : State) (st : Station) (x : Exchange) (m : Addr) :
    (s.setExchange st x).node m = s.node m := by cases st <;> rfl
@[simp] theorem State.grant_setExchange (s : State) (st : Station) (x : Exchange) (m : Addr) :
    (s.setExchange st x).grant m = s.grant m := by cases st <;> rfl
@[simp] theorem State.faults_setExchange (s : State) (st : Station) (x : Exchange) (m : Addr) :
    (s.setExchange st x).faults m = s.faults m := by cases st <;> rfl
@[simp] theorem State.setExchange_phase (s : State) (st : Station) (x : Exchange) : (s.setExchange st x).phase = s.phase := by
  cases st <;> rfl
@[simp] theorem State.setExchange_resetHeld (s : State) (st : Station) (x : Exchange) : (s.setExchange st x).resetHeld = s.resetHeld := by
  cases st <;> rfl
@[simp] theorem State.setExchange_msv (s : State) (st : Station) (x : Exchange) : (s.setExchange st x).msv = s.msv := by
  cases st <;> rfl
@[simp] theorem State.setExchange_mbc (s : State) (st : Station) (x : Exchange) : (s.setExchange st x).mbc = s.mbc := by
  cases st <;> rfl
@[simp] theorem State.setExchange_fba (s : State) (st : Station) (x : Exchange) : (s.setExchange st x).fba = s.fba := by
  cases st <;> rfl
@[simp] theorem State.setExchange_cru (s : State) (st : Station) (x : Exchange) : (s.setExchange st x).cru = s.cru := by
  cases st <;> rfl
@[simp] theorem State.setExchange_flm (s : State) (st : Station) (x : Exchange) : (s.setExchange st x).flm = s.flm := by
  cases st <;> rfl
@[simp] theorem State.setExchange_jrn (s : State) (st : Station) (x : Exchange) : (s.setExchange st x).jrn = s.jrn := by
  cases st <;> rfl
@[simp] theorem State.setExchange_evu (s : State) (st : Station) (x : Exchange) : (s.setExchange st x).evu = s.evu := by
  cases st <;> rfl
@[simp] theorem State.setExchange_sst (s : State) (st : Station) (x : Exchange) : (s.setExchange st x).sst = s.sst := by
  cases st <;> rfl
@[simp] theorem State.setExchange_hli (s : State) (st : Station) (x : Exchange) : (s.setExchange st x).hli = s.hli := by
  cases st <;> rfl
@[simp] theorem State.setExchange_out (s : State) (st : Station) (x : Exchange) : (s.setExchange st x).out = s.out := by
  cases st <;> rfl
@[simp] theorem State.setExchange_pending (s : State) (st : Station) (x : Exchange) : (s.setExchange st x).pending = s.pending := by
  cases st <;> rfl

@[simp] theorem sendStation_phase (st : Station) (x : StationMsg) (s : State) : (sendStation st x s).phase = s.phase := by
  cases st <;> rfl
@[simp] theorem sendStation_resetHeld (st : Station) (x : StationMsg) (s : State) : (sendStation st x s).resetHeld = s.resetHeld := by
  cases st <;> rfl
@[simp] theorem sendStation_msv (st : Station) (x : StationMsg) (s : State) : (sendStation st x s).msv = s.msv := by
  cases st <;> rfl
@[simp] theorem sendStation_mbc (st : Station) (x : StationMsg) (s : State) : (sendStation st x s).mbc = s.mbc := by
  cases st <;> rfl
@[simp] theorem sendStation_fba (st : Station) (x : StationMsg) (s : State) : (sendStation st x s).fba = s.fba := by
  cases st <;> rfl
@[simp] theorem sendStation_pay (st : Station) (x : StationMsg) (s : State) : (sendStation st x s).pay = s.pay := by
  cases st <;> rfl
@[simp] theorem sendStation_cru (st : Station) (x : StationMsg) (s : State) : (sendStation st x s).cru = s.cru := by
  cases st <;> rfl
@[simp] theorem sendStation_flm (st : Station) (x : StationMsg) (s : State) : (sendStation st x s).flm = s.flm := by
  cases st <;> rfl
@[simp] theorem sendStation_jrn (st : Station) (x : StationMsg) (s : State) : (sendStation st x s).jrn = s.jrn := by
  cases st <;> rfl
@[simp] theorem sendStation_evu (st : Station) (x : StationMsg) (s : State) : (sendStation st x s).evu = s.evu := by
  cases st <;> rfl
@[simp] theorem sendStation_sst (st : Station) (x : StationMsg) (s : State) : (sendStation st x s).sst = s.sst := by
  cases st <;> rfl
@[simp] theorem sendStation_hli (st : Station) (x : StationMsg) (s : State) : (sendStation st x s).hli = s.hli := by
  cases st <;> rfl
@[simp] theorem sendStation_pending (st : Station) (x : StationMsg) (s : State) : (sendStation st x s).pending = s.pending := by
  cases st <;> rfl

/-! ## Events -/

@[simp] theorem setEvent_phase (f : EventFlag) (s : State) : (setEvent f s).phase = s.phase := rfl
@[simp] theorem setEventIf_phase (c : Bool) (f : EventFlag) (s : State) : (setEventIf c f s).phase = s.phase := by
  cases c <;> rfl
@[simp] theorem setEvent_resetHeld (f : EventFlag) (s : State) : (setEvent f s).resetHeld = s.resetHeld := rfl
@[simp] theorem setEventIf_resetHeld (c : Bool) (f : EventFlag) (s : State) : (setEventIf c f s).resetHeld = s.resetHeld := by
  cases c <;> rfl
@[simp] theorem setEvent_msv (f : EventFlag) (s : State) : (setEvent f s).msv = s.msv := rfl
@[simp] theorem setEventIf_msv (c : Bool) (f : EventFlag) (s : State) : (setEventIf c f s).msv = s.msv := by
  cases c <;> rfl
@[simp] theorem setEvent_mbc (f : EventFlag) (s : State) : (setEvent f s).mbc = s.mbc := rfl
@[simp] theorem setEventIf_mbc (c : Bool) (f : EventFlag) (s : State) : (setEventIf c f s).mbc = s.mbc := by
  cases c <;> rfl
@[simp] theorem setEvent_fba (f : EventFlag) (s : State) : (setEvent f s).fba = s.fba := rfl
@[simp] theorem setEventIf_fba (c : Bool) (f : EventFlag) (s : State) : (setEventIf c f s).fba = s.fba := by
  cases c <;> rfl
@[simp] theorem setEvent_pay (f : EventFlag) (s : State) : (setEvent f s).pay = s.pay := rfl
@[simp] theorem setEventIf_pay (c : Bool) (f : EventFlag) (s : State) : (setEventIf c f s).pay = s.pay := by
  cases c <;> rfl
@[simp] theorem setEvent_cru (f : EventFlag) (s : State) : (setEvent f s).cru = s.cru := rfl
@[simp] theorem setEventIf_cru (c : Bool) (f : EventFlag) (s : State) : (setEventIf c f s).cru = s.cru := by
  cases c <;> rfl
@[simp] theorem setEvent_flm (f : EventFlag) (s : State) : (setEvent f s).flm = s.flm := rfl
@[simp] theorem setEventIf_flm (c : Bool) (f : EventFlag) (s : State) : (setEventIf c f s).flm = s.flm := by
  cases c <;> rfl
@[simp] theorem setEvent_jrn (f : EventFlag) (s : State) : (setEvent f s).jrn = s.jrn := rfl
@[simp] theorem setEventIf_jrn (c : Bool) (f : EventFlag) (s : State) : (setEventIf c f s).jrn = s.jrn := by
  cases c <;> rfl
@[simp] theorem setEvent_sst (f : EventFlag) (s : State) : (setEvent f s).sst = s.sst := rfl
@[simp] theorem setEventIf_sst (c : Bool) (f : EventFlag) (s : State) : (setEventIf c f s).sst = s.sst := by
  cases c <;> rfl
@[simp] theorem setEvent_hli (f : EventFlag) (s : State) : (setEvent f s).hli = s.hli := rfl
@[simp] theorem setEventIf_hli (c : Bool) (f : EventFlag) (s : State) : (setEventIf c f s).hli = s.hli := by
  cases c <;> rfl
@[simp] theorem setEvent_out (f : EventFlag) (s : State) : (setEvent f s).out = s.out := rfl
@[simp] theorem setEventIf_out (c : Bool) (f : EventFlag) (s : State) : (setEventIf c f s).out = s.out := by
  cases c <;> rfl
@[simp] theorem setEvent_pending (f : EventFlag) (s : State) : (setEvent f s).pending = s.pending := rfl
@[simp] theorem setEventIf_pending (c : Bool) (f : EventFlag) (s : State) : (setEventIf c f s).pending = s.pending := by
  cases c <;> rfl

/-- R167: a flag set is set, and every other flag stands as it did. -/
theorem Evu.isSet_set (e : Evu) (f g : EventFlag) : (e.set f).isSet g = (decide (f = g) || e.isSet g) := by
  cases f <;> cases g <;> simp [Evu.set, Evu.isSet, Evu.findAttn, EventFlag.index]

/-- R167: setting a flag leaves masks and enables. -/
theorem Evu.set_masks (e : Evu) (f : EventFlag) :
    (e.set f).masks = e.masks ∧ (e.set f).routine = e.routine ∧ (e.set f).exceptional = e.exceptional := ⟨rfl, rfl, rfl⟩

/-- R169: whoever finds ATTN again leaves it as the calling flags say. -/
theorem Evu.findAttn_attn (e : Evu) : e.findAttn.attn = e.findAttn.calls := rfl

/-! ## The journal -/

@[simp] theorem withJournal_phase (j : Jrn) (s : State) : (withJournal j s).phase = s.phase := by
  unfold withJournal; dsimp only; split; · rfl
  · split <;> rfl
@[simp] theorem withJournal_resetHeld (j : Jrn) (s : State) : (withJournal j s).resetHeld = s.resetHeld := by
  unfold withJournal; dsimp only; split; · rfl
  · split <;> rfl
@[simp] theorem withJournal_msv (j : Jrn) (s : State) : (withJournal j s).msv = s.msv := by
  unfold withJournal; dsimp only; split; · rfl
  · split <;> rfl
@[simp] theorem withJournal_mbc (j : Jrn) (s : State) : (withJournal j s).mbc = s.mbc := by
  unfold withJournal; dsimp only; split; · rfl
  · split <;> rfl
@[simp] theorem withJournal_fba (j : Jrn) (s : State) : (withJournal j s).fba = s.fba := by
  unfold withJournal; dsimp only; split; · rfl
  · split <;> rfl
@[simp] theorem withJournal_pay (j : Jrn) (s : State) : (withJournal j s).pay = s.pay := by
  unfold withJournal; dsimp only; split; · rfl
  · split <;> rfl
@[simp] theorem withJournal_cru (j : Jrn) (s : State) : (withJournal j s).cru = s.cru := by
  unfold withJournal; dsimp only; split; · rfl
  · split <;> rfl
@[simp] theorem withJournal_flm (j : Jrn) (s : State) : (withJournal j s).flm = s.flm := by
  unfold withJournal; dsimp only; split; · rfl
  · split <;> rfl
@[simp] theorem withJournal_sst (j : Jrn) (s : State) : (withJournal j s).sst = s.sst := by
  unfold withJournal; dsimp only; split; · rfl
  · split <;> rfl
@[simp] theorem withJournal_hli (j : Jrn) (s : State) : (withJournal j s).hli = s.hli := by
  unfold withJournal; dsimp only; split; · rfl
  · split <;> rfl
@[simp] theorem withJournal_out (j : Jrn) (s : State) : (withJournal j s).out = s.out := by
  unfold withJournal; dsimp only; split; · rfl
  · split <;> rfl
@[simp] theorem withJournal_pending (j : Jrn) (s : State) : (withJournal j s).pending = s.pending := by
  unfold withJournal; dsimp only; split; · rfl
  · split <;> rfl
@[simp] theorem withJournal_jrn (j : Jrn) (s : State) : (withJournal j s).jrn = j := by
  unfold withJournal; dsimp only; split; · rfl
  · split <;> rfl

@[simp] theorem returnSlots_phase (n : Nat) (s : State) : (returnSlots n s).phase = s.phase := by simp [returnSlots]
@[simp] theorem returnSlots_resetHeld (n : Nat) (s : State) : (returnSlots n s).resetHeld = s.resetHeld := by simp [returnSlots]
@[simp] theorem returnSlots_msv (n : Nat) (s : State) : (returnSlots n s).msv = s.msv := by simp [returnSlots]
@[simp] theorem returnSlots_mbc (n : Nat) (s : State) : (returnSlots n s).mbc = s.mbc := by simp [returnSlots]
@[simp] theorem returnSlots_fba (n : Nat) (s : State) : (returnSlots n s).fba = s.fba := by simp [returnSlots]
@[simp] theorem returnSlots_pay (n : Nat) (s : State) : (returnSlots n s).pay = s.pay := by simp [returnSlots]
@[simp] theorem returnSlots_cru (n : Nat) (s : State) : (returnSlots n s).cru = s.cru := by simp [returnSlots]
@[simp] theorem returnSlots_flm (n : Nat) (s : State) : (returnSlots n s).flm = s.flm := by simp [returnSlots]
@[simp] theorem returnSlots_sst (n : Nat) (s : State) : (returnSlots n s).sst = s.sst := by simp [returnSlots]
@[simp] theorem returnSlots_hli (n : Nat) (s : State) : (returnSlots n s).hli = s.hli := by simp [returnSlots]
@[simp] theorem returnSlots_out (n : Nat) (s : State) : (returnSlots n s).out = s.out := by simp [returnSlots]
@[simp] theorem returnSlots_pending (n : Nat) (s : State) : (returnSlots n s).pending = s.pending := by simp [returnSlots]
@[simp] theorem releaseRecords_phase (n : Nat) (s : State) : (releaseRecords n s).phase = s.phase := by simp [releaseRecords]
@[simp] theorem releaseRecords_resetHeld (n : Nat) (s : State) : (releaseRecords n s).resetHeld = s.resetHeld := by simp [releaseRecords]
@[simp] theorem releaseRecords_msv (n : Nat) (s : State) : (releaseRecords n s).msv = s.msv := by simp [releaseRecords]
@[simp] theorem releaseRecords_mbc (n : Nat) (s : State) : (releaseRecords n s).mbc = s.mbc := by simp [releaseRecords]
@[simp] theorem releaseRecords_fba (n : Nat) (s : State) : (releaseRecords n s).fba = s.fba := by simp [releaseRecords]
@[simp] theorem releaseRecords_pay (n : Nat) (s : State) : (releaseRecords n s).pay = s.pay := by simp [releaseRecords]
@[simp] theorem releaseRecords_cru (n : Nat) (s : State) : (releaseRecords n s).cru = s.cru := by simp [releaseRecords]
@[simp] theorem releaseRecords_flm (n : Nat) (s : State) : (releaseRecords n s).flm = s.flm := by simp [releaseRecords]
@[simp] theorem releaseRecords_sst (n : Nat) (s : State) : (releaseRecords n s).sst = s.sst := by simp [releaseRecords]
@[simp] theorem releaseRecords_hli (n : Nat) (s : State) : (releaseRecords n s).hli = s.hli := by simp [releaseRecords]
@[simp] theorem releaseRecords_out (n : Nat) (s : State) : (releaseRecords n s).out = s.out := by simp [releaseRecords]
@[simp] theorem releaseRecords_pending (n : Nat) (s : State) : (releaseRecords n s).pending = s.pending := by simp [releaseRecords]
@[simp] theorem noteWaiting_phase (j : Jrn) (s : State) : (noteWaiting j s).phase = s.phase := by simp [noteWaiting]
@[simp] theorem writeFree_phase (b : RecordBody) (s : State) : (writeFree b s).phase = s.phase := by
  unfold writeFree; split <;> simp
@[simp] theorem writeMoney_phase (b : RecordBody) (s : State) : (writeMoney b s).phase = s.phase := by
  unfold writeMoney; split <;> simp
@[simp] theorem noteWaiting_resetHeld (j : Jrn) (s : State) : (noteWaiting j s).resetHeld = s.resetHeld := by simp [noteWaiting]
@[simp] theorem writeFree_resetHeld (b : RecordBody) (s : State) : (writeFree b s).resetHeld = s.resetHeld := by
  unfold writeFree; split <;> simp
@[simp] theorem writeMoney_resetHeld (b : RecordBody) (s : State) : (writeMoney b s).resetHeld = s.resetHeld := by
  unfold writeMoney; split <;> simp
@[simp] theorem noteWaiting_msv (j : Jrn) (s : State) : (noteWaiting j s).msv = s.msv := by simp [noteWaiting]
@[simp] theorem writeFree_msv (b : RecordBody) (s : State) : (writeFree b s).msv = s.msv := by
  unfold writeFree; split <;> simp
@[simp] theorem writeMoney_msv (b : RecordBody) (s : State) : (writeMoney b s).msv = s.msv := by
  unfold writeMoney; split <;> simp
@[simp] theorem noteWaiting_mbc (j : Jrn) (s : State) : (noteWaiting j s).mbc = s.mbc := by simp [noteWaiting]
@[simp] theorem writeFree_mbc (b : RecordBody) (s : State) : (writeFree b s).mbc = s.mbc := by
  unfold writeFree; split <;> simp
@[simp] theorem writeMoney_mbc (b : RecordBody) (s : State) : (writeMoney b s).mbc = s.mbc := by
  unfold writeMoney; split <;> simp
@[simp] theorem noteWaiting_fba (j : Jrn) (s : State) : (noteWaiting j s).fba = s.fba := by simp [noteWaiting]
@[simp] theorem writeFree_fba (b : RecordBody) (s : State) : (writeFree b s).fba = s.fba := by
  unfold writeFree; split <;> simp
@[simp] theorem writeMoney_fba (b : RecordBody) (s : State) : (writeMoney b s).fba = s.fba := by
  unfold writeMoney; split <;> simp
@[simp] theorem noteWaiting_pay (j : Jrn) (s : State) : (noteWaiting j s).pay = s.pay := by simp [noteWaiting]
@[simp] theorem writeFree_pay (b : RecordBody) (s : State) : (writeFree b s).pay = s.pay := by
  unfold writeFree; split <;> simp
@[simp] theorem writeMoney_pay (b : RecordBody) (s : State) : (writeMoney b s).pay = s.pay := by
  unfold writeMoney; split <;> simp
@[simp] theorem noteWaiting_cru (j : Jrn) (s : State) : (noteWaiting j s).cru = s.cru := by simp [noteWaiting]
@[simp] theorem writeFree_cru (b : RecordBody) (s : State) : (writeFree b s).cru = s.cru := by
  unfold writeFree; split <;> simp
@[simp] theorem writeMoney_cru (b : RecordBody) (s : State) : (writeMoney b s).cru = s.cru := by
  unfold writeMoney; split <;> simp
@[simp] theorem noteWaiting_flm (j : Jrn) (s : State) : (noteWaiting j s).flm = s.flm := by simp [noteWaiting]
@[simp] theorem writeFree_flm (b : RecordBody) (s : State) : (writeFree b s).flm = s.flm := by
  unfold writeFree; split <;> simp
@[simp] theorem writeMoney_flm (b : RecordBody) (s : State) : (writeMoney b s).flm = s.flm := by
  unfold writeMoney; split <;> simp
@[simp] theorem noteWaiting_sst (j : Jrn) (s : State) : (noteWaiting j s).sst = s.sst := by simp [noteWaiting]
@[simp] theorem writeFree_sst (b : RecordBody) (s : State) : (writeFree b s).sst = s.sst := by
  unfold writeFree; split <;> simp
@[simp] theorem writeMoney_sst (b : RecordBody) (s : State) : (writeMoney b s).sst = s.sst := by
  unfold writeMoney; split <;> simp
@[simp] theorem noteWaiting_hli (j : Jrn) (s : State) : (noteWaiting j s).hli = s.hli := by simp [noteWaiting]
@[simp] theorem writeFree_hli (b : RecordBody) (s : State) : (writeFree b s).hli = s.hli := by
  unfold writeFree; split <;> simp
@[simp] theorem writeMoney_hli (b : RecordBody) (s : State) : (writeMoney b s).hli = s.hli := by
  unfold writeMoney; split <;> simp
@[simp] theorem noteWaiting_out (j : Jrn) (s : State) : (noteWaiting j s).out = s.out := by simp [noteWaiting]
@[simp] theorem writeFree_out (b : RecordBody) (s : State) : (writeFree b s).out = s.out := by
  unfold writeFree; split <;> simp
@[simp] theorem writeMoney_out (b : RecordBody) (s : State) : (writeMoney b s).out = s.out := by
  unfold writeMoney; split <;> simp
@[simp] theorem noteWaiting_pending (j : Jrn) (s : State) : (noteWaiting j s).pending = s.pending := by simp [noteWaiting]
@[simp] theorem writeFree_pending (b : RecordBody) (s : State) : (writeFree b s).pending = s.pending := by
  unfold writeFree; split <;> simp
@[simp] theorem writeMoney_pending (b : RecordBody) (s : State) : (writeMoney b s).pending = s.pending := by
  unfold writeMoney; split <;> simp
@[simp] theorem returnSlots_jrn (n : Nat) (s : State) :
    (returnSlots n s).jrn = { s.jrn with reservations := s.jrn.reservations - n } := by simp [returnSlots]
@[simp] theorem releaseRecords_jrn (n : Nat) (s : State) :
    (releaseRecords n s).jrn = { s.jrn with records := s.jrn.records.drop n } := by simp [releaseRecords]
@[simp] theorem noteWaiting_jrn (j : Jrn) (s : State) : (noteWaiting j s).jrn = s.jrn := by simp [noteWaiting]

/-- R153: what a non-money record does to the journal: it is written into a free slot, or dropped and counted. -/
theorem writeFree_jrn (b : RecordBody) (s : State) :
    (writeFree b s).jrn =
      if s.jrn.free = 0 then { s.jrn with overflow := satInc 65535 s.jrn.overflow } else s.jrn.append s.stamp b := by
  unfold writeFree; split <;> simp

/-- R152: what a money record does to the journal where a reservation stands ready. -/
theorem writeMoney_jrn (b : RecordBody) (s : State) (h : s.jrn.reservations ≠ 0) :
    (writeMoney b s).jrn = { s.jrn.append s.stamp b with reservations := s.jrn.reservations - 1 } := by
  simp [writeMoney, h]

/-- R155: new reservations are taken exactly when that many slots are free, and only the journal and EVU change. -/
theorem reserveSlots_eq_some {n : Nat} {s t : State} (h : reserveSlots n s = some t) :
    n ≤ s.jrn.free ∧ t = withJournal { s.jrn with reservations := s.jrn.reservations + n } s := by
  unfold reserveSlots at h
  split at h
  · cases h
  · next hn => exact ⟨by omega, by cases h; rfl⟩

/-- R154: a record appended adds one host-owned record and no reservation. -/
theorem Jrn.append_counts (j : Jrn) (st : Option Stamp) (b : RecordBody) :
    (j.append st b).records.length = j.records.length + 1 ∧ (j.append st b).reservations = j.reservations := by
  simp [Jrn.append]

/-- R161: the number released is the place of the record that bears the number, and lies within the run. -/
theorem releaseCount_le {q n : Nat} {rs : List JournalRecord} (h : releaseCount q rs = some n) : 1 ≤ n ∧ n ≤ rs.length := by
  induction rs generalizing n with
  | nil => cases h
  | cons r rs ih =>
    unfold releaseCount at h
    split at h
    · cases h; simp
    · obtain ⟨k, hk, rfl⟩ := Option.map_eq_some_iff.mp h
      have := ih hk
      simp; omega

/-! ## The flags in a reply -/

/-- A field of three bytes can be told from them. -/
theorem bytes24_injective {v w : BitVec 24} (h : bytes24 v = bytes24 w) : v = w := by
  simp only [bytes24, List.cons.injEq, and_true] at h
  obtain ⟨hi, mid, lo⟩ := h
  refine BitVec.eq_of_getLsbD_eq fun i hw => ?_
  rcases Nat.lt_or_ge i 8 with h8 | h8
  · simpa [h8] using congrArg (·.getLsbD i) lo
  · rcases Nat.lt_or_ge i 16 with h16 | h16
    · simpa [show i - 8 < 8 by omega, show 8 + (i - 8) = i by omega] using
        congrArg (·.getLsbD (i - 8)) mid
    · simpa [show i - 16 < 8 by omega, show 16 + (i - 16) = i by omega] using
        congrArg (·.getLsbD (i - 16)) hi

/-- The flags can be told from their bytes. -/
theorem flagBytes_injective {f g : BitVec 19} (h : flagBytes f = flagBytes g) : f = g := by
  have := congrArg (BitVec.setWidth 19) (bytes24_injective h)
  simpa using this

/-- R171: flags, masks, enables and ATTN can be told from the bytes of a READ EVENTS reply; cite it for the form there. -/
theorem imageBytes_injective {f f' m m' : BitVec 19} {r r' x x' a a' : Bool}
    (h : flagBytes f ++ flagBytes m ++ nat8 (bitsValue [r, x]) ++ markByte a =
      flagBytes f' ++ flagBytes m' ++ nat8 (bitsValue [r', x']) ++ markByte a') :
    f = f' ∧ m = m' ∧ r = r' ∧ x = x' ∧ a = a' := by
  have len : ∀ f, (flagBytes f).length = 3 := fun _ => rfl
  simp only [List.append_assoc] at h
  obtain ⟨h1, h⟩ := List.append_inj h (by simp [len])
  obtain ⟨h2, h⟩ := List.append_inj h (by simp [len])
  refine ⟨flagBytes_injective h1, flagBytes_injective h2, ?_⟩
  revert h
  cases r <;> cases r' <;> cases x <;> cases x' <;> cases a <;> cases a' <;> decide

end Sys2Proof.Machine
end

