-- ==== Sys2Proof/Laws/Frames.lean ====
section
/-! SUPPORT. Which parts of the state each shared operation may change: one lemma for each, to be cited in place of unfolding it. -/
namespace Sys2Proof.Machine

set_option Elab.async false -- each lemma rests on those before it

/-! ## The relation -/

theorem ChangesOnly.refl (ps : List Part) (s : State) : ChangesOnly ps s s := by
  intro p _; cases p <;> rfl

theorem Part.same_trans {p : Part} {s t u : State} (h : p.same s t) (k : p.same t u) : p.same s u := by
  cases p <;> exact Eq.trans k h

/-- The first list's parts are all in the second. -/
def partsWithin (ps qs : List Part) : Bool := ps.all qs.contains

theorem partsWithin_iff {ps qs : List Part} : partsWithin ps qs = true ↔ ps ⊆ qs := by
  simp [partsWithin, List.subset_def]

theorem ChangesOnly.mono {ps qs : List Part} {s t : State} (h : ChangesOnly ps s t) (hs : ps ⊆ qs) : ChangesOnly qs s t :=
  fun p hp => h p fun k => hp (hs k)

/-- One change after another, within the parts of both. -/
theorem ChangesOnly.seq {ps qs rs : List Part} {s t u : State} (h : ChangesOnly ps s t) (k : ChangesOnly qs t u)
    (hp : partsWithin ps rs = true := by rfl) (hq : partsWithin qs rs = true := by rfl) : ChangesOnly rs s u :=
  fun p hn => Part.same_trans (h p fun m => hn (partsWithin_iff.mp hp m)) (k p fun m => hn (partsWithin_iff.mp hq m))

/-- A change within fewer parts is one within more. -/
theorem ChangesOnly.up {ps qs : List Part} {s t : State} (h : ChangesOnly ps s t) (hs : partsWithin ps qs = true := by rfl) :
    ChangesOnly qs s t := h.mono (partsWithin_iff.mp hs)

/-- A fold of changes is a change within the same parts. -/
theorem ChangesOnly.foldl {α : Type} {ps : List Part} {f : State → α → State} (hf : ∀ s a, ChangesOnly ps s (f s a))
    (l : List α) (s : State) : ChangesOnly ps s (l.foldl f s) := by
  induction l generalizing s with
  | nil => exact .refl ps s
  | cons a l ih => exact (hf s a).seq (ih (f s a)) (partsWithin_iff.mpr fun _ h => h) (partsWithin_iff.mpr fun _ h => h)

theorem ChangesOnly.ite {ps : List Part} {s t u : State} {c : Prop} [Decidable c] (h : ChangesOnly ps s t)
    (k : ChangesOnly ps s u) : ChangesOnly ps s (if c then t else u) := by
  split <;> assumption

theorem ChangesOnly.forMachines {ps : List Part} {f : Addr → State → State} (hf : ∀ m s, ChangesOnly ps s (f m s)) (s : State) :
    ChangesOnly ps s (forMachines f s) := ChangesOnly.foldl (fun s m => hf m s) _ s

/-! ## Named updates -/

theorem withPhase_changes (x : Phase) (s : State) : ChangesOnly [.phase] s (s.withPhase x) := by
  intro p hp; cases p <;> first | rfl | exact absurd (by simp) hp
theorem withResetHeld_changes (x : Bool) (s : State) : ChangesOnly [.resetHeld] s (s.withResetHeld x) := by
  intro p hp; cases p <;> first | rfl | exact absurd (by simp) hp
theorem withMsv_changes (x : Msv) (s : State) : ChangesOnly [.msv] s (s.withMsv x) := by
  intro p hp; cases p <;> first | rfl | exact absurd (by simp) hp
theorem withMbc_changes (x : Mbc) (s : State) : ChangesOnly [.mbc] s (s.withMbc x) := by
  intro p hp; cases p <;> first | rfl | exact absurd (by simp) hp
theorem withFba_changes (x : Fba) (s : State) : ChangesOnly [.fba] s (s.withFba x) := by
  intro p hp; cases p <;> first | rfl | exact absurd (by simp) hp
theorem withPay_changes (x : Pay) (s : State) : ChangesOnly [.pay] s (s.withPay x) := by
  intro p hp; cases p <;> first | rfl | exact absurd (by simp) hp
theorem withCru_changes (x : Cru) (s : State) : ChangesOnly [.cru] s (s.withCru x) := by
  intro p hp; cases p <;> first | rfl | exact absurd (by simp) hp
theorem withFlm_changes (x : (PerMachine FaultRecord)) (s : State) : ChangesOnly [.flm] s (s.withFlm x) := by
  intro p hp; cases p <;> first | rfl | exact absurd (by simp) hp
theorem withJrn_changes (x : Jrn) (s : State) : ChangesOnly [.jrn] s (s.withJrn x) := by
  intro p hp; cases p <;> first | rfl | exact absurd (by simp) hp
theorem withEvu_changes (x : Evu) (s : State) : ChangesOnly [.evu] s (s.withEvu x) := by
  intro p hp; cases p <;> first | rfl | exact absurd (by simp) hp
theorem withSst_changes (x : Sst) (s : State) : ChangesOnly [.sst] s (s.withSst x) := by
  intro p hp; cases p <;> first | rfl | exact absurd (by simp) hp
theorem withHli_changes (x : Hli) (s : State) : ChangesOnly [.hli] s (s.withHli x) := by
  intro p hp; cases p <;> first | rfl | exact absurd (by simp) hp
theorem withOut_changes (x : Outputs) (s : State) : ChangesOnly [.out] s (s.withOut x) := by
  intro p hp; cases p <;> first | rfl | exact absurd (by simp) hp
theorem setRecord_changes (m : Addr) (x : MachineRecord) (s : State) : ChangesOnly [.msv] s (s.setRecord m x) :=
  withMsv_changes _ s
theorem mapRecord_changes (m : Addr) (f : MachineRecord → MachineRecord) (s : State) : ChangesOnly [.msv] s (mapRecord m f s) :=
  withMsv_changes _ s
theorem mapSession_changes (m : Addr) (f : Session → Session) (s : State) : ChangesOnly [.msv] s (s.mapSession m f) :=
  withMsv_changes _ s
theorem setNode_changes (m : Addr) (x : NodeEntry) (s : State) : ChangesOnly [.mbc] s (s.setNode m x) := withMbc_changes _ s
theorem mapNode_changes (m : Addr) (f : NodeEntry → NodeEntry) (s : State) : ChangesOnly [.mbc] s (mapNode m f s) :=
  withMbc_changes _ s
theorem setGrant_changes (m : Addr) (x : GrantEntry) (s : State) : ChangesOnly [.fba] s (s.setGrant m x) := withFba_changes _ s
theorem mapGrant_changes (m : Addr) (f : GrantEntry → GrantEntry) (s : State) : ChangesOnly [.fba] s (mapGrant m f s) :=
  withFba_changes _ s
theorem setFaults_changes (m : Addr) (x : FaultRecord) (s : State) : ChangesOnly [.flm] s (s.setFaults m x) :=
  withFlm_changes _ s
theorem setOpenMark_changes (m : Addr) (b : Bool) (s : State) : ChangesOnly [.flm] s (setOpenMark m b s) := withFlm_changes _ s
theorem setExchange_changes (st : Station) (x : Exchange) (s : State) : ChangesOnly [.pay] s (s.setExchange st x) := by
  cases st <;> exact withPay_changes _ s
theorem sendStation_changes (st : Station) (x : StationMsg) (s : State) : ChangesOnly [.out] s (sendStation st x s) := by
  cases st <;> exact withOut_changes _ s
theorem setEvent_changes (f : EventFlag) (s : State) : ChangesOnly [.evu] s (setEvent f s) := withEvu_changes _ s
theorem setEventIf_changes (c : Bool) (f : EventFlag) (s : State) : ChangesOnly [.evu] s (setEventIf c f s) :=
  .ite (setEvent_changes f s) (.refl _ s)

/-! ## The journal and the credit tables -/

theorem withJournal_changes (j : Jrn) (s : State) : ChangesOnly [.jrn, .evu] s (withJournal j s) := by
  intro p hp
  cases p <;> simp at hp <;> simp [Part.same]
theorem returnSlots_changes (n : Nat) (s : State) : ChangesOnly [.jrn, .evu] s (returnSlots n s) := withJournal_changes _ s
theorem releaseRecords_changes (n : Nat) (s : State) : ChangesOnly [.jrn, .evu] s (releaseRecords n s) := withJournal_changes _ s
theorem writeFree_changes (b : RecordBody) (s : State) : ChangesOnly [.jrn, .evu] s (writeFree b s) := by
  intro p hp
  cases p <;> simp at hp <;> simp [Part.same]
theorem writeMoney_changes (b : RecordBody) (s : State) : ChangesOnly [.jrn, .evu] s (writeMoney b s) := by
  intro p hp
  cases p <;> simp at hp <;> simp [Part.same]
theorem reserveSlots_changes {n : Nat} {s t : State} (h : reserveSlots n s = some t) : ChangesOnly [.jrn, .evu] s t := by
  rw [(reserveSlots_eq_some h).2]; exact withJournal_changes _ s
theorem mapRefund_changes (k : Nat) (f : RefundEntry → RefundEntry) (s : State) : ChangesOnly [.cru] s (mapRefund k f s) :=
  withCru_changes _ s
theorem removeRefund_changes (k : Nat) (s : State) : ChangesOnly [.cru] s (removeRefund k s) := withCru_changes _ s
theorem removePending_changes (k : Nat) (s : State) : ChangesOnly [.cru] s (removePending k s) := withCru_changes _ s
theorem unpledge_changes (k : Nat) (s : State) : ChangesOnly [.cru] s (unpledge k s) := withCru_changes _ s
theorem pledgeFor_changes (o : Order) (s : State) : ChangesOnly [.cru] s (pledgeFor o s) := withCru_changes _ s
theorem evictRefund_changes (s : State) : ChangesOnly [.cru, .jrn, .evu] s (evictRefund s) := by
  unfold evictRefund; split
  · exact .refl _ s
  · exact (writeMoney_changes _ s).seq (removeRefund_changes _ _)
theorem recordCredit_changes (k : CreditKind) (serial amount origin after lost : Nat) (s : State) :
    ChangesOnly [.jrn, .evu] s (recordCredit k serial amount origin after lost s) :=
  (writeMoney_changes _ s).seq (setEvent_changes _ _)
theorem creditExisting_changes (k : CreditKind) (e : RefundEntry) (amount origin : Nat) (s : State) :
    ChangesOnly [.cru, .jrn, .evu] s (creditExisting k e amount origin s) :=
  ((mapRefund_changes _ _ s).seq (recordCredit_changes k _ _ _ _ _ _) (rs := [.cru, .jrn, .evu])).seq (returnSlots_changes 1 _)
theorem creditNew_changes (k : CreditKind) (serial amount origin : Nat) (s : State) :
    ChangesOnly [.cru, .jrn, .evu] s (creditNew k serial amount origin s) := by
  have h : ChangesOnly [.cru, .jrn, .evu] s (if Config.refundEntries ≤ s.cru.refunds.length then evictRefund s else s) :=
    .ite (evictRefund_changes s) (.refl _ s)
  exact (h.seq (withCru_changes _ _) (rs := [.cru, .jrn, .evu])).seq (recordCredit_changes k _ _ _ _ _ _)
theorem creditSerial_changes (k : CreditKind) (serial amount origin : Nat) (s : State) :
    ChangesOnly [.cru, .jrn, .evu] s (creditSerial k serial amount origin s) := by
  unfold creditSerial; split
  · exact creditExisting_changes k _ _ _ s
  · exact creditNew_changes k _ _ _ s
theorem expireEntry_changes (today : Nat) (s : State) (e : RefundEntry) :
    ChangesOnly [.cru, .jrn, .evu] s (expireEntry today s e) :=
  .ite ((writeMoney_changes _ s).seq (removeRefund_changes _ _)) (mapRefund_changes _ _ s).up
theorem expiryCheck_changes (s : State) : ChangesOnly [.cru, .jrn, .evu] s (expiryCheck s) := by
  unfold expiryCheck; split
  · exact .refl _ s
  · exact .foldl (expireEntry_changes _) _ s
theorem settleRefund_changes (serial taken r : Nat) (s : State) :
    ChangesOnly [.cru, .jrn, .evu] s (settleRefund serial taken r s) := by
  unfold settleRefund; split
  · exact .refl _ s
  · exact .ite ((removeRefund_changes _ s).seq (returnSlots_changes 1 _)) (mapRefund_changes _ _ s).up
theorem recordRemainder_changes (serial r : Nat) (s : State) : ChangesOnly [.jrn, .evu] s (recordRemainder serial r s) := by
  unfold recordRemainder; split
  · exact .refl _ s
  · exact (writeMoney_changes _ s).seq (setEvent_changes _ _)
theorem settleTables_changes (o : Order) (s : State) : ChangesOnly [.cru, .jrn, .evu] s (settleTables o s) := by
  have h1 := (mapRefund_changes o.serial (fun e => { e with hold := none }) s).seq
    (settleRefund_changes o.serial (o.folded.getD 0 + tookFolded o.resolution (s.cru.pendingOf o.serial))
      ((o.resolution.map Resolution.remainder).getD 0) _) (rs := [.cru, .jrn, .evu])
  unfold settleTables; dsimp only; split
  · exact h1
  · have h2 := h1.seq ((unpledge_changes o.serial _).seq (removePending_changes o.serial _) (rs := [.cru])) (rs := [.cru, .jrn, .evu])
    exact .ite (h2.seq (recordRemainder_changes _ _ _)) (h2.seq (returnSlots_changes 1 _))
theorem dropPending_changes (p : PendingEntry) (b c : Option Nat) (d : Detail) (s : State) :
    ChangesOnly [.cru, .jrn, .evu] s (dropPending p b c d s) :=
  (((writeMoney_changes _ s).seq (setEvent_changes _ _) (rs := [.jrn, .evu])).seq (unpledge_changes _ _)
    (rs := [.cru, .jrn, .evu])).seq (removePending_changes _ _)
theorem evictPending_changes (s : State) : ChangesOnly [.cru, .jrn, .evu] s (evictPending s) := by
  unfold evictPending; split
  · exact .refl _ s
  · exact dropPending_changes _ _ _ _ s
theorem createPending_changes (o : Order) (s : State) : ChangesOnly [.cru, .jrn, .evu] s (createPending o s) := by
  have h : ChangesOnly [.cru, .jrn, .evu] s (if Config.pendingEntries ≤ s.cru.pendings.length then evictPending s else s) :=
    .ite (evictPending_changes s) (.refl _ s)
  exact ((h.seq (withCru_changes _ _) (rs := [.cru, .jrn, .evu])).seq (pledgeFor_changes o _) (rs := [.cru, .jrn, .evu])).seq
    (returnSlots_changes 1 _)
theorem updatePending_changes (o : Order) (res : Resolution) (s : State) :
    ChangesOnly [.cru, .jrn, .evu] s (updatePending o res s) := by
  have h1 := settleRefund_changes o.serial (tookFolded (some res) (s.cru.pendingOf o.serial)) res.remainder s
  have h2 : ChangesOnly [.cru, .jrn, .evu] s
      (if 0 < res.remainder then recordRemainder o.serial res.remainder
          (settleRefund o.serial (tookFolded (some res) (s.cru.pendingOf o.serial)) res.remainder s)
        else settleRefund o.serial (tookFolded (some res) (s.cru.pendingOf o.serial)) res.remainder s) :=
    .ite (h1.seq (recordRemainder_changes _ _ _)) h1
  exact (((h2.seq (removePending_changes o.serial _) (rs := [.cru, .jrn, .evu])).seq (withCru_changes _ _)
    (rs := [.cru, .jrn, .evu])).seq (pledgeFor_changes o _) (rs := [.cru, .jrn, .evu])).seq (returnSlots_changes _ _)

/-! ## The bus -/

theorem queueCommand_changes (m : Addr) (c : BusCommand) (o : BusOwner) (s : State) :
    ChangesOnly [.mbc] s (queueCommand m c o s) := by
  unfold queueCommand; split
  · exact .refl _ s
  · exact .ite (withMbc_changes _ s) (.refl _ s)
theorem queueControl_changes (m : Addr) (c : BusCommand) (s : State) : ChangesOnly [.mbc] s (queueControl m c s) :=
  queueCommand_changes m c .msv s
theorem dropCommand_changes (m : Addr) (c : CommandClass) (s : State) : ChangesOnly [.mbc] s (dropCommand m c s) :=
  withMbc_changes _ s
theorem queueArm_changes (m : Addr) (s : State) : ChangesOnly [.msv, .mbc] s (queueArm m s) := by
  unfold queueArm; split
  · exact .refl _ s
  · exact (mapSession_changes m _ s).seq (queueControl_changes m _ _)
theorem queueGrant_changes (m : Addr) (l : Level) (f : Bool) (s : State) : ChangesOnly [.mbc, .fba] s (queueGrant m l f s) :=
  .ite ((setGrant_changes m _ s).seq (queueCommand_changes m _ _ _)) (.refl _ s)
theorem tellOwner_changes (m : Addr) (c : BusCommand) (b : Bool) (s : State) : ChangesOnly [.msv, .fba] s (tellOwner m c b s) := by
  unfold tellOwner; split
  · exact .ite (mapSession_changes m _ s).up (.refl _ s)
  · exact (setGrant_changes m _ s).up
  all_goals exact .refl _ s
theorem acknowledge_changes (m : Addr) (c : CommandClass) (n : Nat) (s : State) :
    ChangesOnly [.msv, .mbc, .fba] s (acknowledge m c n s) := by
  unfold acknowledge; split
  · exact .refl _ s
  · exact .ite ((dropCommand_changes m c s).seq (tellOwner_changes m _ _ _)) (.refl _ s)
theorem sendCommand_changes (e : BusEntry) (c : CommandClass) (s : State) : ChangesOnly [.mbc] s (sendCommand e c s) := by
  unfold sendCommand; dsimp only; split
  · exact withMbc_changes _ s
  · exact (withMbc_changes _ s).seq (mapNode_changes _ _ _)
theorem sendEntry_changes (s : State) (e : BusEntry) : ChangesOnly [.mbc] s (sendEntry s e) := by
  unfold sendEntry; split
  · exact withMbc_changes _ s
  · exact sendCommand_changes e _ s
theorem endDiscovery_changes (s : State) : ChangesOnly [.mbc] s (endDiscovery s) := withMbc_changes _ s
theorem offerNext_changes (s : State) : ChangesOnly [.mbc] s (offerNext s) := by
  unfold offerNext; split <;> exact withMbc_changes _ s
theorem startDiscovery_changes (c : DiscoveryCause) (s : State) : ChangesOnly [.mbc] s (startDiscovery c s) :=
  (withMbc_changes _ s).seq (offerNext_changes _)
theorem noteOccupied_changes (m : Addr) (s : State) : ChangesOnly [.mbc] s (noteOccupied m s) :=
  .ite (withMbc_changes _ s) (.refl _ s)
theorem assignAnswered_changes (s : State) : ChangesOnly [.mbc] s (assignAnswered s) :=
  (withMbc_changes _ s).seq (offerNext_changes _)
theorem assignUnanswered_changes (s : State) : ChangesOnly [.mbc] s (assignUnanswered s) := by
  unfold assignUnanswered; dsimp only; split
  · exact (withMbc_changes _ s).seq (endDiscovery_changes _)
  · exact (withMbc_changes _ s).seq (offerNext_changes _)

/-! ## The feeder -/

theorem changeGrant_changes (m : Addr) (l : Level) (f : Bool) (s : State) : ChangesOnly [.mbc, .fba] s (changeGrant m l f s) :=
  (mapGrant_changes m _ s).seq (queueGrant_changes m l f _)
theorem addRaise_changes (m : Addr) (l : Level) (f : Bool) (s : State) : ChangesOnly [.fba] s (addRaise m l f s) :=
  withFba_changes _ s
theorem setRaise_changes (m : Addr) (l : Level) (f : Bool) (s : State) : ChangesOnly [.fba] s (setRaise m l f s) :=
  .ite (withFba_changes _ s) (addRaise_changes m l f s)
theorem ensureRaise_changes (m : Addr) (l : Level) (f : Bool) (s : State) : ChangesOnly [.fba] s (ensureRaise m l f s) :=
  .ite (.refl _ s) (addRaise_changes m l f s)
theorem removeRaise_changes (m : Addr) (s : State) : ChangesOnly [.fba] s (removeRaise m s) := withFba_changes _ s
theorem removeStart_changes (m : Addr) (s : State) : ChangesOnly [.fba] s (removeStart m s) := withFba_changes _ s
theorem removeEntries_changes (m : Addr) (s : State) : ChangesOnly [.fba] s (removeEntries m s) :=
  (removeRaise_changes m s).seq (removeStart_changes m _)
theorem addStart_changes (m : Addr) (l : Level) (f : Bool) (s : State) : ChangesOnly [.fba] s (addStart m l f s) :=
  .ite (withFba_changes _ s) (withFba_changes _ s)
theorem enterRunning_changes (m : Addr) (s : State) : ChangesOnly [.msv] s (enterRunning m s) := setRecord_changes m _ s
theorem compareWanted_changes (m : Addr) (s : State) : ChangesOnly [.mbc, .fba] s (compareWanted m s) := by
  unfold compareWanted; dsimp only; split
  · split
    · have h : ∀ (c : Prop) [Decidable c] l f, ChangesOnly [.mbc, .fba] s (if c then s else changeGrant m l f s) :=
        fun c _ l f => .ite (.refl _ s) (changeGrant_changes m l f s)
      exact .ite ((h _ _ _).seq (setRaise_changes m _ _ _)) ((h _ _ _).seq (removeRaise_changes m _))
    · exact .refl _ s
  · exact .refl _ s
theorem grantWasherStart_changes (m : Addr) (d : LevelDraws) (s : State) :
    ChangesOnly [.msv, .mbc, .fba] s (grantWasherStart m d s) := by
  unfold grantWasherStart
  extract_lets s1 f s2
  have h1 : ChangesOnly [.fba] s s1 := mapGrant_changes m _ s
  have h2 : ChangesOnly [.fba] s s2 := h1.seq ((withFba_changes _ s1).seq (removeStart_changes m (s1.withFba _)) (rs := [.fba]))
  exact ((h2.seq (queueGrant_changes m .base true _) (rs := [.mbc, .fba])).seq (enterRunning_changes m _)
    (rs := [.msv, .mbc, .fba])).seq (compareWanted_changes m _)
theorem grantDryerStart_changes (m : Addr) (d : LevelDraws) (l t : Level) (s : State) :
    ChangesOnly [.msv, .mbc, .fba] s (grantDryerStart m d l t s) := by
  unfold grantDryerStart
  extract_lets s1 f s2 s3
  have h1 : ChangesOnly [.fba] s s1 := mapGrant_changes m _ s
  have h2 : ChangesOnly [.fba] s s2 := h1.seq ((withFba_changes _ s1).seq (removeStart_changes m (s1.withFba _)) (rs := [.fba]))
  have h3 : ChangesOnly [.msv, .mbc, .fba] s s3 := (h2.seq (queueGrant_changes m l false _) (rs := [.mbc, .fba])).seq (enterRunning_changes m _)
    (rs := [.msv, .mbc, .fba])
  exact .ite (h3.seq (addRaise_changes m t false _)) h3
theorem grantHead_changes {s t : State} (h : grantHead s = some t) : ChangesOnly [.msv, .mbc, .fba] s t := by
  unfold grantHead at h
  split at h
  · unfold grantRaise at h; dsimp only at h; split at h
    · cases h; exact (removeRaise_changes _ s).seq (changeGrant_changes _ _ _ _)
    · cases h
  · unfold grantStart at h; split at h
    · cases h
    · split at h
      · split at h
        · cases h; exact grantWasherStart_changes _ _ s
        · cases h
      · split at h
        · cases h; exact grantDryerStart_changes _ _ _ _ s
        · cases h
  · cases h
theorem grantHeads_changes (n : Nat) (s : State) : ChangesOnly [.msv, .mbc, .fba] s (grantHeads n s) := by
  induction n generalizing s with
  | zero => exact .refl _ s
  | succ n ih =>
    unfold grantHeads; split
    · exact .refl _ s
    · next t h => exact (grantHead_changes h).seq (ih t)
theorem reexamine_changes (s : State) : ChangesOnly [.msv, .mbc, .fba] s (reexamine s) := .ite (.refl _ s) (grantHeads_changes _ s)
theorem clearOverBudget_changes (s : State) : ChangesOnly [.fba] s (clearOverBudget s) := .ite (withFba_changes _ s) (.refl _ s)
theorem review_changes (s : State) : ChangesOnly [.msv, .mbc, .fba] s (review s) :=
  (clearOverBudget_changes s).seq (reexamine_changes _)
theorem shedOne_changes (m : Addr) (l : Level) (s : State) : ChangesOnly [.mbc, .fba] s (shedOne m l s) :=
  (changeGrant_changes m l _ s).seq (ensureRaise_changes m _ _ _)
theorem shedStep_changes (u l : Level) (s : State) : ChangesOnly [.mbc, .fba] s (shedStep u l s) :=
  .foldl (fun s m => .ite (shedOne_changes m l s) (.refl _ s)) _ s
theorem budgetCheck_changes (s : State) : ChangesOnly [.msv, .mbc, .fba, .evu] s (budgetCheck s) := by
  have h := ((shedStep_changes .high .low s).seq (shedStep_changes .low .air _) (rs := [.mbc, .fba])).seq
    (shedStep_changes .heat .base _) (rs := [.mbc, .fba])
  exact .ite (h.seq (review_changes _)) (h.seq ((withFba_changes _ _).seq (setEventIf_changes _ _ _) (rs := [.fba, .evu])))
theorem checkOrReview_changes (s : State) : ChangesOnly [.msv, .mbc, .fba, .evu] s (checkOrReview s) :=
  .ite (budgetCheck_changes s) (review_changes s).up
theorem reviewDecrease_changes (s : State) : ChangesOnly [.msv, .mbc, .fba, .evu] s (reviewDecrease s) :=
  .ite (review_changes s).up (checkOrReview_changes s)
theorem recomputeBudget_changes (s : State) : ChangesOnly [.msv, .mbc, .fba, .evu] s (recomputeBudget s) :=
  (withFba_changes _ s).seq (checkOrReview_changes _)
theorem releaseGrant_changes (m : Addr) (s : State) : ChangesOnly [.msv, .mbc, .fba] s (releaseGrant m s) := by
  unfold releaseGrant
  extract_lets e s1 f s2
  have h1 : ChangesOnly [.fba] s s1 := mapGrant_changes m _ s
  have h2 : ChangesOnly [.fba] s s2 := h1.seq ((withFba_changes _ s1).seq (removeEntries_changes m (s1.withFba _)) (rs := [.fba]))
  split
  · exact (removeEntries_changes m s).seq (review_changes _)
  · exact ChangesOnly.seq (ps := [.mbc, .fba]) (.ite (h2.seq (queueGrant_changes m _ false _)) h2.up) (review_changes _)
theorem feederSilent_changes (m : Addr) (s : State) : ChangesOnly [.msv, .mbc, .fba] s (feederSilent m s) :=
  .ite (.refl _ s) (((mapGrant_changes m _ s).seq (removeEntries_changes m _) (rs := [.fba])).seq (review_changes _))
theorem feederHeard_changes (m : Addr) (s : State) : ChangesOnly [.fba] s (feederHeard m s) := mapGrant_changes m _ s
theorem rebuildIfHeld_changes (m : Addr) (a : Level) (f : Bool) (s : State) :
    ChangesOnly [.msv, .mbc, .fba, .evu] s (rebuildIfHeld m a f s) := by
  unfold rebuildIfHeld; split
  · next g =>
    unfold rebuildGrant
    extract_lets s1 e
    have h1 : ChangesOnly [.fba] s s1 := mapGrant_changes m _ s
    exact ChangesOnly.seq (ps := [.mbc, .fba]) (.ite (h1.seq (queueGrant_changes m _ _ _)) h1.up) (checkOrReview_changes _)
  · exact .refl _ s
theorem feederReport_changes (m : Addr) (r : NodeReport) (s : State) :
    ChangesOnly [.msv, .mbc, .fba, .evu] s (feederReport m r s) := by
  unfold feederReport; dsimp only
  have h1 := mapGrant_changes m (·.reported r) s
  split
  · exact h1.up
  · split
    · exact ((h1.seq (rebuildIfHeld_changes m _ _ _) (rs := [.msv, .mbc, .fba, .evu])).seq (compareWanted_changes m _)
        (rs := [.msv, .mbc, .fba, .evu])).seq (reviewDecrease_changes _)
    · exact h1.seq (rebuildIfHeld_changes m _ _ _)
    · split
      · exact (h1.seq (addStart_changes m _ _ _) (rs := [.fba])).seq (review_changes _)
      · exact h1.up
    · exact h1.up

/-! ## Sessions and faults -/

/-- The blocks that a session's end, a fault or a report may reach. -/
abbrev sessionParts : List Part := [.msv, .mbc, .fba, .cru, .flm, .jrn, .evu]

theorem enterState_changes (m : Addr) (t : MState) (s : State) : ChangesOnly [.msv, .flm] s (enterState m t s) := by
  unfold enterState; dsimp only; split
  · exact (mapRecord_changes m _ s).seq (setOpenMark_changes m _ _)
  · exact (mapRecord_changes m _ s).up
theorem endRecovery_changes (m : Addr) (s : State) : ChangesOnly [.msv] s (endRecovery m s) := mapRecord_changes m _ s
theorem disposeSession_changes (m : Addr) (r : Nat) (s : State) :
    ChangesOnly [.msv, .cru, .jrn, .evu] s (disposeSession m r s) := by
  unfold disposeSession; split
  · exact .refl _ s
  · dsimp only; split
    · exact (creditSerial_changes _ _ _ _ s).seq (mapRecord_changes m _ _)
    · exact (returnSlots_changes 2 s).seq (mapRecord_changes m _ _)
theorem disarmRefund_changes (m : Addr) (s : State) : ChangesOnly sessionParts s (disarmRefund m s) := by
  unfold disarmRefund; split
  · exact .refl _ s
  · exact ((((queueControl_changes m _ s).seq (removeEntries_changes m _) (rs := sessionParts)).seq (review_changes _)
      (rs := sessionParts)).seq (disposeSession_changes m _ _) (rs := sessionParts)).seq (enterState_changes m _ _)
theorem normalEnd_changes (m : Addr) (t : MState) (s : State) : ChangesOnly sessionParts s (normalEnd m t s) := by
  unfold normalEnd; split
  · exact .refl _ s
  · exact ((((((releaseGrant_changes m s).seq (writeFree_changes _ _) (rs := sessionParts)).seq (setFaults_changes m _ _)
      (rs := sessionParts)).seq (setEvent_changes _ _) (rs := sessionParts)).seq (disposeSession_changes m 0 _)
      (rs := sessionParts)).seq (mapRecord_changes m _ _) (rs := sessionParts)).seq (enterState_changes m t _)
theorem abortUnstarted_changes (m : Addr) (b : Bool) (t : MState) (s : State) :
    ChangesOnly sessionParts s (abortUnstarted m b t s) :=
  ((((removeEntries_changes m s).seq (review_changes _) (rs := sessionParts)).seq (queueControl_changes m _ _)
    (rs := sessionParts)).seq (disposeSession_changes m _ _) (rs := sessionParts)).seq (enterState_changes m t _)
theorem abortRunning_changes (m : Addr) (b : Bool) (d : StopDest) (s : State) :
    ChangesOnly sessionParts s (abortRunning m b d s) :=
  ((((queueControl_changes m _ s).seq (removeEntries_changes m _) (rs := sessionParts)).seq (review_changes _)
    (rs := sessionParts)).seq (disposeSession_changes m _ _) (rs := sessionParts)).seq (mapRecord_changes m _ _)
theorem backToArmed_changes (m : Addr) (s : State) : ChangesOnly [.msv, .mbc, .fba] s (backToArmed m s) :=
  (((mapRecord_changes m _ s).seq (mapSession_changes m _ _) (rs := [.msv])).seq (removeEntries_changes m _)
    (rs := [.msv, .fba])).seq (review_changes _)
theorem abortIn_changes (m : Addr) (v : Severity) (b : Bool) (s : State) : ChangesOnly sessionParts s (abortIn m v b s) := by
  unfold abortIn; split
  · exact abortUnstarted_changes m b _ s
  · exact abortUnstarted_changes m b _ s
  · exact (backToArmed_changes m s).up
  · exact abortUnstarted_changes m b _ s
  · exact abortUnstarted_changes m b _ s
  · exact abortRunning_changes m b _ s
  · exact abortRunning_changes m b _ s
  · exact (mapRecord_changes m _ s).up
  · exact (mapRecord_changes m _ s).up
  iterate 5 exact (enterState_changes m _ s).up
  exact .refl _ s
theorem applyAbort_changes (m : Addr) (v : Severity) (b : Bool) (s : State) : ChangesOnly sessionParts s (applyAbort m v b s) :=
  (endRecovery_changes m s).seq (abortIn_changes m v b _)
theorem storeRefund_changes (m : Addr) (e : Ended) (s : State) : ChangesOnly [.flm] s (storeRefund m e s) := by
  unfold storeRefund; split
  · exact setFaults_changes m _ s
  · exact .refl _ s
theorem orderAbort_changes (m : Addr) (v : Severity) (b : Bool) (s : State) : ChangesOnly sessionParts s (orderAbort m v b s) :=
  (applyAbort_changes m v b s).seq (storeRefund_changes m _ _)
theorem abortingStopped_changes (m : Addr) (s : State) : ChangesOnly sessionParts s (abortingStopped m s) :=
  ((releaseGrant_changes m s).seq (mapRecord_changes m _ _) (rs := sessionParts)).seq (enterState_changes m _ _)
theorem armMachine_changes (o : Order) (s : State) : ChangesOnly sessionParts s (armMachine o s) := by
  have h : ∀ x, ChangesOnly sessionParts s (queueArm o.machine (s.setRecord o.machine x)) := fun x =>
    (setRecord_changes o.machine x s).seq (queueArm_changes o.machine _)
  unfold armMachine; dsimp only; split
  · exact ((h _).seq (applyAbort_changes o.machine _ _ _) (rs := sessionParts)).seq (storeRefund_changes o.machine _ _)
  · split
    · exact (h _).seq (disarmRefund_changes o.machine _)
    · exact h _
theorem freeMachine_changes (m : Addr) (s : State) : ChangesOnly [.msv, .flm] s (freeMachine m s) := by
  unfold freeMachine; dsimp only; split
  all_goals exact (mapRecord_changes m _ s).seq (enterState_changes m _ _)
theorem askStart_changes (m : Addr) (l : Level) (s : State) : ChangesOnly [.fba] s (askStart m l s) := by
  unfold askStart; split
  · exact .refl _ s
  · split <;> exact addStart_changes m _ _ s
theorem beginStarting_changes (m : Addr) (s : State) : ChangesOnly [.msv, .mbc] s (beginStarting m s) :=
  ((mapRecord_changes m _ s).seq (mapSession_changes m _ _) (rs := [.msv])).seq (queueControl_changes m _ _)
theorem enterStarting_changes (m : Addr) (l : Level) (s : State) : ChangesOnly [.msv, .mbc, .fba] s (enterStarting m l s) :=
  ((beginStarting_changes m s).seq (askStart_changes m l _) (rs := [.msv, .mbc, .fba])).seq (review_changes _)
theorem rearm_changes (m : Addr) (s : State) : ChangesOnly [.msv, .mbc] s (rearm m s) := .ite (queueArm_changes m s) (.refl _ s)
theorem resolveArmed_changes (m : Addr) (s : State) : ChangesOnly [.msv] s (resolveArmed m s) :=
  (mapRecord_changes m _ s).seq (mapSession_changes m _ _)
theorem disarmIfClosed_changes (m : Addr) (s : State) : ChangesOnly sessionParts s (disarmIfClosed m s) :=
  .ite (disarmRefund_changes m s) (.refl _ s)
theorem sessionsSilent_changes (m : Addr) (s : State) : ChangesOnly [.msv, .flm, .evu] s (sessionsSilent m s) := by
  unfold sessionsSilent; dsimp only; split
  · exact .refl _ s
  · split
    · exact (setEvent_changes _ s).up
    · have h : ∀ f, ChangesOnly [.msv, .flm, .evu] s (mapRecord m f (setEvent .nodeSilent s)) := fun f =>
        (setEvent_changes _ s).seq (mapRecord_changes m f _)
      split
      all_goals first
        | exact h _
        | exact (h _).seq (enterState_changes m _ _)
theorem giveSilence_changes (m : Addr) (s : State) : ChangesOnly sessionParts s (giveSilence m s) :=
  (sessionsSilent_changes m s).seq (feederSilent_changes m _)
theorem takePrimary_changes (m : Addr) (k : FaultKind) (p : Bool) (s : State) : ChangesOnly sessionParts s (takePrimary m k p s) := by
  unfold takePrimary
  extract_lets session own counts r1 n escalated sev s1 ended s2 opens s3 s4
  have h1 : ChangesOnly [.flm] s s1 := setFaults_changes m _ s
  have h2 : ChangesOnly sessionParts s s2 := h1.seq (orderAbort_changes m _ _ s1)
  have h3 : ChangesOnly sessionParts s s3 := .ite (h2.seq (setOpenMark_changes m _ _)) h2
  have h4 : ChangesOnly sessionParts s s4 := h3.seq (writeFree_changes _ _)
  exact (h4.seq (setEvent_changes _ _) (rs := sessionParts)).seq (setEventIf_changes _ _ _)
theorem takeSecondary_changes (m : Addr) (k : FaultKind) (p : Bool) (s : State) :
    ChangesOnly sessionParts s (takeSecondary m k p s) := by
  unfold takeSecondary
  extract_lets own r1 raised s1 s2 s3
  have h1 : ChangesOnly sessionParts s s1 := (setFaults_changes m _ s).up
  have h2 : ChangesOnly sessionParts s s2 := .ite (h1.seq (applyAbort_changes m _ _ _)) h1
  have h3 : ChangesOnly sessionParts s s3 := h2.seq (setEventIf_changes _ _ _)
  exact (h3.seq (writeFree_changes _ _) (rs := sessionParts)).seq (setEvent_changes _ _)
/-- R131, R132, R136: what a fault may change. -/
theorem takeFault_changes (m : Addr) (k : FaultKind) (p : Bool) (s : State) : ChangesOnly sessionParts s (takeFault m k p s) :=
  .ite (takeSecondary_changes m k p s) (takePrimary_changes m k p s)
theorem selfAbort_changes (m : Addr) (c : FaultCause) (s : State) : ChangesOnly sessionParts s (selfAbort m c s) := by
  unfold selfAbort
  extract_lets f s1 ended s2 s3
  have h1 : ChangesOnly [.flm] s s1 := setFaults_changes m _ s
  have h2 : ChangesOnly sessionParts s s2 := h1.seq (orderAbort_changes m _ _ s1)
  have h3 : ChangesOnly sessionParts s s3 := .ite (h2.seq (setOpenMark_changes m _ _)) h2
  exact (h3.seq (writeFree_changes _ _) (rs := sessionParts)).seq (setEvent_changes _ _)

/-! ## Reports -/

theorem commandUnpaid_changes (m : Addr) (n : NodeState) (s : State) : ChangesOnly [.mbc] s (commandUnpaid m n s) := by
  unfold commandUnpaid; split
  · exact queueControl_changes m _ s
  · exact .refl _ s
theorem doorRelease_changes (m : Addr) (d : Door) (s : State) : ChangesOnly [.msv, .flm] s (doorRelease m d s) := by
  unfold doorRelease; split
  · exact enterState_changes m _ s
  · exact .refl _ s
theorem resolveStarting_changes (m : Addr) (l : Level) (s : State) : ChangesOnly sessionParts s (resolveStarting m l s) := by
  have h := ((endRecovery_changes m s).seq (beginStarting_changes m _) (rs := sessionParts)).seq (askStart_changes m l _)
    (rs := sessionParts)
  exact .ite (h.seq (disarmRefund_changes m _)) (h.seq (review_changes _))
theorem resolveReport_changes (m : Addr) (r : NodeReport) (s : State) : ChangesOnly sessionParts s (resolveReport m r s) := by
  have h0 := endRecovery_changes m s
  have hn : ∀ x, ChangesOnly sessionParts s (normalEnd m x (endRecovery m s)) := fun x => h0.seq (normalEnd_changes m x _)
  have hs : ChangesOnly sessionParts s (selfAbort m .runLost (endRecovery m s)) := h0.seq (selfAbort_changes m _ _)
  have ha : ChangesOnly sessionParts s (disarmIfClosed m (resolveArmed m s)) :=
    (resolveArmed_changes m s).seq (disarmIfClosed_changes m _)
  have hq : ChangesOnly sessionParts s (disarmIfClosed m (queueArm m (resolveArmed m s))) :=
    ((resolveArmed_changes m s).seq (queueArm_changes m _) (rs := sessionParts)).seq (disarmIfClosed_changes m _)
  have hd : ChangesOnly sessionParts s (resolveReport.disarmIfNotRunning m (endRecovery m s)) :=
    .ite h0.up (h0.seq (disarmIfClosed_changes m _))
  have hr := h0.up (qs := sessionParts)
  unfold resolveReport; split
  all_goals with_reducible first
    | exact .refl _ s
    | exact hd
    | exact hr
    | exact hn _
    | exact hs
    | exact ha
    | exact hq
    | exact resolveStarting_changes m _ s
theorem applyNodeState_changes (m : Addr) (r : NodeReport) (s : State) : ChangesOnly sessionParts s (applyNodeState m r s) := by
  unfold applyNodeState; split
  · exact (enterState_changes m _ s).seq (commandUnpaid_changes m _ _)
  · exact (enterState_changes m _ s).seq (commandUnpaid_changes m _ _)
  · exact (commandUnpaid_changes m _ s).up
  · exact (commandUnpaid_changes m _ s).up
  · exact .refl _ s
  · unfold armedReport; split
    · exact (enterStarting_changes m _ s).up
    · exact (enterStarting_changes m _ s).up
    all_goals first
      | exact (rearm_changes m s).up
      | exact .refl _ s
  · unfold startingReport; split
    all_goals first
      | exact (backToArmed_changes m s).up
      | exact (backToArmed_changes m s).seq (rearm_changes m _)
      | exact .ite (.refl _ s) ((askStart_changes m _ s).seq (review_changes _))
      | exact .refl _ s
  · unfold runningReport; split
    all_goals first
      | exact normalEnd_changes m _ s
      | exact .refl _ s
  · exact (commandUnpaid_changes m _ s).seq (doorRelease_changes m _ _)
  · exact (commandUnpaid_changes m _ s).seq (doorRelease_changes m _ _)
  · unfold abortingReport; split
    all_goals first
      | exact abortingStopped_changes m s
      | exact (queueControl_changes m _ s).up
      | exact .refl _ s
  · exact resolveReport_changes m r s
theorem sessionsReport_changes (m : Addr) (r : NodeReport) (s : State) : ChangesOnly sessionParts s (sessionsReport m r s) := by
  unfold sessionsReport; dsimp only
  have h := mapRecord_changes m (·.heard r) s
  split
  · exact ((h.seq (endRecovery_changes m _) (rs := sessionParts)).seq (selfAbort_changes m _ _) (rs := sessionParts)).seq
      (feederReport_changes m r _)
  · exact (h.seq (applyNodeState_changes m r _) (rs := sessionParts)).seq (feederReport_changes m r _)
theorem heardAgain_changes (m : Addr) (s : State) : ChangesOnly [.mbc, .fba] s (heardAgain m s) :=
  .ite ((mapNode_changes m _ s).seq (feederHeard_changes m _)) (.refl _ s)
theorem takeEchoes_changes (m : Addr) (r : NodeReport) (s : State) : ChangesOnly [.msv, .mbc, .fba] s (takeEchoes m r s) :=
  ((mapNode_changes m _ s).seq (acknowledge_changes m _ _ _) (rs := [.msv, .mbc, .fba])).seq (acknowledge_changes m _ _ _)
theorem faultCode_changes (m : Addr) (r : NodeReport) (s : State) : ChangesOnly sessionParts s (faultCode m r s) := by
  unfold faultCode; split
  · exact (mapNode_changes m _ s).up
  · exact .ite (.refl _ s) ((mapNode_changes m _ s).seq (takeFault_changes m _ _ _))
theorem hearReport_changes (m : Addr) (r : NodeReport) (s : State) : ChangesOnly [.msv, .mbc, .fba] s (hearReport m r s) :=
  ((mapNode_changes m (·.heardValid r.kind) s).seq (heardAgain_changes m _) (rs := [.msv, .mbc, .fba])).seq
    (takeEchoes_changes m r _)
theorem finishReport_changes (m : Addr) (r : NodeReport) (s : State) : ChangesOnly sessionParts s (finishReport m r s) :=
  ((mapNode_changes m _ s).seq (sessionsReport_changes m r _) (rs := sessionParts)).seq (faultCode_changes m r _)
theorem reportStale_changes (m : Addr) (s : State) : ChangesOnly sessionParts s (reportStale m s) := by
  unfold reportStale; split
  · exact .refl _ s
  · exact ((mapNode_changes m _ s).seq (takeFault_changes m _ _ _) (rs := sessionParts)).seq (finishReport_changes m _ _)
theorem takeReport_changes (m : Addr) (r : NodeReport) (s : State) : ChangesOnly sessionParts s (takeReport m r s) := by
  have h5 := (hearReport_changes m r s).seq (mapNode_changes m (·.checkKeep r.keepAlive) _) (rs := sessionParts)
  exact .ite (h5.seq (mapNode_changes m _ _)) (h5.seq (finishReport_changes m r _))
/-- R32, R45: what a valid report may change. -/
theorem takeValid_changes (m : Addr) (r : NodeReport) (s : State) : ChangesOnly sessionParts s (takeValid m r s) := by
  have h := (noteOccupied_changes m s).seq (takeReport_changes m r _) (rs := sessionParts)
  exact .ite (h.seq (assignAnswered_changes _)) h
theorem takeMalformed_changes (m : Addr) (s : State) : ChangesOnly [.mbc] s (takeMalformed m s) :=
  (mapNode_changes m _ s).seq (noteOccupied_changes m _)
theorem takeCheckError_changes (m : Addr) (s : State) : ChangesOnly [.mbc] s (takeCheckError m s) :=
  (mapNode_changes m _ s).seq (noteOccupied_changes m _)
theorem windowEnds_changes (m : Addr) (s : State) : ChangesOnly sessionParts s (windowEnds m s) := by
  unfold windowEnds; dsimp only; split
  · have h := (endRecovery_changes m s).seq
      (mapRecord_changes m (fun x => { x with silent := true, silenceTimer := Config.silenceSeconds }) _) (rs := sessionParts)
    exact .ite h (h.seq (disarmIfClosed_changes m _))
  · exact .ite ((mapRecord_changes m _ s).seq (enterState_changes m _ _)) (.refl _ s)
  · exact .refl _ s
theorem repeatNotice_changes (m : Addr) (s : State) : ChangesOnly sessionParts s (repeatNotice m s) :=
  .ite (giveSilence_changes m s) (.refl _ s)

/-! ## Timers -/

theorem blockExpiry_changes (m : Addr) (s : State) : ChangesOnly [.msv, .mbc] s (blockExpiry m s) := by
  unfold blockExpiry; split
  · exact .refl _ s
  · dsimp only; split
    · exact (mapSession_changes m _ s).up
    · exact (mapSession_changes m _ s).seq (queueControl_changes m _ _)
theorem endWindow_changes (s : State) : ChangesOnly sessionParts s (endWindow s) :=
  ((withMsv_changes _ s).seq (ChangesOnly.forMachines windowEnds_changes _) (rs := sessionParts)).seq
    (ChangesOnly.forMachines repeatNotice_changes _)
theorem loseCommand_changes (m : Addr) (c : CommandClass) (s : State) : ChangesOnly sessionParts s (loseCommand m c s) := by
  unfold loseCommand; split
  · exact .refl _ s
  · exact ((dropCommand_changes m c s).seq (tellOwner_changes m _ _ _) (rs := sessionParts)).seq (takeFault_changes m _ _ _)
theorem takeClash_changes (m : Addr) (s : State) : ChangesOnly sessionParts s (takeClash m s) :=
  ((mapNode_changes m _ s).seq (setEvent_changes _ _) (rs := sessionParts)).seq (takeFault_changes m _ _ _)
theorem reportExcess_changes (m : Addr) (p : Bool) (s : State) : ChangesOnly sessionParts s (reportExcess m p s) :=
  (mapGrant_changes m _ s).seq (takeFault_changes m _ _ _)
theorem finishAddress_changes (m : Addr) (s : State) : ChangesOnly sessionParts s (finishAddress m s) := by
  have h1 : ChangesOnly sessionParts s (staleIfDue m s) := .ite (reportStale_changes m s) (.refl _ s)
  have h2 : ∀ p u, ChangesOnly sessionParts u (excessIfDue m p u) := fun p u => .ite (reportExcess_changes m p u) (.refl _ u)
  have h3 : ∀ u, ChangesOnly sessionParts u (clashIfDue m u) := fun u => .ite (takeClash_changes m u) (.refl _ u)
  exact ((h1.seq (h2 false _) (rs := sessionParts)).seq (h2 true _) (rs := sessionParts)).seq (h3 _)
/-- R30: what taking a slot's outcome may change. -/
theorem finishSlot_changes (s : State) : ChangesOnly sessionParts s (finishSlot s) :=
  ChangesOnly.forMachines finishAddress_changes s
/-- R30: an outcome that is taken already leaves nothing to take. -/
theorem finishSlot_of_done {s : State} (h : s.SlotDone) : finishSlot s = s := by
  have one : ∀ m, finishAddress m s = s := fun m => by
    simp [finishAddress, staleIfDue, excessIfDue, clashIfDue, whenDue, h m]
  have : ∀ l : List Addr, l.foldl (fun s m => finishAddress m s) s = s := fun l => by
    induction l with
    | nil => rfl
    | cons m l ih => rw [List.foldl_cons, one m]; exact ih
  exact this allMachines
theorem takeLine_changes (s : State) : ChangesOnly [.msv, .mbc, .fba, .evu] s (takeLine s) :=
  ((withFba_changes _ s).seq (recomputeBudget_changes _) (rs := [.msv, .mbc, .fba, .evu])).seq (setEventIf_changes _ _ _)
theorem sendBeacon_changes (s : State) : ChangesOnly [.mbc, .out] s (sendBeacon s) := by
  unfold sendBeacon; dsimp only
  exact ((withMbc_changes _ s).seq (ChangesOnly.foldl sendEntry_changes _ _) (rs := [.mbc, .out])).seq (withOut_changes _ _)
theorem closePeriod_changes (s : State) : ChangesOnly [.mbc] s (closePeriod s) := withMbc_changes _ s

/-! ## Stations -/

theorem discardMessage_changes (st : Station) (s : State) : ChangesOnly [.pay] s (discardMessage st s) := setExchange_changes st _ s
theorem sendDecline_changes (st : Station) (d : DeclineReason) (b : Nat) (s : State) :
    ChangesOnly [.out] s (sendDecline st d b s) := sendStation_changes st _ s
theorem idleExchange_changes (st : Station) (s : State) : ChangesOnly [.pay] s (idleExchange st s) := setExchange_changes st _ s
theorem verifyPrices_changes (s : State) : ChangesOnly [.pay, .evu] s (verifyPrices s) :=
  .ite ((withPay_changes _ s).seq (setEventIf_changes _ _ _)) (.refl _ s)
theorem resolveCard_changes (k b c : Nat) (s : State) : ChangesOnly [.cru, .jrn, .evu] s (resolveCard k b c s).2 := by
  unfold resolveCard; split
  · exact .refl _ s
  · split
    · exact .refl _ s
    · exact dropPending_changes _ _ _ _ s
theorem sendOrder_changes (st : Station) (o : Order) (s : State) : ChangesOnly [.pay, .cru, .out] s (sendOrder st o s) := by
  have h : ChangesOnly [.cru] s (if o.folded.isSome then mapRefund o.serial (fun e => { e with hold := some st }) s else s) :=
    .ite (mapRefund_changes _ _ s) (.refl _ s)
  exact (h.seq (setExchange_changes st _ _) (rs := [.pay, .cru])).seq (sendStation_changes st _ _)
theorem openExchange_changes (st : Station) (b : Nat) (o : Order) (s : State) :
    ChangesOnly [.msv, .pay, .cru, .jrn, .evu, .out] s (openExchange st b o s) := by
  unfold openExchange; split
  · exact (sendDecline_changes st _ b s).up
  · next s1 h =>
    have h1 := reserveSlots_changes h
    split
    · split
      · exact (h1.seq (returnSlots_changes _ _) (rs := [.jrn, .evu])).seq (sendDecline_changes st _ b _)
      · next s2 hr =>
        have h2 : ChangesOnly [.msv] s1 s2 := by
          unfold reserveMachine at hr; split at hr
          · cases hr; exact mapRecord_changes _ _ s1
          · cases hr
        exact (h1.seq h2 (rs := [.msv, .jrn, .evu])).seq (sendOrder_changes st o _)
    all_goals exact h1.seq (sendOrder_changes st o _)
theorem takePurchase_changes (st : Station) (msg : PurchaseMsg) (s : State) :
    ChangesOnly [.msv, .pay, .cru, .jrn, .evu, .out] s (takePurchase st msg s) := by
  have hb : ∀ (u : State) r, ChangesOnly [.msv, .pay, .cru, .jrn, .evu, .out] u (buyFrom st msg r u) := by
    intro u r
    have hd : ∀ d b, ChangesOnly [.msv, .pay, .cru, .jrn, .evu, .out] u (sendDecline st d b u) := fun d b =>
      (sendDecline_changes st d b u).up
    unfold buyFrom; dsimp only
    repeat' with_reducible first
      | exact hd _ _
      | exact openExchange_changes st _ _ u
      | split
  unfold takePurchase; dsimp only; split
  · exact (setExchange_changes st _ s).seq (sendDecline_changes st _ _ _)
  · unfold evaluatePurchase; dsimp only
    have h1 : ∀ c : Bool, ChangesOnly [.pay, .evu] s (if c = true then verifyPrices s else s) := fun c =>
      .ite (verifyPrices_changes s) (.refl _ s)
    split
    · exact (h1 _).seq (sendDecline_changes st _ _ _)
    · split
      · exact (h1 _).seq (sendDecline_changes st _ _ _)
      · exact ((h1 _).seq (resolveCard_changes _ _ _ _) (rs := [.pay, .cru, .jrn, .evu])).seq (hb _ _)

/-- The blocks that an outcome may reach. -/
abbrev outcomeParts : List Part := [.msv, .mbc, .fba, .pay, .cru, .flm, .jrn, .evu, .out]

theorem answerSale_changes (st : Station) (o : Order) (l : Bool) (s : State) : ChangesOnly [.out] s (answerSale st o l s) := by
  unfold answerSale; split
  · split <;> exact sendStation_changes st _ s
  · split
    · exact sendDecline_changes st _ _ s
    · split
      · exact sendDecline_changes st _ _ s
      · exact .refl _ s
theorem recordUncertain_changes (o : Order) (d : Detail) (s : State) :
    ChangesOnly [.cru, .jrn, .evu] s (recordUncertain o d s) := by
  have h1 := (writeMoney_changes (o.body .debitUncertain d) s).seq (setEvent_changes .debitUncertain _) (rs := [.jrn, .evu])
  unfold recordUncertain; dsimp only; split
  · exact h1.seq (createPending_changes o _)
  · exact h1.seq (updatePending_changes o _ _)
theorem releaseReserved_changes (o : Order) (s : State) : ChangesOnly [.msv, .flm] s (releaseReserved o s) := by
  unfold releaseReserved; split
  · exact .ite (freeMachine_changes _ s) (.refl _ s)
  · exact .refl _ s
  · exact .refl _ s
theorem endUncertain_changes (st : Station) (o : Order) (d : Detail) (s : State) :
    ChangesOnly [.msv, .pay, .cru, .flm, .jrn, .evu] s (endUncertain st o d s) :=
  ((recordUncertain_changes o d s).seq (releaseReserved_changes o _) (rs := [.msv, .cru, .flm, .jrn, .evu])).seq
    (idleExchange_changes st _)
theorem endFailed_changes (st : Station) (o : Order) (s : State) :
    ChangesOnly [.msv, .pay, .cru, .flm, .jrn, .evu] s (endFailed st o s) :=
  (((returnSlots_changes _ s).seq (mapRefund_changes _ _ _) (rs := [.cru, .jrn, .evu])).seq (releaseReserved_changes o _)
    (rs := [.msv, .cru, .flm, .jrn, .evu])).seq (idleExchange_changes st _)
theorem doneNew_changes (st : Station) (o : Order) (s : State) : ChangesOnly outcomeParts s (doneNew st o s) := by
  have h1 := (writeMoney_changes (o.body .sale .none) s).seq (setEvent_changes .sale _) (rs := outcomeParts)
  exact (((h1.seq (settleTables_changes o _) (rs := outcomeParts)).seq (armMachine_changes o _) (rs := outcomeParts)).seq
    (idleExchange_changes st _) (rs := outcomeParts)).seq (answerSale_changes st o _ _)
theorem doneTopup_changes (st : Station) (o : Order) (s : State) : ChangesOnly outcomeParts s (doneTopup st o s) := by
  have h1 := ((writeMoney_changes (o.body .topup .none) s).seq (setEvent_changes .topup _) (rs := outcomeParts)).seq
    (settleTables_changes o _) (rs := outcomeParts)
  unfold doneTopup; dsimp only; split
  · exact (((h1.seq (mapSession_changes _ _ _) (rs := outcomeParts)).seq (returnSlots_changes 2 _) (rs := outcomeParts)).seq
      (idleExchange_changes st _) (rs := outcomeParts)).seq (sendStation_changes st _ _)
  · have h2 : ∀ k a b c, ChangesOnly outcomeParts s (if 0 < o.charge then creditSerial k a b c _ else returnSlots 2 _) :=
      fun k a b c => .ite (h1.seq (creditSerial_changes k a b c _)) (h1.seq (returnSlots_changes 2 _))
    exact ((h2 _ _ _ _).seq (idleExchange_changes st _) (rs := outcomeParts)).seq (sendDecline_changes st _ _ _)
theorem doneCredit_changes (st : Station) (o : Order) (s : State) : ChangesOnly outcomeParts s (doneCredit st o s) := by
  have h1 := (writeMoney_changes (o.body .creditApplied .none) s).seq (settleTables_changes o _) (rs := outcomeParts)
  exact ((h1.seq (returnSlots_changes 2 _) (rs := outcomeParts)).seq (idleExchange_changes st _) (rs := outcomeParts)).seq
    (sendDecline_changes st _ _ _)
/-- R86 to R92: what a RESULT may change. -/
theorem takeResult_changes (st : Station) (msg : ResultMsg) (s : State) : ChangesOnly outcomeParts s (takeResult st msg s) := by
  unfold takeResult; dsimp only; split
  · exact (setExchange_changes st _ s).up
  · split
    · exact (setExchange_changes st _ s).up
    · split
      · unfold endDone; split
        · split
          · exact doneNew_changes st _ s
          · exact doneTopup_changes st _ s
          · exact doneCredit_changes st _ s
        · exact (endUncertain_changes st _ _ s).seq (sendDecline_changes st _ _ _)
      · exact (endUncertain_changes st _ _ s).up
      · exact (endFailed_changes st _ s).up
theorem resultExpiry_changes (st : Station) (s : State) :
    ChangesOnly [.msv, .pay, .cru, .flm, .jrn, .evu] s (resultExpiry st s) := by
  unfold resultExpiry; split
  · exact .refl _ s
  · exact endUncertain_changes st _ _ s

end Sys2Proof.Machine
end

