-- ==== Sys2Proof/Laws/Feeder.lean ====
section
/-! SUPPORT. What FBA's operations on one machine leave of another, and what a review leaves of a machine that has no entry in the
admission queue (R58, R59); the sums over the grant table (R54), what a queued command leaves in the bus command queue (R39), what
a granted RAISE leaves of the budget (R62), and what a rebuild leaves of a grant and of a hold (R63, R69). -/
namespace Sys2Proof.Machine

set_option Elab.async false -- each lemma rests on those before it

/-- What FBA and MSV hold of a machine is the same in two states: its record, its grant, and whether it has entries. -/
structure Apart (m : Addr) (s t : State) : Prop where
  record : t.record m = s.record m
  grant  : t.grant m = s.grant m
  raise  : t.fba.hasRaise m = s.fba.hasRaise m
  start  : t.fba.hasStart m = s.fba.hasStart m

theorem Apart.refl (m : Addr) (s : State) : Apart m s s := ⟨rfl, rfl, rfl, rfl⟩

theorem Apart.trans {m : Addr} {s t u : State} (h : Apart m s t) (k : Apart m t u) : Apart m s u :=
  ⟨k.1.trans h.1, k.2.trans h.2, k.3.trans h.3, k.4.trans h.4⟩

theorem Apart.ite {m : Addr} {s t u : State} {c : Prop} [Decidable c] (h : Apart m s t) (k : Apart m s u) :
    Apart m s (if c then t else u) := by
  split <;> assumption

variable {m n : Addr}

theorem apart_setGrant (h : n ≠ m) (e : GrantEntry) (s : State) : Apart m s (s.setGrant n e) :=
  ⟨rfl, by simp [h], rfl, rfl⟩
theorem apart_mapGrant (h : n ≠ m) (f : GrantEntry → GrantEntry) (s : State) : Apart m s (mapGrant n f s) := apart_setGrant h _ s
theorem apart_setRecord (h : n ≠ m) (r : MachineRecord) (s : State) : Apart m s (s.setRecord n r) :=
  ⟨by simp [h], rfl, rfl, rfl⟩
theorem apart_queueCommand (k : Addr) (c : BusCommand) (o : BusOwner) (s : State) : Apart m s (queueCommand k c o s) := by
  unfold queueCommand; split
  · exact .refl m s
  · exact .ite ⟨rfl, rfl, rfl, rfl⟩ (.refl m s)
theorem apart_queueGrant (h : n ≠ m) (l : Level) (f : Bool) (s : State) : Apart m s (queueGrant n l f s) :=
  .ite ((apart_setGrant h _ s).trans (apart_queueCommand n _ _ _)) (.refl m s)
theorem apart_changeGrant (h : n ≠ m) (l : Level) (f : Bool) (s : State) : Apart m s (changeGrant n l f s) :=
  (apart_mapGrant h _ s).trans (apart_queueGrant h l f _)

theorem any_filter_ne (l : List AdmEntry) (h : n ≠ m) :
    (l.filter (·.machine != n)).any (·.machine == m) = l.any (·.machine == m) := by
  induction l with
  | nil => rfl
  | cons e l ih =>
    by_cases he : e.machine = n
    · have : ¬ (e.machine = m) := fun x => h (he ▸ x)
      simp [he, h, ih]
    · simp [he, ih]
theorem any_map_target (l : List AdmEntry) (f : AdmEntry → AdmEntry) (hf : ∀ e, (f e).machine = e.machine) :
    (l.map f).any (·.machine == m) = l.any (·.machine == m) := by
  simp [List.any_map, Function.comp_def, hf]
theorem any_append_ne (l : List AdmEntry) (e : AdmEntry) (h : e.machine ≠ m) :
    (l ++ [e]).any (·.machine == m) = l.any (·.machine == m) := by
  simp [h]

theorem apart_removeRaise (h : n ≠ m) (s : State) : Apart m s (removeRaise n s) := ⟨rfl, rfl, any_filter_ne _ h, rfl⟩
theorem apart_removeStart (h : n ≠ m) (s : State) : Apart m s (removeStart n s) := ⟨rfl, rfl, rfl, any_filter_ne _ h⟩
theorem apart_removeEntries (h : n ≠ m) (s : State) : Apart m s (removeEntries n s) :=
  (apart_removeRaise h s).trans (apart_removeStart h _)
theorem apart_addRaise (h : n ≠ m) (l : Level) (f : Bool) (s : State) : Apart m s (addRaise n l f s) :=
  ⟨rfl, rfl, any_append_ne _ _ h, rfl⟩
theorem apart_setRaise (h : n ≠ m) (l : Level) (f : Bool) (s : State) : Apart m s (setRaise n l f s) :=
  .ite ⟨rfl, rfl, any_map_target _ _ fun e => by split <;> rfl, rfl⟩ (apart_addRaise h l f s)
theorem apart_ensureRaise (h : n ≠ m) (l : Level) (f : Bool) (s : State) : Apart m s (ensureRaise n l f s) :=
  .ite (.refl m s) (apart_addRaise h l f s)
theorem apart_addStart (h : n ≠ m) (l : Level) (f : Bool) (s : State) : Apart m s (addStart n l f s) :=
  .ite ⟨rfl, rfl, rfl, any_map_target _ _ fun e => by split <;> rfl⟩ ⟨rfl, rfl, rfl, any_append_ne _ _ h⟩
theorem apart_startList (s : State) (l : List Addr) : Apart m s (s.withFba { s.fba with startList := l }) :=
  ⟨rfl, rfl, rfl, rfl⟩
theorem apart_compareWanted (h : n ≠ m) (s : State) : Apart m s (compareWanted n s) := by
  unfold compareWanted; dsimp only; split
  · split
    · have hc : ∀ (c : Prop) [Decidable c] l f, Apart m s (if c then s else changeGrant n l f s) :=
        fun c _ l f => .ite (.refl m s) (apart_changeGrant h l f s)
      exact .ite ((hc _ _ _).trans (apart_setRaise h _ _ _)) ((hc _ _ _).trans (apart_removeRaise h _))
    · exact .refl m s
  · exact .refl m s

/-- R60: granting a washer's START leaves every other machine. -/
theorem apart_grantWasherStart (h : n ≠ m) (d : LevelDraws) (s : State) : Apart m s (grantWasherStart n d s) :=
  (((((apart_mapGrant h _ s).trans (apart_startList _ _)).trans (apart_removeStart h _)).trans
    (apart_queueGrant h .base true _)).trans (apart_setRecord h _ _)).trans (apart_compareWanted h _)

/-- R61: granting a dryer's START leaves every other machine. -/
theorem apart_grantDryerStart (h : n ≠ m) (d : LevelDraws) (l t : Level) (s : State) :
    Apart m s (grantDryerStart n d l t s) := by
  unfold grantDryerStart
  extract_lets s1 f s2 s3
  have h1 : Apart m s s1 := apart_mapGrant h _ s
  have h2 : Apart m s s2 := (h1.trans (apart_startList s1 _)).trans (apart_removeStart h _)
  have h3 : Apart m s s3 := (h2.trans (apart_queueGrant h l false _)).trans (apart_setRecord h _ _)
  exact .ite (h3.trans (apart_addRaise h t false _)) h3

/-- R62: granting a RAISE leaves every other machine. -/
theorem apart_grantRaise {e : AdmEntry} {s t : State} (h : e.machine ≠ m) (hg : grantRaise e s = some t) : Apart m s t := by
  unfold grantRaise at hg; dsimp only at hg; split at hg
  · cases hg; exact (apart_removeRaise h s).trans (apart_changeGrant h _ _ _)
  · cases hg

/-- R60, R61: granting a START leaves every other machine. -/
theorem apart_grantStart {e : AdmEntry} {s t : State} (h : e.machine ≠ m) (hg : grantStart e s = some t) : Apart m s t := by
  unfold grantStart at hg; split at hg
  · cases hg
  · split at hg
    · split at hg
      · cases hg; exact apart_grantWasherStart h _ s
      · cases hg
    · split at hg
      · cases hg; exact apart_grantDryerStart h _ _ _ s
      · cases hg

/-- R59: granting the head leaves a machine that has no entry. -/
theorem apart_grantHead {s t : State} (hg : grantHead s = some t) (hr : s.fba.hasRaise m = false)
    (hs : s.fba.hasStart m = false) : Apart m s t := by
  unfold grantHead at hg; split at hg
  · next _ e l hl =>
    exact apart_grantRaise (by intro he; simp [Fba.hasRaise, hl, he] at hr) hg
  · next e l _ hl =>
    exact apart_grantStart (by intro he; simp [Fba.hasStart, hl, he] at hs) hg
  · cases hg

theorem apart_grantHeads (k : Nat) (s : State) (hr : s.fba.hasRaise m = false) (hs : s.fba.hasStart m = false) :
    Apart m s (grantHeads k s) := by
  induction k generalizing s with
  | zero => exact .refl m s
  | succ k ih =>
    unfold grantHeads; split
    · exact .refl m s
    · next t ht =>
      have h := apart_grantHead ht hr hs
      exact h.trans (ih t (h.raise.trans hr) (h.start.trans hs))

/-- R59: a review leaves a machine that has no entry in the admission queue. -/
theorem apart_review (s : State) (hr : s.fba.hasRaise m = false) (hs : s.fba.hasStart m = false) : Apart m s (review s) := by
  have h : Apart m s (clearOverBudget s) := .ite ⟨rfl, rfl, rfl, rfl⟩ (.refl m s)
  exact h.trans (.ite (.refl m _) (apart_grantHeads _ _ (h.raise.trans hr) (h.start.trans hs)))

/-- R58: once its entries are removed, a machine is left alone by the review. -/
theorem removeEntries_none (m : Addr) (s : State) :
    (removeEntries m s).fba.hasRaise m = false ∧ (removeEntries m s).fba.hasStart m = false := by
  simp [removeEntries, removeRaise, removeStart, Fba.hasRaise, Fba.hasStart]

theorem apart_review_removed (m : Addr) (s : State) : Apart m (removeEntries m s) (review (removeEntries m s)) :=
  apart_review _ (removeEntries_none m s).1 (removeEntries_none m s).2

/-- R59: a grant of a head changes the record of no machine without a START entry, and gives no machine a START entry. -/
theorem grantHead_record {s t : State} (hg : grantHead s = some t) (hs : s.fba.hasStart m = false) :
    t.record m = s.record m ∧ t.fba.hasStart m = false := by
  unfold grantHead at hg; split at hg
  · next _ e l hl =>
    unfold grantRaise at hg; dsimp only at hg; split at hg
    · cases hg
      have h := (removeRaise_changes e.machine s).seq (changeGrant_changes e.machine e.level
        ((s.grant e.machine).fill || e.fill) _) (rs := [.mbc, .fba])
      have hm := h .msv (by simp)
      refine ⟨congrArg (fun x : Msv => x.records.at m) hm, ?_⟩
      show (changeGrant _ _ _ _).fba.hasStart m = false
      simp only [changeGrant, queueGrant, queueCommand, BusCommand.cls]
      split
      · split <;> exact hs
      · exact hs
    · cases hg
  · next e l _ hl =>
    have h := apart_grantStart (m := m) (by intro he; simp [Fba.hasStart, hl, he] at hs) hg
    exact ⟨h.record, h.start.trans hs⟩
  · cases hg

/-- R59: a review changes the record of no machine without a START entry, and gives it none. -/
theorem review_record (s : State) (hs : s.fba.hasStart m = false) :
    (review s).record m = s.record m ∧ (review s).fba.hasStart m = false := by
  have hh : ∀ (k : Nat) (u : State), u.fba.hasStart m = false →
      (grantHeads k u).record m = u.record m ∧ (grantHeads k u).fba.hasStart m = false := by
    intro k
    induction k with
    | zero => intro u hu; exact ⟨rfl, hu⟩
    | succ k ih =>
      intro u hu
      unfold grantHeads; split
      · exact ⟨rfl, hu⟩
      · next t ht =>
        have h := grantHead_record ht hu
        have h2 := ih t h.2
        exact ⟨h2.1.trans h.1, h2.2⟩
  have h : Apart m s (clearOverBudget s) := .ite ⟨rfl, rfl, rfl, rfl⟩ (.refl m s)
  unfold review reexamine
  split
  · exact ⟨h.record, h.start.trans hs⟩
  · have h2 := hh ((clearOverBudget s).fba.raises.length + 2 * (clearOverBudget s).fba.starts.length) _ (h.start.trans hs)
    exact ⟨h2.1.trans h.record, h2.2⟩

/-! ## Sums over the grant table (R54) -/

theorem sum_map_set {α : Type} (f : α → Nat) (x : α) : ∀ (l : List α) (i : Nat) (h : i < l.length),
    ((l.set i x).map f).sum + f l[i] = (l.map f).sum + f x
  | a :: l, 0, _ => by simp; omega
  | a :: l, i + 1, h => by
    have := sum_map_set f x l i (by simpa using h)
    simp only [List.set_cons_succ, List.map_cons, List.sum_cons, List.getElem_cons_succ]
    omega

/-- R54: committed draw follows the draw of the entry that is set. -/
theorem committed_setGrant (m : Addr) (e : GrantEntry) (s : State) :
    (s.setGrant m e).fba.committed + (s.grant m).draw = s.fba.committed + e.draw := by
  have h := sum_map_set (·.draw) e s.fba.entries.toArray.toList m.val (by simp)
  simpa [Fba.committed, State.setGrant, State.grant, PerMachine.put, PerMachine.at] using h

/-- R54: the fill count follows the fill of the entry that is set. -/
theorem fillCount_setGrant (m : Addr) (e : GrantEntry) (s : State) :
    (s.setGrant m e).fba.fillCount + (s.grant m).fill.toNat = s.fba.fillCount + e.fill.toNat := by
  have count : ∀ l : List GrantEntry, (l.filter (·.fill)).length = (l.map (·.fill.toNat)).sum := by
    intro l
    induction l with
    | nil => rfl
    | cons a l ih => cases h : a.fill <;> (simp [h, ih]; try omega)
  have h := sum_map_set (·.fill.toNat) e s.fba.entries.toArray.toList m.val (by simp)
  simp only [← count] at h
  simpa [Fba.fillCount, State.setGrant, State.grant, PerMachine.put, PerMachine.at] using h

/-! ## What the bus command queue holds after a command has been queued (R39) -/

/-- A command for a node that holds its address waits in its class's place. -/
theorem waiting_queueCommand (m : Addr) (c : BusCommand) (k : CommandClass) (o : BusOwner) (s : State)
    (hk : c.cls = some k) (hn : (s.node m).known = true) :
    ((queueCommand m c o s).mbc.waiting m k).map (·.command) = some c := by
  have key : ∀ (e : BusEntry) (q : List BusEntry), e.fills m k = true →
      (if q.any (·.fills m k) then q.map fun x => if x.fills m k then e else x else q ++ [e]).find? (·.fills m k) = some e := by
    intro e q he
    split
    · next h =>
      induction q with
      | nil => simp at h
      | cons a q ih =>
        by_cases ha : a.fills m k = true
        · simp [ha, he]
        · simp only [List.any_cons, Bool.or_eq_true, ha, Bool.false_eq_true, false_or] at h
          simpa [ha] using ih h
    · next h =>
      have hq : q.find? (·.fills m k) = none := by simpa using h
      simp [List.find?_append, hq, he]
  simp only [queueCommand, hk, hn, if_true, Mbc.waiting, State.withMbc, enqueueIn]
  rw [key _ _ (by simp [BusEntry.fills, hk])]
  rfl

/-! ## Committed draw and what is granted (R54, R59, R67) -/

/-- Queueing GRANT leaves committed draw, B_eff and OVER_BUDGET as they are. -/
theorem queueGrant_budget (m : Addr) (l : Level) (f : Bool) (s : State) :
    (queueGrant m l f s).fba.committed = s.fba.committed ∧ (queueGrant m l f s).fba.beff = s.fba.beff ∧
      (queueGrant m l f s).fba.overBudget = s.fba.overBudget := by
  have h := committed_setGrant m { s.grant m with pending := true } s
  simp only [queueGrant, queueCommand, BusCommand.cls]
  split
  · split
    · exact ⟨Nat.add_right_cancel h, rfl, rfl⟩
    · exact ⟨Nat.add_right_cancel h, rfl, rfl⟩
  · exact ⟨rfl, rfl, rfl⟩

/-- A changed grant takes the draw of its new level. -/
theorem changeGrant_budget (m : Addr) (l : Level) (f : Bool) (s : State) :
    (changeGrant m l f s).fba.committed + (s.grant m).draw = s.fba.committed + (s.grant m).drawOf l ∧
      (changeGrant m l f s).fba.beff = s.fba.beff ∧ (changeGrant m l f s).fba.overBudget = s.fba.overBudget := by
  have h := queueGrant_budget m l f (mapGrant m (·.regrant l f) s)
  unfold changeGrant
  rw [h.1, h.2.1, h.2.2]
  exact ⟨committed_setGrant m _ s, rfl, rfl⟩

/-- R62: a RAISE entry is granted only where committed draw stays within B_eff. -/
theorem grantRaise_budget {e : AdmEntry} {s t : State} (h : grantRaise e s = some t) :
    t.fba.committed ≤ t.fba.beff ∧ t.fba.beff = s.fba.beff ∧ t.fba.overBudget = s.fba.overBudget := by
  simp only [grantRaise] at h
  split at h
  · next hf =>
    have k := changeGrant_budget e.machine e.level ((s.grant e.machine).fill || e.fill) (removeRaise e.machine s)
    have le : (s.grant e.machine).draw ≤ s.fba.committed := by
      have := committed_setGrant e.machine { s.grant e.machine with draw := 0 } s
      dsimp only at this
      omega
    simp only [Fba.fits, Bool.and_eq_true, decide_eq_true_eq] at hf
    have k1 : (changeGrant e.machine e.level ((s.grant e.machine).fill || e.fill) (removeRaise e.machine s)).fba.committed
        + (s.grant e.machine).draw = s.fba.committed + (s.grant e.machine).drawOf e.level := k.1
    cases h
    refine ⟨?_, k.2⟩
    have k2 := k.2.1
    have hb : (removeRaise e.machine s).fba.beff = s.fba.beff := rfl
    omega
  · cases h

/-! ## Rebuilds and holds -/

@[simp] theorem GrantEntry.rebuilt_granted (e : GrantEntry) (g actual : Level) (fill : Bool) :
    (e.rebuilt g actual fill).granted = some (rebuiltLevel g actual) := rfl
@[simp] theorem GrantEntry.rebuilt_fill (e : GrantEntry) (g actual : Level) (fill : Bool) :
    (e.rebuilt g actual fill).fill = (e.fill && fill) := rfl
@[simp] theorem GrantEntry.rebuilt_draw (e : GrantEntry) (g actual : Level) (fill : Bool) :
    (e.rebuilt g actual fill).draw = e.drawOf (rebuiltLevel g actual) := rfl
@[simp] theorem GrantEntry.rebuilt_heldSilent (e : GrantEntry) (g actual : Level) (fill : Bool) :
    (e.rebuilt g actual fill).heldSilent = false := rfl

/-- R69: a rebuild never raises a grant. -/
theorem rebuiltLevel_rank_le (g actual : Level) : (rebuiltLevel g actual).rank ≤ g.rank := by
  unfold rebuiltLevel
  split <;> omega

/-- R63: the mark of a dryer's hold that stands exactly at AIR with more wanted does so after a rebuild and after every later
grant, while the wanted level stays. -/
theorem GrantEntry.rebuilt_held (e : GrantEntry) (g actual : Level) (fill : Bool) :
    (e.rebuilt g actual fill).held = ((e.rebuilt g actual fill).granted == some .air && (e.rebuilt g actual fill).wantsHeat) := by
  cases h : rebuiltLevel g actual <;> simp [rebuilt, regrant, wantsHeat, h]
theorem GrantEntry.regrant_held {e : GrantEntry} (h : e.held = (e.granted == some .air && e.wantsHeat)) (l : Level)
    (fill : Bool) : (e.regrant l fill).held = (l == .air && e.wantsHeat) := by
  by_cases k : e.granted = some .air <;> simp [regrant, holdAt, h, k]

end Sys2Proof.Machine
end

