-- ==== Sys2Proof/Laws/PerInstr.lean ====
section
/-! SUPPORT. Statements made per command, one lemma for each constructor of `Instr`. -/
namespace Sys2Proof.Laws.Fits

set_option Elab.async false -- many small lemmas

/-- R183, R185: a well-formed request has a kind of 01h to 1Eh and a payload that fits one frame; the other commands are no request. -/
def Statement (i : Instr) : Prop :=
  ∀ k p, i.wellFormed = true → encodeRequest i = some (k, p) → (1 ≤ k.toNat ∧ k.toNat ≤ 30) ∧ p.length ≤ 250

theorem coldReset (retainedOk serviceFitted imageOk baudFitted : Bool) : Statement (.coldReset retainedOk serviceFitted imageOk baudFitted) :=
  fun _ _ _ e => nomatch e
theorem resetInputAsserted : Statement .resetInputAsserted := fun _ _ _ e => nomatch e
theorem warmResetEnd (baudFitted : Bool) : Statement (.warmResetEnd baudFitted) := fun _ _ _ e => nomatch e
theorem goodFrame (kind : Byte) (payload : List Byte) : Statement (.goodFrame kind payload) := fun _ _ _ e => nomatch e
theorem badFrame : Statement .badFrame := fun _ _ _ e => nomatch e
theorem frameGap : Statement .frameGap := fun _ _ _ e => nomatch e
theorem replySent : Statement .replySent := fun _ _ _ e => nomatch e
theorem getStatus (page : Option Byte) : Statement (.getStatus page) := by
  intro k p _ e
  cases page <;> cases e <;> exact ⟨by decide, by simp⟩
theorem getMachine (machine : Byte) : Statement (.getMachine machine) := by
  intro k p _ e
  cases e
  exact ⟨by decide, Nat.le_of_ble_eq_true rfl⟩
theorem getNodes (page : Option Byte) : Statement (.getNodes page) := by
  intro k p _ e
  cases page <;> cases e <;> exact ⟨by decide, by simp⟩
theorem getQueue (page : Option Byte) : Statement (.getQueue page) := by
  intro k p _ e
  cases page <;> cases e <;> exact ⟨by decide, by simp⟩
theorem getFault (machine : Byte) : Statement (.getFault machine) := by
  intro k p _ e
  cases e
  exact ⟨by decide, Nat.le_of_ble_eq_true rfl⟩
theorem getCredits (page : Option Byte) : Statement (.getCredits page) := by
  intro k p _ e
  cases page <;> cases e <;> exact ⟨by decide, by simp⟩
theorem getPending (page : Option Byte) : Statement (.getPending page) := by
  intro k p _ e
  cases page <;> cases e <;> exact ⟨by decide, by simp⟩
theorem readEvents (clear : Byte) : Statement (.readEvents clear) := by
  intro k p _ e
  cases e
  exact ⟨by decide, Nat.le_of_ble_eq_true rfl⟩
theorem setEventMask (masks : BitVec 24) (enables : Byte) : Statement (.setEventMask masks enables) := by
  intro k p _ e
  cases e
  exact ⟨by decide, Nat.le_of_ble_eq_true rfl⟩
theorem journalRead (count : Byte) : Statement (.journalRead count) := by
  intro k p _ e
  cases e
  exact ⟨by decide, Nat.le_of_ble_eq_true rfl⟩
theorem journalRelease (sequence : Word16) : Statement (.journalRelease sequence) := by
  intro k p _ e
  cases e
  exact ⟨by decide, Nat.le_of_ble_eq_true rfl⟩
theorem setRoomMode (mode : Byte) : Statement (.setRoomMode mode) := by
  intro k p _ e
  cases e
  exact ⟨by decide, Nat.le_of_ble_eq_true rfl⟩
theorem setClock (day minute : Word16) : Statement (.setClock day minute) := by
  intro k p _ e
  cases e
  exact ⟨by decide, Nat.le_of_ble_eq_true rfl⟩
theorem setProgram (id : Byte) (form : ProgramForm) : Statement (.setProgram id form) := by
  intro k p h e
  obtain ⟨rfl, rfl⟩ : 0x0E#8 = k ∧ id :: encodeProgram form = p := by simpa [encodeRequest] using e
  refine ⟨by decide, ?_⟩
  cases form with
  | removal => exact Nat.le_of_ble_eq_true rfl
  | washer => simp [Instr.wellFormed, ProgramForm.fits] at h; simp [encodeProgram, bytes16]; omega
  | dryer => simp [Instr.wellFormed, ProgramForm.fits] at h; simp [encodeProgram, bytes16]; omega
theorem setTariff (index : Byte) (form : TariffForm) : Statement (.setTariff index form) := by
  intro k p _ e
  cases form <;> cases e <;> exact ⟨by decide, Nat.le_of_ble_eq_true rfl⟩
theorem setBudget (budget : Word16) (percent : Byte) : Statement (.setBudget budget percent) := by
  intro k p _ e
  cases e
  exact ⟨by decide, Nat.le_of_ble_eq_true rfl⟩
theorem setLimits (limits : LimitArgs) : Statement (.setLimits limits) := by
  intro k p _ e
  cases e
  exact ⟨by decide, Nat.le_of_ble_eq_true rfl⟩
theorem commitSettings : Statement .commitSettings := by
  intro k p _ e
  cases e
  exact ⟨by decide, Nat.le_of_ble_eq_true rfl⟩
theorem commitWriteEnd : Statement .commitWriteEnd := fun _ _ _ e => nomatch e
theorem lockPrices : Statement .lockPrices := by
  intro k p _ e
  cases e
  exact ⟨by decide, Nat.le_of_ble_eq_true rfl⟩
theorem setScreenMode (mode : Byte) : Statement (.setScreenMode mode) := by
  intro k p _ e
  cases e
  exact ⟨by decide, Nat.le_of_ble_eq_true rfl⟩
theorem screenAdd (serial : Serial32) : Statement (.screenAdd serial) := by
  intro k p _ e
  cases e
  exact ⟨by decide, Nat.le_of_ble_eq_true rfl⟩
theorem screenRemove (serial : Serial32) : Statement (.screenRemove serial) := by
  intro k p _ e
  cases e
  exact ⟨by decide, Nat.le_of_ble_eq_true rfl⟩
theorem setHashBit (index : Word16) (value : Byte) : Statement (.setHashBit index value) := by
  intro k p _ e
  cases e
  exact ⟨by decide, Nat.le_of_ble_eq_true rfl⟩
theorem clearHash : Statement .clearHash := by
  intro k p _ e
  cases e
  exact ⟨by decide, Nat.le_of_ble_eq_true rfl⟩
theorem serviceOut (machine confirmedOff : Byte) : Statement (.serviceOut machine confirmedOff) := by
  intro k p _ e
  cases e
  exact ⟨by decide, Nat.le_of_ble_eq_true rfl⟩
theorem serviceReturn (machine : Byte) : Statement (.serviceReturn machine) := by
  intro k p _ e
  cases e
  exact ⟨by decide, Nat.le_of_ble_eq_true rfl⟩
theorem abortCycle (machine refund : Byte) : Statement (.abortCycle machine refund) := by
  intro k p _ e
  cases e
  exact ⟨by decide, Nat.le_of_ble_eq_true rfl⟩
theorem rediscover : Statement .rediscover := by
  intro k p _ e
  cases e
  exact ⟨by decide, Nat.le_of_ble_eq_true rfl⟩
theorem refundGrant (serial : Serial32) (amount : Word16) : Statement (.refundGrant serial amount) := by
  intro k p _ e
  cases e
  exact ⟨by decide, Nat.le_of_ble_eq_true rfl⟩
theorem reset : Statement .reset := by
  intro k p _ e
  cases e
  exact ⟨by decide, Nat.le_of_ble_eq_true rfl⟩
theorem purchase (station : Station) (msg : PurchaseMsg) : Statement (.purchase station msg) := fun _ _ _ e => nomatch e
theorem result (station : Station) (msg : ResultMsg) : Statement (.result station msg) := fun _ _ _ e => nomatch e
theorem cancel (station : Station) : Statement (.cancel station) := fun _ _ _ e => nomatch e
theorem stationMessageDiscarded (station : Station) : Statement (.stationMessageDiscarded station) :=
  fun _ _ _ e => nomatch e
theorem resultTimerExpiry (station : Station) : Statement (.resultTimerExpiry station) := fun _ _ _ e => nomatch e
theorem beacon : Statement .beacon := fun _ _ _ e => nomatch e
theorem validReport (slot : Addr) (report : SlotReport) : Statement (.validReport slot report) := fun _ _ _ e => nomatch e
theorem malformedReport (slot : Addr) : Statement (.malformedReport slot) := fun _ _ _ e => nomatch e
theorem checkError (slot : Addr) : Statement (.checkError slot) := fun _ _ _ e => nomatch e
theorem emptySlot (slot : Addr) : Statement (.emptySlot slot) := fun _ _ _ e => nomatch e
theorem periodClose : Statement .periodClose := fun _ _ _ e => nomatch e
theorem silenceNotice (machine : Addr) : Statement (.silenceNotice machine) := fun _ _ _ e => nomatch e
theorem nodeStale (machine : Addr) : Statement (.nodeStale machine) := fun _ _ _ e => nomatch e
theorem addressClash (machine : Addr) : Statement (.addressClash machine) := fun _ _ _ e => nomatch e
theorem cmdLost (machine : Addr) (cls : CommandClass) : Statement (.cmdLost machine cls) := fun _ _ _ e => nomatch e
theorem answerWindowClose : Statement .answerWindowClose := fun _ _ _ e => nomatch e
theorem firstSlotScanComplete : Statement .firstSlotScanComplete := fun _ _ _ e => nomatch e
theorem startWindowExpiry (machine : Addr) : Statement (.startWindowExpiry machine) := fun _ _ _ e => nomatch e
theorem startWaitExpiry (machine : Addr) : Statement (.startWaitExpiry machine) := fun _ _ _ e => nomatch e
theorem cycleOverrun (machine : Addr) : Statement (.cycleOverrun machine) := fun _ _ _ e => nomatch e
theorem blockTimerExpiry (machine : Addr) : Statement (.blockTimerExpiry machine) := fun _ _ _ e => nomatch e
theorem unloadTimerExpiry (machine : Addr) : Statement (.unloadTimerExpiry machine) := fun _ _ _ e => nomatch e
theorem nodeSilent (machine : Addr) : Statement (.nodeSilent machine) := fun _ _ _ e => nomatch e
theorem recoveryWindowEnd : Statement .recoveryWindowEnd := fun _ _ _ e => nomatch e
theorem demandLineChange (reading : Demand) : Statement (.demandLineChange reading) := fun _ _ _ e => nomatch e
theorem debounceTimerExpiry : Statement .debounceTimerExpiry := fun _ _ _ e => nomatch e
theorem heldTooLong (machine : Addr) : Statement (.heldTooLong machine) := fun _ _ _ e => nomatch e
theorem drawExcess (machine : Addr) : Statement (.drawExcess machine) := fun _ _ _ e => nomatch e
theorem drawExcessPersisting (machine : Addr) : Statement (.drawExcessPersisting machine) := fun _ _ _ e => nomatch e
theorem dayRollover : Statement .dayRollover := fun _ _ _ e => nomatch e
theorem powerFailure : Statement .powerFailure := fun _ _ _ e => nomatch e
theorem clockSecond : Statement .clockSecond := fun _ _ _ e => nomatch e

end Sys2Proof.Laws.Fits
end

