-- ==== Sys2Proof/Laws/Slots.lean ====
section
/-! SUPPORT. What a slot leaves to rows of their own (R30): no operation of a session, a grant or a fault touches it, and taking
the slot's outcome leaves none of it. -/
namespace Sys2Proof.Machine

set_option Elab.async false -- each lemma rests on those before it

/-- What of an address waits for a row of its own: the report in hand, a clash, an excess and a persisting one. -/
def State.owed (s : State) (m : Addr) : Option NodeReport × Bool × Bool × Bool :=
  ((s.node m).inHand, (s.node m).clashOwed, (s.grant m).excessOwed, (s.grant m).persistOwed)

theorem slotDone_iff {s : State} : s.SlotDone ↔ ∀ m, s.owed m = (none, false, false, false) := by
  simp [State.SlotDone, State.owed]

/-- What waits is the same in both states. -/
def SameOwed (s t : State) : Prop := ∀ m, t.owed m = s.owed m

theorem SameOwed.refl (s : State) : SameOwed s s := fun _ => rfl
theorem SameOwed.trans {s t u : State} (h : SameOwed s t) (k : SameOwed t u) : SameOwed s u := fun m => (k m).trans (h m)
theorem SameOwed.ite {s t u : State} {c : Prop} [Decidable c] (h : SameOwed s t) (k : SameOwed s u) :
    SameOwed s (if c then t else u) := by
  split <;> assumption
theorem SameOwed.foldl {α : Type} {f : State → α → State} (hf : ∀ s a, SameOwed s (f s a)) (l : List α) (s : State) :
    SameOwed s (l.foldl f s) := by
  induction l generalizing s with
  | nil => exact .refl s
  | cons a l ih => exact (hf s a).trans (ih _)

/-- What changes neither MBC nor FBA leaves it. -/
theorem ChangesOnly.sameOwed {ps : List Part} {s t : State} (h : ChangesOnly ps s t)
    (hp : Part.mbc ∉ ps ∧ Part.fba ∉ ps := by simp) : SameOwed s t := fun m => by
  have h1 : t.mbc = s.mbc := h .mbc hp.1
  have h2 : t.fba = s.fba := h .fba hp.2
  simp [State.owed, State.node, State.grant, h1, h2]

/-! ## The bus and the feeder -/

theorem owed_setNode (m : Addr) (n : NodeEntry) (s : State)
    (h : n.inHand = (s.node m).inHand ∧ n.clashOwed = (s.node m).clashOwed) : SameOwed s (s.setNode m n) := fun k => by
  by_cases e : m = k
  · subst e; simp [State.owed, h]
  · simp [State.owed, e]
theorem owed_mapNode (m : Addr) (f : NodeEntry → NodeEntry) (s : State)
    (h : ∀ n, (f n).inHand = n.inHand ∧ (f n).clashOwed = n.clashOwed := by intros; exact ⟨rfl, rfl⟩) :
    SameOwed s (mapNode m f s) := owed_setNode m _ s (h _)
theorem owed_setGrant (m : Addr) (e : GrantEntry) (s : State)
    (h : e.excessOwed = (s.grant m).excessOwed ∧ e.persistOwed = (s.grant m).persistOwed := by exact ⟨rfl, rfl⟩) :
    SameOwed s (s.setGrant m e) := fun k => by
  by_cases e : m = k
  · subst e; simp [State.owed, h]
  · simp [State.owed, e]
theorem owed_mapGrant (m : Addr) (f : GrantEntry → GrantEntry) (s : State)
    (h : ∀ e, (f e).excessOwed = e.excessOwed ∧ (f e).persistOwed = e.persistOwed := by intros; exact ⟨rfl, rfl⟩) :
    SameOwed s (mapGrant m f s) := owed_setGrant m _ s (h _)
theorem owed_queueCommand (m : Addr) (c : BusCommand) (o : BusOwner) (s : State) : SameOwed s (queueCommand m c o s) := by
  unfold queueCommand; split
  · exact .refl s
  · exact .ite (fun _ => rfl) (.refl s)
theorem owed_queueControl (m : Addr) (c : BusCommand) (s : State) : SameOwed s (queueControl m c s) := owed_queueCommand m c .msv s
theorem owed_queueArm (m : Addr) (s : State) : SameOwed s (queueArm m s) := by
  unfold queueArm; split
  · exact .refl s
  · exact (mapSession_changes m _ s).sameOwed.trans (owed_queueControl m _ _)
theorem owed_queueGrant (m : Addr) (l : Level) (f : Bool) (s : State) : SameOwed s (queueGrant m l f s) :=
  .ite ((owed_setGrant m _ s).trans (owed_queueCommand m _ _ _)) (.refl s)
theorem owed_changeGrant (m : Addr) (l : Level) (f : Bool) (s : State) : SameOwed s (changeGrant m l f s) :=
  (owed_mapGrant m _ s).trans (owed_queueGrant m l f _)
theorem owed_addRaise (m : Addr) (l : Level) (f : Bool) (s : State) : SameOwed s (addRaise m l f s) := fun _ => rfl
theorem owed_setRaise (m : Addr) (l : Level) (f : Bool) (s : State) : SameOwed s (setRaise m l f s) :=
  .ite (fun _ => rfl) (owed_addRaise m l f s)
theorem owed_ensureRaise (m : Addr) (l : Level) (f : Bool) (s : State) : SameOwed s (ensureRaise m l f s) :=
  .ite (.refl s) (owed_addRaise m l f s)
theorem owed_removeRaise (m : Addr) (s : State) : SameOwed s (removeRaise m s) := fun _ => rfl
theorem owed_removeStart (m : Addr) (s : State) : SameOwed s (removeStart m s) := fun _ => rfl
theorem owed_removeEntries (m : Addr) (s : State) : SameOwed s (removeEntries m s) := fun _ => rfl
theorem owed_addStart (m : Addr) (l : Level) (f : Bool) (s : State) : SameOwed s (addStart m l f s) :=
  .ite (fun _ => rfl) (fun _ => rfl)
theorem owed_startList (l : List Addr) (s : State) : SameOwed s (s.withFba { s.fba with startList := l }) := fun _ => rfl
theorem owed_enterRunning (m : Addr) (s : State) : SameOwed s (enterRunning m s) := (enterRunning_changes m s).sameOwed
theorem owed_compareWanted (m : Addr) (s : State) : SameOwed s (compareWanted m s) := by
  unfold compareWanted; dsimp only; split
  · split
    · have h : ∀ (c : Prop) [Decidable c] l f, SameOwed s (if c then s else changeGrant m l f s) :=
        fun c _ l f => .ite (.refl s) (owed_changeGrant m l f s)
      exact .ite ((h _ _ _).trans (owed_setRaise m _ _ _)) ((h _ _ _).trans (owed_removeRaise m _))
    · exact .refl s
  · exact .refl s
theorem owed_grantWasherStart (m : Addr) (d : LevelDraws) (s : State) : SameOwed s (grantWasherStart m d s) :=
  (((((owed_mapGrant m _ s).trans (owed_startList _ _)).trans (owed_removeStart m _)).trans
    (owed_queueGrant m .base true _)).trans (owed_enterRunning m _)).trans (owed_compareWanted m _)
theorem owed_grantDryerStart (m : Addr) (d : LevelDraws) (l t : Level) (s : State) : SameOwed s (grantDryerStart m d l t s) := by
  unfold grantDryerStart
  extract_lets s1 f s2 s3
  have h1 : SameOwed s s1 := owed_mapGrant m _ s
  have h3 : SameOwed s s3 := (((h1.trans (owed_startList _ _)).trans (owed_removeStart m _)).trans
    (owed_queueGrant m l false _)).trans (owed_enterRunning m _)
  exact .ite (h3.trans (owed_addRaise m t false _)) h3
theorem owed_grantHead {s t : State} (h : grantHead s = some t) : SameOwed s t := by
  unfold grantHead at h
  split at h
  · unfold grantRaise at h; dsimp only at h; split at h
    · cases h; exact (owed_removeRaise _ s).trans (owed_changeGrant _ _ _ _)
    · cases h
  · unfold grantStart at h; split at h
    · cases h
    · split at h
      · split at h
        · cases h; exact owed_grantWasherStart _ _ s
        · cases h
      · split at h
        · cases h; exact owed_grantDryerStart _ _ _ _ s
        · cases h
  · cases h
theorem owed_grantHeads (n : Nat) (s : State) : SameOwed s (grantHeads n s) := by
  induction n generalizing s with
  | zero => exact .refl s
  | succ n ih =>
    unfold grantHeads; split
    · exact .refl s
    · next t h => exact (owed_grantHead h).trans (ih t)
/-- R59: a review leaves what a slot has brought. -/
theorem owed_review (s : State) : SameOwed s (review s) :=
  SameOwed.trans (t := clearOverBudget s) (.ite (fun _ => rfl) (.refl s)) (.ite (.refl _) (owed_grantHeads _ _))
theorem owed_shedStep (u l : Level) (s : State) : SameOwed s (shedStep u l s) :=
  .foldl (fun s m => .ite ((owed_changeGrant m l _ s).trans (owed_ensureRaise m _ _ _)) (.refl s)) _ s
theorem owed_budgetCheck (s : State) : SameOwed s (budgetCheck s) := by
  have h := ((owed_shedStep .high .low s).trans (owed_shedStep .low .air _)).trans (owed_shedStep .heat .base _)
  have k : ∀ f : Fba, f.entries = (shedStep .heat .base (shedStep .low .air (shedStep .high .low s))).fba.entries →
      SameOwed s ((shedStep .heat .base (shedStep .low .air (shedStep .high .low s))).withFba f) := fun f hf m => by
    rw [← h m]; simp [State.owed, State.grant, State.node, State.withFba, hf]
  exact .ite (h.trans (owed_review _)) ((k _ rfl).trans (setEventIf_changes _ _ _).sameOwed)
theorem owed_checkOrReview (s : State) : SameOwed s (checkOrReview s) := .ite (owed_budgetCheck s) (owed_review s)
theorem owed_reviewDecrease (s : State) : SameOwed s (reviewDecrease s) := .ite (owed_review s) (owed_checkOrReview s)
theorem owed_releaseGrant (m : Addr) (s : State) : SameOwed s (releaseGrant m s) := by
  unfold releaseGrant
  extract_lets e s1 f s2
  have h2 : SameOwed s s2 := ((owed_mapGrant m _ s).trans (owed_startList _ s1)).trans (owed_removeEntries m _)
  split
  · exact (owed_removeEntries m s).trans (owed_review _)
  · exact SameOwed.trans (.ite (h2.trans (owed_queueGrant m _ false _)) h2) (owed_review _)
theorem owed_rebuildIfHeld (m : Addr) (a : Level) (f : Bool) (s : State) : SameOwed s (rebuildIfHeld m a f s) := by
  unfold rebuildIfHeld; split
  · unfold rebuildGrant
    extract_lets s1 e
    have h1 : SameOwed s s1 := owed_mapGrant m _ s
    exact SameOwed.trans (.ite (h1.trans (owed_queueGrant m _ _ _)) h1) (owed_checkOrReview _)
  · exact .refl s

/-! ## Sessions and faults -/

theorem owed_enterState (m : Addr) (t : MState) (s : State) : SameOwed s (enterState m t s) := (enterState_changes m t s).sameOwed
theorem owed_disposeSession (m : Addr) (r : Nat) (s : State) : SameOwed s (disposeSession m r s) :=
  (disposeSession_changes m r s).sameOwed
theorem owed_disarmRefund (m : Addr) (s : State) : SameOwed s (disarmRefund m s) := by
  unfold disarmRefund; split
  · exact .refl s
  · exact ((((owed_queueControl m _ s).trans (owed_removeEntries m _)).trans (owed_review _)).trans
      (owed_disposeSession m _ _)).trans (owed_enterState m _ _)
theorem owed_normalEnd (m : Addr) (t : MState) (s : State) : SameOwed s (normalEnd m t s) := by
  unfold normalEnd; split
  · exact .refl s
  · exact ((((((owed_releaseGrant m s).trans (writeFree_changes _ _).sameOwed).trans (setFaults_changes m _ _).sameOwed).trans
      (setEvent_changes _ _).sameOwed).trans (owed_disposeSession m 0 _)).trans (mapRecord_changes m _ _).sameOwed).trans
      (owed_enterState m t _)
theorem owed_abortUnstarted (m : Addr) (b : Bool) (t : MState) (s : State) : SameOwed s (abortUnstarted m b t s) :=
  ((((owed_removeEntries m s).trans (owed_review _)).trans (owed_queueControl m _ _)).trans (owed_disposeSession m _ _)).trans
    (owed_enterState m t _)
theorem owed_abortRunning (m : Addr) (b : Bool) (d : StopDest) (s : State) : SameOwed s (abortRunning m b d s) :=
  ((((owed_queueControl m _ s).trans (owed_removeEntries m _)).trans (owed_review _)).trans (owed_disposeSession m _ _)).trans
    (mapRecord_changes m _ _).sameOwed
theorem owed_backToArmed (m : Addr) (s : State) : SameOwed s (backToArmed m s) :=
  (((mapRecord_changes m _ s).sameOwed.trans (mapSession_changes m _ _).sameOwed).trans (owed_removeEntries m _)).trans
    (owed_review _)
theorem owed_abortIn (m : Addr) (v : Severity) (b : Bool) (s : State) : SameOwed s (abortIn m v b s) := by
  unfold abortIn; split
  · exact owed_abortUnstarted m b _ s
  · exact owed_abortUnstarted m b _ s
  · exact owed_backToArmed m s
  · exact owed_abortUnstarted m b _ s
  · exact owed_abortUnstarted m b _ s
  · exact owed_abortRunning m b _ s
  · exact owed_abortRunning m b _ s
  · exact (mapRecord_changes m _ s).sameOwed
  · exact (mapRecord_changes m _ s).sameOwed
  iterate 5 exact owed_enterState m _ s
  exact .refl s
theorem owed_orderAbort (m : Addr) (v : Severity) (b : Bool) (s : State) : SameOwed s (orderAbort m v b s) :=
  ((endRecovery_changes m s).sameOwed.trans (owed_abortIn m v b _)).trans (storeRefund_changes m _ _).sameOwed
theorem owed_takePrimary (m : Addr) (k : FaultKind) (p : Bool) (s : State) : SameOwed s (takePrimary m k p s) := by
  unfold takePrimary
  extract_lets session own counts r1 n escalated sev s1 ended s2 opens s3 s4
  have h2 : SameOwed s s2 := (setFaults_changes m _ s).sameOwed.trans (owed_orderAbort m _ _ s1)
  have h3 : SameOwed s s3 := .ite (h2.trans (setOpenMark_changes m _ _).sameOwed) h2
  exact ((h3.trans (writeFree_changes _ _).sameOwed).trans (setEvent_changes _ _).sameOwed).trans
    (setEventIf_changes _ _ _).sameOwed
theorem owed_takeSecondary (m : Addr) (k : FaultKind) (p : Bool) (s : State) : SameOwed s (takeSecondary m k p s) := by
  unfold takeSecondary
  extract_lets own r1 raised s1 s2 s3
  have h1 : SameOwed s s1 := (setFaults_changes m _ s).sameOwed
  have h2 : SameOwed s s2 :=
    .ite (h1.trans ((endRecovery_changes m s1).sameOwed.trans (owed_abortIn m _ _ _))) h1
  exact ((h2.trans (setEventIf_changes _ _ _).sameOwed).trans (writeFree_changes _ _).sameOwed).trans
    (setEvent_changes _ _).sameOwed
/-- R131: a fault leaves what a slot has brought. -/
theorem owed_takeFault (m : Addr) (k : FaultKind) (p : Bool) (s : State) : SameOwed s (takeFault m k p s) :=
  .ite (owed_takeSecondary m k p s) (owed_takePrimary m k p s)
theorem owed_selfAbort (m : Addr) (c : FaultCause) (s : State) : SameOwed s (selfAbort m c s) := by
  unfold selfAbort
  extract_lets f s1 ended s2 s3
  have h2 : SameOwed s s2 := (setFaults_changes m _ s).sameOwed.trans (owed_orderAbort m _ _ s1)
  have h3 : SameOwed s s3 := .ite (h2.trans (setOpenMark_changes m _ _).sameOwed) h2
  exact (h3.trans (writeFree_changes _ _).sameOwed).trans (setEvent_changes _ _).sameOwed

/-! ## Reports -/

theorem owed_askStart (m : Addr) (l : Level) (s : State) : SameOwed s (askStart m l s) := by
  unfold askStart; split
  · exact .refl s
  · split <;> exact owed_addStart m _ _ s
theorem owed_beginStarting (m : Addr) (s : State) : SameOwed s (beginStarting m s) :=
  ((mapRecord_changes m _ s).sameOwed.trans (mapSession_changes m _ _).sameOwed).trans (owed_queueControl m _ _)
theorem owed_enterStarting (m : Addr) (l : Level) (s : State) : SameOwed s (enterStarting m l s) :=
  ((owed_beginStarting m s).trans (owed_askStart m l _)).trans (owed_review _)
theorem owed_rearm (m : Addr) (s : State) : SameOwed s (rearm m s) := .ite (owed_queueArm m s) (.refl s)
theorem owed_endRecovery (m : Addr) (s : State) : SameOwed s (endRecovery m s) := (endRecovery_changes m s).sameOwed
theorem owed_resolveArmed (m : Addr) (s : State) : SameOwed s (resolveArmed m s) := (resolveArmed_changes m s).sameOwed
theorem owed_disarmIfClosed (m : Addr) (s : State) : SameOwed s (disarmIfClosed m s) := .ite (owed_disarmRefund m s) (.refl s)
theorem owed_commandUnpaid (m : Addr) (n : NodeState) (s : State) : SameOwed s (commandUnpaid m n s) := by
  unfold commandUnpaid; split
  · exact owed_queueControl m _ s
  · exact .refl s
theorem owed_resolveStarting (m : Addr) (l : Level) (s : State) : SameOwed s (resolveStarting m l s) := by
  have h := ((owed_endRecovery m s).trans (owed_beginStarting m _)).trans (owed_askStart m l _)
  exact .ite (h.trans (owed_disarmRefund m _)) (h.trans (owed_review _))
theorem owed_resolveReport (m : Addr) (r : NodeReport) (s : State) : SameOwed s (resolveReport m r s) := by
  have h0 := owed_endRecovery m s
  have hd : SameOwed s (resolveReport.disarmIfNotRunning m (endRecovery m s)) :=
    .ite h0 (h0.trans (owed_disarmIfClosed m _))
  have hn : ∀ x, SameOwed s (normalEnd m x (endRecovery m s)) := fun x => h0.trans (owed_normalEnd m x _)
  have hs : SameOwed s (selfAbort m .runLost (endRecovery m s)) := h0.trans (owed_selfAbort m _ _)
  have ha : SameOwed s (disarmIfClosed m (resolveArmed m s)) := (owed_resolveArmed m s).trans (owed_disarmIfClosed m _)
  have hq : SameOwed s (disarmIfClosed m (queueArm m (resolveArmed m s))) :=
    ((owed_resolveArmed m s).trans (owed_queueArm m _)).trans (owed_disarmIfClosed m _)
  unfold resolveReport; split
  all_goals with_reducible first
    | exact .refl s
    | exact hd
    | exact h0
    | exact hn _
    | exact hs
    | exact ha
    | exact hq
    | exact owed_resolveStarting m _ s
theorem owed_applyNodeState (m : Addr) (r : NodeReport) (s : State) : SameOwed s (applyNodeState m r s) := by
  unfold applyNodeState; split
  · exact (owed_enterState m _ s).trans (owed_commandUnpaid m _ _)
  · exact (owed_enterState m _ s).trans (owed_commandUnpaid m _ _)
  · exact owed_commandUnpaid m _ s
  · exact owed_commandUnpaid m _ s
  · exact .refl s
  · unfold armedReport; split
    all_goals with_reducible first
      | exact owed_enterStarting m _ s
      | exact owed_rearm m s
      | exact .refl s
  · have h1 : SameOwed s (rearm m (backToArmed m s)) := (owed_backToArmed m s).trans (owed_rearm m _)
    have h2 : SameOwed s (if s.fba.hasStart m then s else review (askStart m r.wanted s)) :=
      .ite (.refl s) ((owed_askStart m _ s).trans (owed_review _))
    unfold startingReport; split
    all_goals with_reducible first
      | exact owed_backToArmed m s
      | exact h1
      | exact h2
      | exact .refl s
  · unfold runningReport; split
    all_goals with_reducible first
      | exact owed_normalEnd m _ s
      | exact .refl s
  · exact (owed_commandUnpaid m _ s).trans (doorRelease_changes m _ _).sameOwed
  · exact (owed_commandUnpaid m _ s).trans (doorRelease_changes m _ _).sameOwed
  · have h1 : SameOwed s (abortingStopped m s) :=
      ((owed_releaseGrant m s).trans (mapRecord_changes m _ _).sameOwed).trans (owed_enterState m _ _)
    unfold abortingReport; split
    all_goals with_reducible first
      | exact h1
      | exact owed_queueControl m _ s
      | exact .refl s
  · exact owed_resolveReport m r s

/-! ## The end of a slot -/

/-- What waits is the same for every address but one, and of that one the report in hand and the clash. -/
def OwedBut (m : Addr) (s t : State) : Prop :=
  (∀ k, k ≠ m → t.owed k = s.owed k) ∧ (t.owed m).1 = (s.owed m).1 ∧ (t.owed m).2.1 = (s.owed m).2.1

theorem SameOwed.but {m : Addr} {s t : State} (h : SameOwed s t) : OwedBut m s t :=
  ⟨fun k _ => h k, by rw [h m], by rw [h m]⟩
theorem OwedBut.trans {m : Addr} {s t u : State} (h : OwedBut m s t) (k : OwedBut m t u) : OwedBut m s u :=
  ⟨fun n hn => (k.1 n hn).trans (h.1 n hn), k.2.1.trans h.2.1, k.2.2.trans h.2.2⟩

/-- R72: a report has FBA owe an excess of its own machine at most. -/
theorem owed_feederReport (m : Addr) (r : NodeReport) (s : State) : OwedBut m s (feederReport m r s) := by
  have h1 : OwedBut m s (mapGrant m (·.reported r) s) :=
    ⟨fun k hk => by simp [State.owed, mapGrant, State.node, Ne.symm hk], by simp [State.owed, mapGrant, State.node], by
      simp [State.owed, mapGrant, State.node]⟩
  unfold feederReport; dsimp only
  split
  · exact h1
  · split
    · exact h1.trans (((owed_rebuildIfHeld m _ _ _).trans (owed_compareWanted m _)).trans (owed_reviewDecrease _)).but
    · exact h1.trans (owed_rebuildIfHeld m _ _ _).but
    · split
      · exact h1.trans ((owed_addStart m _ _ _).trans (owed_review _)).but
      · exact h1
    · exact h1
theorem owed_finishReport (m : Addr) (r : NodeReport) (s : State) : OwedBut m s (finishReport m r s) := by
  have h1 : OwedBut m s (mapNode m (fun n => { n with kind := some r.kind }) s) := (owed_mapNode m _ s).but
  have h2 : ∀ u, OwedBut m u (sessionsReport m r u) := fun u => by
    unfold sessionsReport; dsimp only
    have h : SameOwed u (mapRecord m (·.heard r) u) := (mapRecord_changes m _ u).sameOwed
    split
    · exact ((h.trans (owed_endRecovery m _)).trans (owed_selfAbort m _ _)).but.trans (owed_feederReport m r _)
    · exact (h.trans (owed_applyNodeState m r _)).but.trans (owed_feederReport m r _)
  have h3 : ∀ u, SameOwed u (faultCode m r u) := fun u => by
    unfold faultCode; split
    · exact owed_mapNode m _ u
    · exact .ite (.refl u) ((owed_mapNode m _ u).trans (owed_takeFault m _ _ _))
  exact (h1.trans (h2 _)).trans (h3 _).but

/-- R30: once an address is finished nothing of it waits, and what waits of another address stands. -/
theorem owed_finishAddress (m : Addr) (s : State) :
    (finishAddress m s).owed m = (none, false, false, false) ∧ ∀ k, k ≠ m → (finishAddress m s).owed k = s.owed k := by
  have stale : ((staleIfDue m s).owed m).1 = none ∧ ∀ k, k ≠ m → (staleIfDue m s).owed k = s.owed k := by
    unfold staleIfDue whenDue reportStale
    split
    · split
      · next h => simp_all
      · next r h =>
        have c : ∀ u : State, ((mapNode m (fun n => { n with inHand := none }) u).owed m).1 = none ∧
            ∀ k, k ≠ m → (mapNode m (fun n => { n with inHand := none }) u).owed k = u.owed k := fun u =>
          ⟨by simp [State.owed, mapNode], fun k hk => by simp [State.owed, mapNode, State.grant, Ne.symm hk]⟩
        have f := ((owed_takeFault m .nodeStale false (mapNode m (fun n => { n with inHand := none }) s)).but (m := m)).trans
          (owed_finishReport m r _)
        exact ⟨f.2.1.trans (c s).1, fun k hk => (f.1 k hk).trans ((c s).2 k hk)⟩
    · next h => exact ⟨by simpa [State.owed] using h, fun _ _ => rfl⟩
  have excess : ∀ p u, ((excessIfDue m p u).owed m) = ((u.owed m).1, (u.owed m).2.1,
      (if p then (u.owed m).2.2.1 else false), (if p then false else (u.owed m).2.2.2)) ∧
      ∀ k, k ≠ m → (excessIfDue m p u).owed k = u.owed k := fun p u => by
    by_cases h : (if p then (u.grant m).persistOwed else (u.grant m).excessOwed) = true
    · have e : excessIfDue m p u = reportExcess m p u := if_pos h
      have f : SameOwed _ (reportExcess m p u) := owed_takeFault m .drawExcess p _
      rw [e]
      refine ⟨(f m).trans ?_, fun k hk => (f k).trans ?_⟩
      · cases p <;> simp [State.owed, mapGrant, State.node]
      · simp [State.owed, mapGrant, State.node, Ne.symm hk]
    · have e : excessIfDue m p u = u := if_neg h
      rw [e]
      refine ⟨?_, fun _ _ => rfl⟩
      cases p <;> simp_all [State.owed]
  have clash : ∀ u, ((clashIfDue m u).owed m) = ((u.owed m).1, false, (u.owed m).2.2) ∧
      ∀ k, k ≠ m → (clashIfDue m u).owed k = u.owed k := fun u => by
    unfold clashIfDue whenDue takeClash
    split
    · next h =>
      have f := (setEvent_changes .addressClash (mapNode m NodeEntry.clashed u)).sameOwed.trans
        (owed_takeFault m .addressClash false _)
      refine ⟨(f m).trans ?_, fun k hk => (f k).trans ?_⟩
      · simp [State.owed, mapNode, State.grant, NodeEntry.clashed]
      · simp [State.owed, mapNode, State.grant, Ne.symm hk]
    · next h => exact ⟨by simp_all [State.owed], fun _ _ => rfl⟩
  unfold finishAddress
  refine ⟨?_, fun k hk => ?_⟩
  · simp [(clash _).1, (excess true _).1, (excess false _).1, stale.1]
  · rw [(clash _).2 k hk, (excess true _).2 k hk, (excess false _).2 k hk, stale.2 k hk]

/-- R30: taking a slot's outcome leaves nothing of it to take. -/
theorem finishSlot_done (s : State) : (finishSlot s).SlotDone := by
  have key : ∀ (l : List Addr) (u : State) (k : Addr), k ∈ l ∨ u.owed k = (none, false, false, false) →
      (l.foldl (fun s m => finishAddress m s) u).owed k = (none, false, false, false) := fun l => by
    induction l with
    | nil => intro u k h; simpa using h
    | cons m l ih =>
      intro u k h
      refine ih (finishAddress m u) k ?_
      by_cases e : k = m
      · subst e; exact .inr (owed_finishAddress k u).1
      · rcases h with h | h
        · exact .inl (by simpa [e] using h)
        · exact .inr (((owed_finishAddress m u).2 k e).trans h)
  exact slotDone_iff.mpr fun k => key allMachines s k (.inl (by revert k; decide))

end Sys2Proof.Machine
end

