-- ==== Sys2Proof/Tests/Slice0.lean ====
section
/-! SUPPORT. Named tests: ill-formed commands, the spec's worked figures, words on the wires, single commands on a small room, and a
witness for every statement that has hypotheses. -/
namespace Sys2Proof.Tests
open Sys2Proof.Machine

set_option Elab.async false -- many small evaluations

/-! ## A small room -/

/-- A wash session that has not begun to run, with its timers run out. -/
def wash : Session :=
  { payer := 2417350, program := 1, figures := .washer 32 10 90, option := some .warm, total := 450, value := 450, consumed := 0
    minutes := none, purchases := 1, runClock := 0, guardTimer := 0, blockTimer := 0, startWindow := 0, startWait := 0
    startTime := none, ending := false, armAcked := true }

/-- A dryer session in its run, with its block timer run out. -/
def dry : Session :=
  { payer := 3060114, program := 2, figures := .dryer 100 10 60 120, option := none, total := 401, value := 401, consumed := 0
    minutes := some 40, purchases := 1, runClock := 0, guardTimer := 0, blockTimer := 0, startWindow := 0, startWait := 0
    startTime := none, ending := false, armAcked := true }

/-- A record in a state. -/
def inState (x : MState) (k : Kind) (z : Option Session) : MachineRecord :=
  { MachineRecord.cleared with state := x, kind := some k, door := some .closed, session := z }

/-- A node that has been heard. -/
def heardNode (k : Kind) : NodeEntry := { NodeEntry.afterReset true (some k) with heard := true }

/-- An order of a new wash on machine 9. -/
def order : Order :=
  { number := 7, ptype := .new, serial := 1000000, balanceRead := 1000, counterRead := 5, machine := 8, program := 1
    option := some .cold, minutes := none, tariff := 100, charge := 300, newBalance := 700, newCounter := 6, folded := none
    reversal := none, resolution := none, timer := 0, figures := .washer 32 10 90 }

/-- A table of 24 with some entries given. -/
def table {α : Type} (d : α) (l : List (Addr × α)) : PerMachine α := l.foldl (fun v x => v.put x.1 x.2) (Vector.replicate 24 d)

/-- A room: machine 1 IDLE, 2 a RUNNING dryer, 3 ARMED, 4 STARTING, 5 ABORTING, 6 OUT_OF_SERVICE, 7 FAULTED, 8 DONE, 9 RESERVED by
station A, 10 OFFLINE, 11 RECOVERING, 12 a RUNNING washer; the others ABSENT. -/
def room : State :=
  { State.reset with
    msv :=
      { records := table .cleared
          [(0, inState .idle .washer none), (1, inState .running .dryer (some dry)), (2, inState .armed .washer (some wash)),
            (3, inState .starting .washer (some wash)),
            (4, { inState .aborting .washer none with stopDest := some .faulted }), (5, inState .outOfService .washer none),
            (6, inState .faulted .washer none), (7, inState .done .washer none),
            (8, { inState .reserved .washer none with reserving := some .a }), (9, inState .offline .washer none),
            (10, { inState .recovering .dryer (some dry) with retained := some .running }),
            (11, inState .running .washer (some wash))]
        recoveryWindow := some 0 }
    mbc :=
      { State.reset.mbc with
        nodes := table (heardNode .washer) [(23, .afterReset false none)]
        queue := [], discovery := .idle, scanComplete := true }
    fba :=
      { State.reset.fba with
        entries := table .empty
          [(1, { GrantEntry.empty with granted := some .low, draws := some (.dryer 10 60 120), draw := 60 }),
            (11, { GrantEntry.empty with granted := some .base, fill := true, draws := some (.washer 10 90), draw := 10 })]
        startList := [1, 11]
        raises := [{ machine := 11, level := .heat, fill := true, arrival := 3, timer := 0 }]
        starts := [{ machine := 3, level := .base, fill := true, arrival := 2, timer := 0 }] }
    pay := { State.reset.pay with a := { Exchange.cleared with orderCounter := 7, order := some order } }
    jrn := { Jrn.cleared with
      records := [⟨9, none, { kind := .mode, machine := 0, detail := .mode .quiet }⟩,
        ⟨10, none, { kind := .mode, machine := 0, detail := .mode .opened }⟩]
      writePos := 2, reservations := 14, sequence := 11 }
    evu := .cleared
    sst :=
      { State.reset.sst with
        working := { Settings.factory with
          programs := ((Vector.replicate 16 none : Vector (Option Program) 16).set 0
            (some ⟨.washer 300 100 150 32 10 90, []⟩)).set 1 (some ⟨.dryer 100 10 60 120, []⟩) } } }

/-- What the next state of a command holds. -/
def after (c : Instr) (s : State) : State :=
  match exec c s with
  | .next t => t
  | _ => s

/-- The reply that a command leaves in the buffer: its status, and its data. -/
def replied (c : Instr) (s : State) : Option (Status × List Byte) :=
  match (after c s).hli.buffer with
  | some (.reply r _) => some (r.status, r.data)
  | _ => none

/-! ## Ill-formed commands -/

theorem test_refuses_long_frame : Instr.wellFormed (.goodFrame 1#8 (List.replicate 251 0#8)) = false := by decide +kernel
theorem test_refuses_long_name :
    Instr.wellFormed (.setProgram 1#8 (.dryer 0#16 0#16 0#16 0#16 (List.replicate 240 65#8))) = false := by
  decide +kernel
theorem test_refuses_unlisted_option : Instr.wellFormed (.purchase .a ⟨1#32, 0#16, 0#24, 0#16, 1#8, 1#8, 4#8, 0#8⟩) = false := by
  decide
theorem test_refuses_torn_with_counter : Instr.wellFormed (.result .a ⟨1#8, 1#8, some 2#16⟩) = false := by decide
theorem test_refuses_other_address : Instr.wellFormed (.validReport 0 ⟨2#8, 0#8, 0#8, 0#8, 0#8, 0#8, 0#8, 0#8, 0#8⟩) = false := by
  decide
theorem test_refuses_washer_high : Instr.wellFormed (.validReport 0 ⟨1#8, 0#8, 0#8, 2#8, 0#8, 0#8, 0#8, 0#8, 0#8⟩) = false := by
  decide
theorem test_refuses_fault_without_code : Instr.wellFormed (.validReport 0 ⟨1#8, 6#8, 0#8, 0#8, 0#8, 0#8, 0#8, 0#8, 0#8⟩) = false := by
  decide

/-! ## The spec's worked figures -/

/-- R114: its table of serials. -/
theorem test_hash_index_table : [1000000, 2417350, 3060114, 4294967295].map hashIndex = [484, 320, 245, 28] := by decide
/-- R99: its table of minutes, with bands at 360, 1,020 and 1,320. -/
theorem test_tariff_table :
    [0, 359, 360, 1019, 1100, 1439].map (tariffPercent [⟨1020, 120⟩, ⟨360, 100⟩, ⟨1320, 90⟩] true) = [90, 90, 100, 100, 120, 90] := by
  decide
/-- R100: the largest wash is clamped to 9,999. -/
theorem test_wash_charge_clamped : washCharge (washGross 5000 2000 2000 .hot) 250 = 9999 := by decide
/-- R102: a rate of 0 sells a first purchase at 1 cu and a top-up at 0. -/
theorem test_dryer_charge_floor : (dryerCharge 0 30 100 true, dryerCharge 0 30 100 false) = (1, 0) := by decide
/-- R109: below the grace all is refunded, at planned nothing. -/
theorem test_washer_refund_ends : (washerRefund 450 32 3 179, washerRefund 450 32 3 1920) = (450, 0) := by decide
/-- R52: 1,600 dA at 60% gives 960 dA, and 1,000 dA at 33% gives 330 dA. -/
theorem test_effective_budget : (1600 * 60 / 100, 1000 * 33 / 100) = (960, 330) ∧ State.reset.effectiveBudget = 1600 := by decide
/-- Section 11.4: a journal record takes 33 bytes. -/
theorem test_journal_record_width :
    (JournalRecord.bytes ⟨0, some ⟨1, 2⟩, { kind := .sale, machine := 1, serial := some 5, amount := some 3 }⟩).length = 33 := by decide

/-! ## Words on the wires (R31, R75, R183, R187; section 11.4) -/

theorem test_reads_set_clock : decodeRequest 0x0D#8 [0x01#8, 0x02#8, 0x05#8, 0xA0#8] = some (.setClock 0x0102#16 0x05A0#16) := by decide
theorem test_reads_tariff_removal : decodeRequest 0x0F#8 [6#8, 0#8] = some (.setTariff 6#8 .removal) := by decide
theorem test_reads_grant :
    decodeRequest 0x1D#8 [0x00#8, 0x0F#8, 0x42#8, 0x40#8, 0x00#8, 0x64#8] = some (.refundGrant 1000000#32 100#16) := by decide
theorem test_refuses_wrong_length : decodeRequest 0x02#8 [1#8, 2#8] = none := by decide
theorem test_refuses_unknown_kind : decodeRequest 0x1F#8 [] = none := by decide
theorem test_reads_report :
    decodeReport 1 ⟨2#8, 3#8, 0b0011#8, 1#8, 2#8, 77#8, 5#8, 6#8, 0#8⟩ =
      some { state := .nRun, door := .opened, kind := .dryer, actual := .low, actualFill := false, wanted := .high
             wantedFill := false, keepAlive := 77, ctlTag := 5, lvlTag := 6, fault := none } := by decide
theorem test_empty_slot_read : slotCommand 4 [] = .emptySlot 4 := by decide
theorem test_station_cancel_read : stationCommand .b 3#8 [] = .cancel .b := by decide
theorem test_station_unknown_kind : stationCommand .b 9#8 [] = .stationMessageDiscarded .b := by decide
theorem test_frame_gap_read : receiveBytes none [⟨0xA5#8, false⟩, ⟨0#8, false⟩, ⟨1#8, true⟩] = [.frameGap] := by decide
theorem test_length_251_is_bad : receiveBytes none [⟨0xA5#8, false⟩, ⟨251#8, false⟩] = [.badFrame] := by decide
theorem test_no_word_spells_a_command : decodeTableWord 32 5 = none := by decide

/-! ## Reset -/

/-- R180: State.reset is what the power-on cold reset leaves whose retained check fails. -/
theorem test_reset_is_power_on : (after (.coldReset false false true false) State.reset == State.reset) = true := by
  decide +kernel

/-! ## Rooms that differ from the room in one respect -/

/-- The room with no exchange ORDERED. -/
def calm : State := { room with pay := State.reset.pay }
/-- The room with a request in the buffer. -/
def asked (i : Instr) : State := { room with hli := { room.hli with buffer := some (.request i) } }
/-- The room without power. -/
def dark : State := { room with phase := .off }
/-- The room with one machine's record given. -/
def withRecord (m : Addr) (r : MachineRecord) : State := room.setRecord m r
/-- The room with one node given. -/
def withNode (m : Addr) (n : NodeEntry) : State := room.setNode m n
/-- The room in a room mode. -/
def inMode (x : RoomMode) : State := { room with sst := { room.sst with roomMode := x } }
/-- The room with a day on its clock. -/
def onDay (c : Clock) : State := { room with sst := { room.sst with clock := some c } }
/-- The room with the price lock set over its prices. -/
def locked : State := { room with sst := { room.sst with lock := true, lockCode := some room.sst.working.priceCode } }
/-- The room with the commit write in progress. -/
def writing : State := { room with sst := { room.sst with commit := some room.sst.working } }
/-- The room with a journal that has no free slot. -/
def fullJournal : State := { room with jrn := { room.jrn with reservations := 126 } }
/-- The room with refund credit entries. -/
def withCredits (l : List RefundEntry) : State := { room with cru := { room.cru with refunds := l } }
/-- A PURCHASE of a card with the largest balance and the largest counter that may still be raised. -/
def cardMsg (machine program option : Byte) : PurchaseMsg := ⟨1000000#32, 0#16, 99999#24, 65534#16, machine, program, option, 0#8⟩
/-- A fault open on a machine. -/
def openFault (sev : Severity) : FaultRecord :=
  { FaultRecord.cleared with
    openMark := true
    current := some { kind := some .noFill, cause := .fault, severity := sev, escalated := false, stamp := none, state := .running
                      payer := none, refund := none, secondary := none } }
/-- A credit of a card. -/
def credit (serial : Nat) (created : Option Nat) : RefundEntry := ⟨serial, 99990, created, false, none, 3⟩
/-- A card's pending debit, as the order of the room leaves it where credit was folded. -/
def pend (serial : Nat) : PendingEntry :=
  { serial := serial, counterRead := 5, balanceRead := 1000, targetBalance := 700, targetCounter := 6, amount := 300
    reversal := 9, folded := 50, machine := 8, day := none }
/-- The room with card tables, an order at station A or none there, and 60 slots reserved. -/
def withBooks (refunds : List RefundEntry) (pendings : List PendingEntry) (o : Option Order) : State :=
  { room with
    pay := { room.pay with a := { room.pay.a with order := o } }
    cru := ⟨refunds, pendings⟩, jrn := { room.jrn with reservations := 60 } }
/-- Every request is served in the room. -/
theorem serves (i : Instr) : room.Serves i := ⟨rfl, .inl rfl⟩

/-- The room with an admission queue and a budget. -/
def queuing (raises starts : List AdmEntry) (beff : Nat) : State :=
  { room with fba := { room.fba with raises := raises, starts := starts, beff := beff } }
/-- An entry in the admission queue. -/
def entry (m : Addr) (l : Level) (fill : Bool) : AdmEntry := { machine := m, level := l, fill := fill, arrival := 3, timer := 0 }

/-! ## Reports -/

/-- A report of a node with the keep-alive count 9 and the tags 1 and 2. -/
def report (m : Addr) (state flags actual wanted fault : Byte) : SlotReport :=
  ⟨BitVec.ofNat 8 (addrNumber m), state, flags, actual, wanted, 9#8, 1#8, 2#8, fault⟩
/-- A report is taken to its end at once, and has a property. -/
def takes (s : State) (m : Addr) (rep : SlotReport) (p : NodeReport → Bool) : Bool :=
  s.phase == .running && decide s.SlotDone && (decodeReport m rep).any fun r =>
    !((s.node m).lastKeep == some r.keepAlive && decide (2 ≤ (s.node m).staleRun)) && p r
/-- The premise on the report, in the statements on valid reports. -/
def Taken (s : State) (m : Addr) (rep : SlotReport) (p : NodeReport → Bool) : Prop :=
  ∃ r, ReportTaken s m rep r ∧ p r = true
theorem report_taken {s : State} {m : Addr} {rep : SlotReport} {p : NodeReport → Bool} (h : takes s m rep p = true) :
    Taken s m rep p := by
  simp only [takes, Bool.and_eq_true, beq_iff_eq, decide_eq_true_eq, Option.any_eq_true, Bool.not_eq_true'] at h
  obtain ⟨⟨h1, h2⟩, r, h3, h4, h5⟩ := h
  exact ⟨r, ⟨h1, h3, h2, by simpa using h4⟩, h5⟩

/-! ## The books, evaluated -/

/-- One exchange's part in the books. -/
def exchangeReady (s : State) (o : Order) : Bool :=
  (o.resolution.isSome == s.cru.pendings.any (·.serial == o.serial)) &&
    (o.back == 0 || s.cru.refunds.any (·.serial == o.serial))
/-- `State.BooksReady`, evaluated. -/
def booksReady (s : State) : Bool :=
  (s.pay.a.order.all fun x => s.pay.b.order.all fun y => x.serial != y.serial) &&
  decide (s.cru.pendings.length ≤ 8) && decide (s.cru.pendings.map (·.serial)).Nodup &&
  (s.pay.a.order.all (exchangeReady s) && s.pay.b.order.all (exchangeReady s)) &&
  decide (s.slotsOwed ≤ s.jrn.reservations) && decide (s.cru.refunds.length ≤ 32) &&
  decide (s.cru.refunds.map (·.serial)).Nodup
theorem exchange_ready {s : State} {o : Order} (h : exchangeReady s o = true) :
    (o.resolution ≠ none ↔ ∃ p ∈ s.cru.pendings, p.serial = o.serial) ∧
      (o.back ≠ 0 → ∃ e ∈ s.cru.refunds, e.serial = o.serial) := by
  simp only [exchangeReady, Bool.and_eq_true, beq_iff_eq, Bool.or_eq_true, List.any_eq_true] at h
  refine ⟨?_, fun k => (h.2.resolve_left k)⟩
  rw [← Option.isSome_iff_ne_none, h.1]
  simp [List.any_eq_true]
theorem books_ready {s : State} (h : booksReady s = true) : s.BooksReady := by
  simp only [booksReady, Bool.and_eq_true, decide_eq_true_eq] at h
  obtain ⟨⟨⟨⟨⟨⟨hc, hp⟩, hn⟩, ha, hb⟩, hj⟩, hl⟩, hd⟩ := h
  have key : ∀ st o, (s.exchange st).order = some o → exchangeReady s o = true := by
    intro st o ho
    cases st
    · simpa [show s.pay.a.order = some o from ho] using ha
    · simpa [show s.pay.b.order = some o from ho] using hb
  refine ⟨⟨fun x y hx hy => ?_, hp, hn, fun st o ho => (exchange_ready (key st o ho)).1, hj⟩, ⟨hl, hd⟩,
    fun st o ho => (exchange_ready (key st o ho)).2⟩
  simpa [hx, hy] using hc

/-- Checks 1 to 7 on a PURCHASE, evaluated. -/
def cardPasses (st : Station) (msg : PurchaseMsg) (s : State) : Bool :=
  s.mbc.scanComplete && s.sst.roomMode == .opened && !s.sst.priceMismatch && !s.pay.halted && decide (3 ≤ s.jrn.free) &&
  msg.serial != 0#32 && decide (msg.issuer.toNat = s.sst.working.limits.issuer) && decide (msg.balance.toNat ≤ 99999) &&
  msg.counter.toNat != 65535 && ((s.exchange (otherStation st)).order.all fun o => o.serial != msg.serial.toNat) &&
  s.sst.working.screen.passes msg.serial.toNat
theorem card_passes {st : Station} {msg : PurchaseMsg} {s : State} (h : cardPasses st msg s = true) : CardTakes st msg s := by
  simp only [cardPasses, Bool.and_eq_true, beq_iff_eq, Bool.not_eq_true', decide_eq_true_eq, bne_iff_ne, ne_eq] at h
  obtain ⟨⟨⟨⟨⟨⟨⟨⟨⟨⟨h1, h2⟩, h3⟩, h4⟩, h5⟩, h6⟩, h7⟩, h8⟩, h9⟩, h10⟩, h11⟩ := h
  exact ⟨⟨⟨h1, .inl h2⟩, h3, h4, h5⟩, ⟨h6, h7, h8⟩, h9, fun o ho => by simpa [ho] using h10, h11⟩

/-! ## Witnesses: commands, resets and power -/

theorem witness_StepTakesTheFront :
    (room.push .beacon).pending = .beacon :: [] ∧ (State.reset).pending = [] := ⟨rfl, rfl⟩
/-- Four machines with a session hold fill, one more than the limit of the settings loaded. -/
def overfull : State :=
  [2, 3, 4].foldl (fun s m => s.setGrant m { GrantEntry.empty with granted := some .base, fill := true }) room
theorem witness_ColdResetClearsRetained : room.phase = .running ∧ room.SlotDone ∧ dark.phase ≠ .running := by decide +kernel
theorem witness_ColdResetKeepsRetained :
    (calm.SlotDone ∧ room.SlotDone ∧ overfull.SlotDone ∧ calm.pay.a.order = none ∧ calm.pay.b.order = none) ∧
      room.BooksReady ∧ room.pay.a.order = some order ∧
      overfull.fillsKept Settings.factory.limits.fillSlots = [2, 3, 4] ∧ overfull.keepsGrant 0 = false ∧
      overfull.keepsGrant 11 = true ∧ (overfull.grant 11).granted = some .base ∧ (overfull.grant 11).fill = true ∧
      (overfull.node 11).known = true :=
  ⟨by decide +kernel, books_ready (by decide +kernel), rfl, by decide +kernel⟩
theorem witness_WarmResetBegins :
    room.Serves .reset ∧ (asked .reset).Serves .reset ∧ room.phase = .running ∧ room.SlotDone ∧
      ((after .reset room).phase = .running ∧ (after .reset room).SlotDone) ∧
      (∃ r, (after .reset room).hli.buffer = some (.reply r true)) ∧ (after .resetInputAsserted room).phase = .warmReset true :=
  ⟨serves _, ⟨rfl, .inr rfl⟩, rfl, by decide +kernel, by decide +kernel, ⟨_, rfl⟩, by decide +kernel⟩
/-- Machine 5 is ABORTING with its node known; an order stands at station A, or none; the journal has no slot left, or two. -/
theorem witness_WarmResetEnds :
    let s := after .resetInputAsserted room
    let c := after .resetInputAsserted calm
    s.phase = .warmReset true ∧ s.BooksReady ∧ s.pay.a.order = some order ∧
      (c.phase = .warmReset true ∧ c.pay.a.order = none ∧ c.pay.b.order = none ∧ (c.record 4).state = .aborting ∧
        (c.node 4).known = true) ∧
      (let f := after (.warmResetEnd true) (after .resetInputAsserted { calm with jrn := fullJournal.jrn })
       f.jrn.free = 0) ∧
      (let f := after (.warmResetEnd true)
        (after .resetInputAsserted { calm with jrn := { calm.jrn with reservations := 124 } })
       f.jrn.free = 2) ∧ room.phase = .running :=
  ⟨by decide +kernel, books_ready (by decide +kernel), by decide +kernel⟩
theorem witness_NothingActsOutsideRunning : dark.phase ≠ .running ∧ dark.phase = .off ∧
    (room.phase = .running ∧ room.SlotDone) ∧
    (after .resetInputAsserted room).phase ≠ .running := by
  decide +kernel

/-! ## Witnesses: the host link -/

/-- Kinds 0Dh and 19h stand beside those of the settings requests, 0Eh and 18h among them. -/
theorem witness_FramesTaken :
    (room.phase = .running ∧ (List.replicate 250 0#8).length ≤ 250 ∧ room.hli.buffer = none ∧
      decodeRequest 0x0B#8 [0#8, 9#8] = some (.journalRelease 9#16) ∧ decodeRequest 0x0B#8 (List.replicate 250 0#8) = none ∧
      (0x0B#8).toNat < 14 ∧ decodeRequest 0x19#8 [] = none ∧ 24 < (0x19#8).toNat ∧
      decodeRequest 0x0E#8 [] = none ∧ 14 ≤ (0x0E#8).toNat ∧ decodeRequest 0x18#8 [1#8] = none ∧ (0x18#8).toNat ≤ 24 ∧
      decodeRequest 0x0E#8 [1#8, 3#8] = none ∧ 2 < (3#8).toNat ∧ decodeRequest 0x0F#8 [1#8, 2#8, 0#8] = none ∧
      1 < (2#8).toNat ∧ writing.sst.commit ≠ none ∧ writing.hli.buffer = none ∧ room.sst.commit = none ∧
      (asked .rediscover).hli.buffer ≠ none) ∧
    (∃ r, (after .badFrame room).hli.buffer = some (.reply r false)) ∧ (asked .reset).hli.buffer = some (.request .reset) :=
  ⟨by decide +kernel, ⟨_, rfl⟩, rfl⟩
/-- R186: the 24 items of GET NODES take one page, the 23 items of GET STATUS and its head one; page 1 is beyond. -/
theorem witness_PagedRequests :
    room.Serves (.getNodes (some 1#8)) ∧ Paged room (.getNodes (some 1#8)) room.mbc.items 0x83#8 (some 1#8) ∧
      Paged room (.getCredits none) room.creditItems 0x86#8 none ∧
      ((paginate [] room.mbc.items)[0]?.isSome = true ∧ (Option.map BitVec.toNat (some 0#8) = some 0) ∧
        (paginate [] room.creditItems).length = 1 ∧ ∀ x ∈ [List.replicate 247 0#8, [1#8]], x.length ≤ 247) :=
  ⟨serves _, .inr (.inl ⟨rfl, rfl, rfl⟩), .inr (.inr (.inr (.inl ⟨rfl, rfl, rfl⟩))), by decide +kernel⟩
theorem witness_MachineAndJournalReads :
    (∀ i, room.Serves i) ∧ addrNumber 23 = (24#8).toNat ∧ addrNumber 0 = (1#8).toNat ∧ 24 < (25#8).toNat ∧
      (0#8).toNat < 1 ∧ 4 < (5#8).toNat := ⟨serves, by decide⟩

/-! ## Witnesses: events, journal, room mode, clock -/

theorem witness_ReadEventsGivesImage :
    room.Serves (.readEvents 1#8) ∧ room.Serves (.readEvents 2#8) ∧ 1 < (2#8).toNat := ⟨serves _, serves _, by decide⟩
theorem witness_SetEventMaskReplacesAll :
    room.Serves (.setEventMask 0x7FFFF#24 3#8) ∧ (0x7FFFF#24).toNat < 2 ^ 19 ∧ (3#8).toNat < 4 ∧ 2 ^ 19 ≤ (0x80000#24).toNat ∧
      4 ≤ (4#8).toNat ∧ room.Serves (.readEvents 1#8) ∧ (1#8).toNat ≤ 1 := ⟨serves _, by decide, by decide, by decide, by decide, serves _, by decide⟩
/-- Number 10 names the newer of the two records, number 11 none. -/
theorem witness_JournalReleaseFrees :
    room.Serves (.journalRelease 10#16) ∧
      (∃ older r newer, room.jrn.records = older ++ r :: newer ∧ r.sequence = (10#16).toNat ∧
        (∀ x ∈ older, x.sequence ≠ (10#16).toNat)) ∧
      ∀ x ∈ room.jrn.records, x.sequence ≠ (11#16).toNat :=
  ⟨serves _, ⟨[_], _, [], rfl, rfl, by decide⟩, by decide⟩
/-- Machine 3 is ARMED and machine 4 STARTING, with a START entry. -/
theorem witness_RoomModeChanges :
    (∀ i, room.Serves i) ∧ RoomMode.quiet ≠ room.sst.roomMode ∧ RoomMode.opened = room.sst.roomMode ∧
      room.sst.roomMode ≠ .closed ∧ 2 < (3#8).toNat ∧ RoomMode.quiet.code = (1#8).toNat ∧ room.unstarted = [2, 3] ∧
      ((room.record 3).session = some wash ∧ 0 < wash.total ∧ (room.node 2).known = true) ∧
      (∀ m, (room.record m).state = .armed ∨ (room.record m).state = .starting → (room.record m).session ≠ none) ∧
      (∀ e ∈ room.fba.starts, (room.record e.machine).state = .starting) ∧ (room.record 2).state = .armed :=
  ⟨serves, nofun, rfl, nofun, by decide +kernel⟩
theorem witness_ClockSetRolledAndMoved :
    let s := onDay ⟨65535, 0, 0, true⟩
    let t := withCredits [credit 5 (some 0), credit 6 none]
    s.RefundsFit ∧ t.Serves (.setClock 30#16 1440#16) ∧ t.RefundsFit ∧
      (s.phase = .running ∧ s.sst.clock = some ⟨65535, 0, 0, true⟩ ∧ s.cru.refunds.length ≤ s.jrn.reservations ∧
        t.cru.refunds.length ≤ t.jrn.reservations ∧ room.sst.clock.any (·.rollover) = false ∧
        (onDay ⟨65535, 1439, 59, true⟩).sst.clock = some ⟨65535, 1439, 59, true⟩ ∧
        (room.record 1).session = some dry ∧ (room.record 1).state = .running ∧ (room.record 2).session = some wash) :=
  ⟨⟨by decide, by decide⟩, ⟨rfl, .inl rfl⟩, ⟨by decide, by decide⟩, by decide +kernel⟩

/-! ## Witnesses: settings -/

theorem witness_PriceEdits :
    (∀ i, room.Serves i) ∧ (∀ i, locked.Serves i) ∧
      (room.sst.commit = none ∧ 16 < (17#8).toNat ∧ (15 : Fin 16).val + 1 = (16#8).toNat ∧ room.sst.lock = false ∧
        locked.sst.lock = true ∧
        priceFields (ProgramForm.held .removal) ≠ priceFields locked.sst.working.programs[(0 : Fin 16)] ∧
        priceFields (ProgramForm.held .removal) = priceFields locked.sst.working.programs[(15 : Fin 16)] ∧
        (ProgramForm.held (.washer 9#16 0#16 0#16 32#8 1#16 2#16 [])).isSome = true ∧
        ProgramForm.held .removal = none ∧ room.sst.working.programs[(15 : Fin 16)] = none ∧
        room.sst.working.programs[(0 : Fin 16)] ≠ none ∧
        6 < (7#8).toNat ∧ (5 : Fin 6).val + 1 = (6#8).toNat) :=
  ⟨serves, fun _ => ⟨rfl, .inl rfl⟩, by decide +kernel⟩
/-- Machine 12 alone holds a fill slot in the room, so a limit of 1 is taken; where machine 9 fills too, it is not. -/
theorem witness_BudgetAndLimitsEdits :
    room.Serves (.setBudget 99#16 29#8) ∧
      (room.sst.commit = none ∧ max 100 (min 8000 (99#16).toNat) ≠ room.sst.working.budget ∧
        max 100 (min 8000 (1600#16).toNat) = room.sst.working.budget ∧
        max 30 (min 100 (60#8).toNat) = room.sst.working.shed ∧
        room.fba.fillCount ≤ (LimitArgs.held ⟨0#8, 10#8, 20#8, 30#8, 15#8, 3#8, 3#8, 10#8, 90#8, 30#8, 0#16⟩).fillSlots ∧
        (LimitArgs.held ⟨0#8, 10#8, 20#8, 30#8, 15#8, 3#8, 3#8, 10#8, 90#8, 30#8, 0#16⟩).fillSlots <
          (room.setGrant 8 { GrantEntry.empty with granted := some .base, fill := true }).fba.fillCount) :=
  ⟨serves _, by decide +kernel⟩
theorem witness_CommitAndLock :
    writing.Serves .clearHash ∧ SettingsRequest .clearHash 0x98#8 ∧ (∀ i, room.Serves i) ∧ (∀ i, locked.Serves i) ∧
      (writing.sst.commit ≠ none ∧ room.sst.commit = none ∧ writing.phase = .running ∧ room.sst.lock = false ∧
        locked.sst.lock = true ∧ locked.sst.commit = none) :=
  ⟨⟨rfl, .inl rfl⟩, rfl, serves, fun _ => ⟨rfl, .inl rfl⟩, by decide +kernel⟩
/-- The room with sixteen serials on its perfect list. -/
def listed : State :=
  { room with sst := { room.sst with working := { room.sst.working with
      screen := { room.sst.working.screen with list := List.range' 1 16 } } } }
theorem witness_ScreenEdits :
    (∀ i, calm.Serves i) ∧ (∀ i, listed.Serves i) ∧ room.pay.a.order ≠ none ∧
      (2 < (3#8).toNat ∧ ScreenMode.allow.code = (2#8).toNat ∧ calm.pay.a.order = none ∧ calm.pay.b.order = none ∧
        17#32 ≠ 0#32 ∧ (17#32).toNat ∉ listed.sst.working.screen.list ∧ 16 ≤ listed.sst.working.screen.list.length ∧
        (16#32).toNat ∈ listed.sst.working.screen.list ∧ room.sst.working.screen.list.length < 16 ∧
        ScreenMode.allow ≠ calm.sst.working.screen.mode ∧ ScreenMode.opened = calm.sst.working.screen.mode ∧
        ((1#8 : Byte) == 1#8) ≠ calm.sst.working.screen.hash.getLsbD (511#16).toNat ∧
        ((0#8 : Byte) == 1#8) = calm.sst.working.screen.hash.getLsbD (511#16).toNat ∧
        (511#16).toNat ≤ 511 ∧ (1#8).toNat ≤ 1 ∧ 511 < (512#16).toNat ∧ 1 < (2#8).toNat) :=
  ⟨fun _ => ⟨rfl, .inl rfl⟩, fun _ => ⟨rfl, .inl rfl⟩, nofun, by decide +kernel⟩

/-! ## Witnesses: requests on machines, discovery and grants -/

/-- Each row of the tables of R142 and R145 that a record's state makes, with sessions found ARMED, STARTING, RUNNING and
RECOVERING. -/
theorem room_rows :
    (room.record 8).state = .reserved ∧ (room.record 23).state = .absent ∧ (room.record 5).state = .outOfService ∧
      (room.record 0).state = .idle ∧ (room.record 7).state = .done ∧ (room.record 6).state = .faulted ∧
      (room.record 9).state = .offline ∧ (room.record 4).state = .aborting ∧ (room.record 4).silent = false ∧
      (room.record 1).session = some dry ∧ (room.record 2).session = some wash ∧ (room.record 3).session = some wash ∧
      (room.record 10).session = some dry ∧ (room.record 10).state = .recovering ∧ (room.record 0).session = none ∧
      (room.node 1).known = true := by
  decide +kernel
theorem rows_stand :
    (room.record 1).standsIn .running ∧ (room.record 2).standsIn .armed ∧ (room.record 3).standsIn .starting ∧
      (room.record 10).standsIn .running :=
  ⟨.inl (by decide +kernel), .inl (by decide +kernel), .inl (by decide +kernel), .inr (by decide +kernel)⟩
/-- The room with one machine silent. -/
def silentAt (m : Addr) : State := withRecord m { room.record m with silent := true }
/-- The machines of the other rows stand in `room_rows`. -/
theorem witness_ServiceOutActs :
    (∀ i, room.Serves i) ∧ (∀ i, (silentAt 4).Serves i) ∧ addrNumber 23 = (24#8).toNat ∧ 24 < (25#8).toNat ∧
      1 < (2#8).toNat ∧ (1#8).toNat ≤ 1 ∧ (room.record 1).standsIn .running ∧ (room.record 10).standsIn .running ∧
      ((silentAt 4).record 4).state = .aborting ∧ ((silentAt 4).record 4).silent = true ∧
      ((silentAt 1).record 1).silent = true ∧ ((silentAt 1).grant 1).granted ≠ none :=
  ⟨serves, fun _ => ⟨rfl, .inl rfl⟩, rfl, by decide, by decide, by decide, rows_stand.1, rows_stand.2.2.2, by decide +kernel⟩
theorem witness_ServiceReturnActs :
    room.Serves (.serviceReturn 6#8) ∧
      (addrNumber 5 = (6#8).toNat ∧ (room.record 0).state ≠ .outOfService ∧ (room.record 5).state = .outOfService ∧
        (room.node 5).clash = false ∧ ((withNode 5 { room.node 5 with clash := true }).node 5).clash = true ∧
        (room.node 5).heard = true ∧ (room.record 5).silent = false) :=
  ⟨serves _, by decide +kernel⟩
/-- The machines of the other rows stand in `room_rows`. -/
theorem witness_AbortCycleActs :
    (∀ i, room.Serves i) ∧ addrNumber 11 = (12#8).toNat ∧ (room.record 2).standsIn .armed ∧
      (room.record 3).standsIn .starting ∧ (room.record 10).standsIn .running ∧ (room.record 0).state ≠ .reserved ∧
      (room.record 0).session = none ∧ ((silentAt 2).record 2).silent = true :=
  ⟨serves, rfl, rows_stand.2.1, rows_stand.2.2.1, rows_stand.2.2.2, by decide +kernel⟩
/-- The room in a discovery with an offer out and some offers unanswered. -/
def discovering (n : Nat) : State :=
  { room with mbc := { room.mbc with discovery :=
      { Discovery.idle with active := true, cause := some .host, offered := some 23, unanswered := n } } }
/-- The room in that discovery, with so many periods of the answer window left. -/
def answering (w : Nat) : State :=
  { discovering 1 with mbc := { (discovering 1).mbc with discovery := { (discovering 1).mbc.discovery with window := w } } }
theorem witness_DiscoveryAndScan :
    (room.setRecord 8 .cleared).Serves .rediscover ∧
      ((∀ m, ((room.setRecord 8 .cleared).record m).state ≠ .reserved) ∧ room.mbc.scanComplete = true ∧
        room.mbc.discovery.active = false ∧ (room.record 8).state = .reserved) ∧
      ((discovering 2).phase = .running ∧ (discovering 2).mbc.discovery.active = true ∧
        (discovering 2).mbc.discovery.offered = some 23 ∧ (discovering 2).mbc.discovery.window = 0 ∧
        (∀ e ∈ (discovering 2).mbc.queue, e.command ≠ .assign) ∧ 3 ≤ (discovering 2).mbc.discovery.unanswered + 1 ∧
        (discovering 1).mbc.discovery.unanswered + 1 < 3) ∧
      (∀ w ∈ [0, 1, 2], takes (answering w) 23 (report 23 0#8 0b0011#8 0#8 0#8 0#8) (·.state == .nIdle) = true ∧
        (answering w).mbc.discovery.active = true ∧ (answering w).mbc.discovery.offered = some 23 ∧
        (answering w).mbc.discovery.window = w ∧ (answering w).mbc.discovery.fresh = false) ∧
      let s := { State.reset with mbc := { State.reset.mbc with scanCount := 8 } }
      s.phase = .running ∧ s.mbc.scanComplete = false ∧ 8 ≤ s.mbc.scanCount :=
  ⟨⟨rfl, .inl rfl⟩, by decide +kernel, by decide +kernel, by decide +kernel, by decide +kernel⟩
/-- A full table whose oldest entry is pledged. -/
def fullTable : State := withCredits ({ credit 1 none with pledged := true } :: (List.range' 2 31).map fun k => credit k none)
theorem witness_RefundGrantCredits :
    room.Serves (.refundGrant 5#32 9999#16) ∧
      (∃ older e newer, (withCredits [credit 4 none, credit 5 none]).cru.refunds = older ++ e :: newer ∧
        e.serial = (5#32).toNat ∧ ∀ x ∈ older ++ newer, x.serial ≠ (5#32).toNat) ∧
      (∃ older e newer, fullTable.cru.refunds = older ++ e :: newer ∧ older = [{ credit 1 none with pledged := true }] ∧
        (∀ x ∈ older ++ newer, x.serial ≠ e.serial) ∧ e.pledged = false ∧ e.hold = none) ∧
      (5#32 ≠ 0#32 ∧ 9999#16 ≠ 0#16 ∧ (9999#16).toNat ≤ 9999 ∧ 9999 < (10000#16).toNat ∧ fullJournal.jrn.free < 2 ∧
        2 ≤ room.jrn.free ∧ 2 ≤ room.jrn.reservations ∧ (∀ x ∈ room.cru.refunds, x.serial ≠ (5#32).toNat) ∧
        room.cru.refunds.length < 32 ∧ 32 ≤ fullTable.cru.refunds.length ∧ ∀ x ∈ fullTable.cru.refunds, x.serial ≠ 77) :=
  ⟨serves _, ⟨[credit 4 none], credit 5 none, [], rfl, rfl, by decide⟩,
    ⟨[_], credit 2 none, (List.range' 3 30).map fun k => credit k none, by decide +kernel, rfl, by decide +kernel, rfl, rfl⟩,
    by decide +kernel⟩

/-! ## Witnesses: pay stations -/

/-- A PURCHASE by the payer of machine 2's dryer run, for more minutes. -/
def moreMinutes : PurchaseMsg := ⟨3060114#32, 0#16, 500#24, 5#16, 2#8, 2#8, 0#8, 20#8⟩
/-- Machine 2's run at the dryer maximum. -/
def timedOut : State := withRecord 1 { room.record 1 with session := some { dry with minutes := some 90 } }
theorem pending_takes {st : Station} {msg : PurchaseMsg} {s : State} (h : cardPasses st msg s = true)
    (k : s.cru.pendingOf msg.serial.toNat = none) : PendingTakes st msg s :=
  ⟨card_passes h, fun p e => by rw [k] at e; cases e⟩
theorem no_topup (msg : PurchaseMsg) (h : (allMachines.all fun m =>
    decide (addrNumber m = msg.machine.toNat → (room.record m).session = none)) = true) : ¬TopupRequest msg (inMode .quiet) := by
  rintro ⟨m, a, b⟩
  exact b (of_decide_eq_true (List.all_eq_true.mp h m (List.mem_finRange m)) a)
/-- Each of the checks fails somewhere as the first; machine 13 is ABSENT, machine 12 runs a washer, machine 1 is IDLE. -/
theorem witness_PurchaseTurnedAway :
    let msg := { cardMsg 1#8 1#8 3#8 with serial := 77#32 }
    let denied := { room with sst := { room.sst with working := { room.sst.working with
      screen := { room.sst.working.screen with mode := .deny, list := [77] } } } }
    let mismatched := { locked with sst := { locked.sst with lockCode := none } }
    (msg.option.toNat ≤ 3 ∧ room.phase = .running ∧ room.pay.a.order = some order ∧ (room.exchange .b).order = none) ∧
      RoomTakes msg mismatched ∧ mismatched.sst.priceMismatch = true ∧
      FirstFailing .b msg State.reset .startingUp ∧ FirstFailing .b msg (inMode .closed) .roomClosed ∧
      FirstFailing .b msg (inMode .quiet) .roomQuiet ∧
      FirstFailing .b msg { room with pay := { room.pay with halted := true } } .payHalted ∧
      FirstFailing .b msg fullJournal .journalFull ∧ FirstFailing .b { msg with balance := 100000#24 } room .cardInvalid ∧
      FirstFailing .b { msg with counter := 65535#16 } room .cardExhausted ∧
      FirstFailing .b { msg with serial := 1000000#32 } room .cardBusy ∧ FirstFailing .b msg denied .cardDenied ∧
      FirstFailing .b { msg with machine := 25#8 } room .machineOut ∧
      FirstFailing .b { msg with machine := 13#8 } room .machineOut ∧
      FirstFailing .b { msg with machine := 12#8 } room .machineBusy ∧ FirstFailing .b msg room .wrongProgram ∧
      FirstFailing .b moreMinutes timedOut .timeFull := by
  have pay : ∀ m, PaymentTakes m room := fun m => ⟨⟨rfl, .inl rfl⟩, rfl, rfl, by decide⟩
  refine ⟨by decide +kernel, ⟨rfl, .inl rfl⟩, rfl, .startUp rfl, .closed rfl rfl, .quiet rfl rfl (no_topup _ (by decide +kernel)),
    .halted ⟨rfl, .inl rfl⟩ rfl rfl, .journal ⟨rfl, .inl rfl⟩ rfl rfl (by decide),
    .invalid (pay _) fun h => absurd h.2.2 (by decide), .exhausted (pay _) ⟨by decide, rfl, by decide⟩ rfl,
    .busy (pay _) ⟨by decide, rfl, by decide⟩ (by decide) fun h => h order rfl rfl,
    .denied ⟨⟨rfl, .inl rfl⟩, rfl, rfl, by decide⟩ ⟨by decide, rfl, by decide⟩ (by decide) (fun o h => by cases h; decide) ?_,
    .noMachine (pending_takes (by decide +kernel) rfl) (.inr (by decide)),
    .out 12 (pending_takes (by decide +kernel) rfl) rfl (.inl (by decide +kernel)),
    .taken 11 (pending_takes (by decide +kernel) rfl) rfl ?_ ?_,
    .program 0 (pending_takes (by decide +kernel) rfl) rfl ?_ (.inl (by decide +kernel)) ?_,
    .time 1 { dry with minutes := some 90 } (pending_takes (by decide +kernel) rfl) rfl ?_ rfl rfl (by decide)⟩
  · decide +kernel
  · unfold MachineOut
    decide +kernel
  · rintro (⟨h, -⟩ | ⟨z, ⟨h, -⟩, hk⟩)
    · exact absurd h (by decide +kernel)
    · have e : (room.record 11).session = some wash := by decide +kernel
      rw [e] at h
      cases h
      exact absurd hk (by decide)
  · unfold MachineOut
    decide +kernel
  · have e : (room.record 0).session = none := by decide +kernel
    have p : room.sst.working.program 1 = some ⟨.washer 300 100 150 32 10 90, []⟩ := by decide +kernel
    rintro (⟨-, q, hq, -, ho⟩ | ⟨z, hz, -⟩)
    · have k := p.symm.trans hq
      cases k
      exact absurd (ho rfl) (by decide)
    · rw [e] at hz
      cases hz
  · exact ⟨by decide +kernel, .inr (.inr (by decide +kernel)), rfl, rfl, by decide⟩
/-- The premises of PurchaseOpensExchange at station B, for what is bought with a property. -/
def OpensAt (msg : PurchaseMsg) (s : State) (m : Addr) (res : Option Resolution) (x c : Nat) (p : Bought → Prop) : Prop :=
  (s.phase = .running ∧ msg.option.toNat ≤ 3 ∧ (s.exchange .b).order = none ∧ addrNumber m = msg.machine.toNat) ∧
    CardTakes .b msg s ∧ (∃ b, Buys msg s m b ∧ p b) ∧ Resolves msg s res x c
/-- A hot wash on machine 1, by card 77, at 300 + 150 cu. -/
def hotWash : PurchaseMsg := { cardMsg 1#8 1#8 2#8 with serial := 77#32, balance := 450#24, counter := 5#16 }
theorem buys_wash {msg : PurchaseMsg} {s : State} (hp : msg.program = 1#8) (ho : msg.option = 2#8)
    (hs : (s.record 0).state = .idle ∧ (s.record 0).session = none ∧ (s.record 0).kind = some .washer)
    (hw : s.sst.working = room.sst.working ∧ s.sst.clock = none) : ∃ b, Buys msg s 0 b ∧ b.charge = 450 := by
  refine ⟨_, .wash 300 100 150 32 10 90 [] .hot hs.1 hs.2.1 hs.2.2 ?_ (by rw [ho]; rfl), ?_⟩
  · rw [hp, hw.1]
    decide +kernel
  · simp only [State.tariff, Settings.presentBands, hw.1, hw.2]
    decide +kernel
/-- A wash that the balance just pays; a dryer run; a top-up; a card whose pending debit was taken, or was not; credit that does
not suffice; and nothing that suffices. -/
theorem witness_PurchaseOpensExchange :
    let dryerHere := withRecord 0 (inState .idle .dryer none)
    let owed := withBooks [{ credit 77 none with pledged := true }] [pend 77] none
    let some10 := withBooks [⟨77, 10, none, false, none, 3⟩] [] none
    OpensAt hotWash room 0 none 0 0 (fun b => b.charge ≤ hotWash.balance.toNat + 0 + 0) ∧
      OpensAt { hotWash with program := 2#8, minutes := 255#8 } dryerHere 0 none 0 0 (fun b => b.minutes = some 90) ∧
      OpensAt moreMinutes room 1 none 0 0 (fun b => b.topup = true ∧ b.charge ≤ moreMinutes.balance.toNat + 0 + 0) ∧
      OpensAt { hotWash with balance := 700#24, counter := 6#16 } owed 0 (some (.took 0)) 300 99940
        (fun b => b.charge ≤ 700 + 300 + 99940) ∧
      OpensAt { hotWash with balance := 1000#24 } owed 0 (some .notTaken) 9 99990 (fun b => b.charge ≤ 1000 + 9 + 99990) ∧
      OpensAt { hotWash with balance := 1#24 } some10 0 none 0 10 (fun b => 1 + 0 + 10 < b.charge ∧ 0 < 0 + 10) ∧
      OpensAt { hotWash with balance := 449#24 } room 0 none 0 0 (fun b => 449 + 0 + 0 < b.charge) := by
  have wash : ∀ {msg : PurchaseMsg} {s : State} {p : Bought → Prop} (_ : msg.program = 1#8) (_ : msg.option = 2#8)
      (_ : (s.record 0).state = .idle ∧ (s.record 0).session = none ∧ (s.record 0).kind = some .washer)
      (_ : s.sst.working = room.sst.working ∧ s.sst.clock = none) (_ : ∀ b : Bought, b.charge = 450 → p b),
      ∃ b, Buys msg s 0 b ∧ p b := fun hp ho hs hw k => (buys_wash hp ho hs hw).imp fun b h => ⟨h.1, k b h.2⟩
  refine ⟨⟨by decide +kernel, card_passes (by decide +kernel), wash rfl rfl (by decide +kernel) ⟨rfl, rfl⟩ ?_, .clear rfl⟩,
    ⟨by decide +kernel, card_passes (by decide +kernel),
      ⟨_, .dryer 100 10 60 120 [] 90 (by decide +kernel) (by decide +kernel) (by decide +kernel) (by decide +kernel) rfl, rfl⟩,
      .clear rfl⟩,
    ⟨by decide +kernel, card_passes (by decide +kernel),
      ⟨_, .topup dry 100 10 60 120 20 ⟨by decide +kernel, .inr (.inr (by decide +kernel)), rfl, rfl, by decide⟩ rfl rfl
        (by decide) rfl, rfl, by decide +kernel⟩, .clear rfl⟩,
    ⟨by decide +kernel, card_passes (by decide +kernel), wash rfl rfl (by decide +kernel) ⟨rfl, rfl⟩ ?_,
      .took (pend 77) rfl rfl rfl⟩,
    ⟨by decide +kernel, card_passes (by decide +kernel), wash rfl rfl (by decide +kernel) ⟨rfl, rfl⟩ ?_,
      .notTaken (pend 77) rfl rfl rfl⟩,
    ⟨by decide +kernel, card_passes (by decide +kernel), wash rfl rfl (by decide +kernel) ⟨rfl, rfl⟩ ?_, .clear rfl⟩,
    ⟨by decide +kernel, card_passes (by decide +kernel), wash rfl rfl (by decide +kernel) ⟨rfl, rfl⟩ ?_, .clear rfl⟩⟩ <;>
    · intro b h
      simp [h, hotWash]
theorem witness_PurchaseFindsUnresolved :
    let s := withBooks [{ credit 77 none with pledged := true }] [pend 77] none
    s.phase = .running ∧ hotWash.option.toNat ≤ 3 ∧ (s.exchange .b).order = none ∧ CardTakes .b hotWash s ∧
      s.cru.pendingOf hotWash.serial.toNat = some (pend 77) ∧ ¬(pend 77).agrees hotWash ∧ 1 ≤ s.jrn.reservations :=
  ⟨rfl, by decide, rfl, card_passes (by decide +kernel), rfl, by unfold PendingEntry.agrees; decide +kernel, by decide⟩
/-- A top-up of machine 2 by the payer of its session. -/
def topup : Order :=
  { order with ptype := .topup, serial := dry.payer, machine := 1, program := 2, option := none, minutes := some 20
               figures := dry.figures }
/-- An order that resolved the card's pending debit, with a remainder and with credit folded. -/
def resolved (o : Order) : Order := { o with folded := some 20, resolution := some (.took 5), reversal := some 295 }
/-- The room with an order at station A whose card has a credit and, where the order resolved one, a pending debit. -/
def withOrder (o : Order) : State :=
  withBooks [{ credit o.serial none with pledged := o.resolution.isSome, hold := some .a }]
    (if o.resolution.isSome then [pend o.serial] else []) (some o)
/-- DONE for the order 7, with the counter ordered. -/
def done : ResultMsg := ⟨7#8, 0#8, some 6#16⟩
/-- A state with its room CLOSED. -/
def inClosed (s : State) : State := { s with sst := { s.sst with roomMode := .closed } }
/-- What the statements on DONE ask of an order and the room that holds it. -/
def DoneAt (s : State) (o : Order) (t : PurchaseType) : Prop :=
  (s.phase = .running ∧ (s.exchange .a).order = some o ∧ o.ptype = t ∧ done.order.toNat = o.number ∧ done.outcome = 0#8 ∧
    done.counter.map (·.toNat) = some o.newCounter) ∧ s.BooksReady
theorem witness_ResultDoneArms :
    let r := resolved order
    let locked := (withOrder r).setRecord 8 { room.record 8 with lockoutPending := true }
    DoneAt room order .new ∧ DoneAt (withOrder r) r .new ∧ DoneAt locked r .new ∧ DoneAt (inClosed (withOrder r)) r .new ∧
      (0 < r.back ∧ (room.record 8).lockoutPending = false ∧ room.sst.roomMode ≠ .closed ∧ (room.node 8).known = true ∧
        (locked.record 8).lockoutPending = true ∧ (inClosed (withOrder r)).sst.roomMode = .closed) :=
  ⟨⟨by decide +kernel, books_ready (by decide +kernel)⟩, ⟨by decide +kernel, books_ready (by decide +kernel)⟩,
    ⟨by decide +kernel, books_ready (by decide +kernel)⟩, ⟨by decide +kernel, books_ready (by decide +kernel)⟩,
    by decide +kernel⟩
/-- The session takes the top-up; or it is ending and does not, with a charge and without one. -/
theorem witness_ResultDoneTopsUp :
    let o := resolved topup
    let ending := fun o => (withOrder o).setRecord 1 { room.record 1 with session := some { dry with ending := true } }
    let free := { topup with charge := 0 }
    DoneAt (withOrder o) o .topup ∧ TakesTopup ((withOrder o).record o.machine) dry o.serial ∧
      DoneAt (ending o) o .topup ∧ (∀ z, ¬TakesTopup ((ending o).record o.machine) z o.serial) ∧ 0 < o.charge ∧
      DoneAt (ending free) free .topup := by
  refine ⟨⟨by decide +kernel, books_ready (by decide +kernel)⟩, ⟨by decide +kernel, .inr (.inr (by decide +kernel)), rfl, rfl,
    by decide⟩, ⟨by decide +kernel, books_ready (by decide +kernel)⟩, ?_, by decide,
    ⟨by decide +kernel, books_ready (by decide +kernel)⟩⟩
  rintro z ⟨h, -, -, he, -⟩
  cases (show some z = some { dry with ending := true } from h.symm)
  cases he
theorem witness_ResultDoneCredits :
    let o := { resolved order with ptype := .creditOnly, charge := 0 }
    DoneAt (withOrder o) o .creditOnly ∧ o.charge = 0 := ⟨⟨by decide +kernel, books_ready (by decide +kernel)⟩, rfl⟩
/-- The eight pending debits are of other cards; the first of them makes room. -/
theorem witness_UncertainMakesPending :
    let crowded := withBooks [] ((List.range' 1 8).map pend) (some order)
    let r := resolved order
    (room.BooksReady ∧ crowded.BooksReady ∧ (withOrder r).BooksReady) ∧
      (room.phase = .running ∧ (room.exchange .a).order = some order ∧
        (⟨7#8, 1#8, none⟩ : ResultMsg).order.toNat = order.number ∧ order.timer = 0 ∧
        (⟨7#8, 0#8, some 65535#16⟩ : ResultMsg).order.toNat = order.number ∧ (65535#16).toNat ≠ order.newCounter ∧
        order.ptype = .new ∧ (room.record order.machine).state = .reserved ∧ topup.ptype ≠ .new ∧ 0 < r.back ∧
        crowded.evictedFor order none = some (pend 1)) :=
  ⟨⟨books_ready (by decide +kernel), books_ready (by decide +kernel), books_ready (by decide +kernel)⟩, by decide +kernel⟩
theorem witness_ResultFailedOrLate :
    let msg : ResultMsg := ⟨7#8, 2#8, none⟩
    let late : ResultMsg := ⟨8#8, 2#8, none⟩
    (room.phase = .running ∧ (room.exchange .a).order = some order ∧ msg.order.toNat = order.number ∧ msg.outcome = 2#8 ∧
      msg.counter = none ∧ order.ptype = .new ∧ (room.record order.machine).state = .reserved ∧ topup.ptype ≠ .new ∧
      late.codesListed = true ∧ (cardMsg 1#8 1#8 4#8).codesListed = false ∧
      (⟨7#8, 3#8, none⟩ : ResultMsg).codesListed = false) ∧
      ∀ o, (room.exchange .a).order = some o → o.number ≠ late.order.toNat :=
  ⟨by decide +kernel, fun o h => by cases h; decide⟩

/-! ## Witnesses: the machine bus -/

/-- A command in the bus command queue. -/
def queued (m : Addr) (c : BusCommand) (sends : Nat) (tag : Option Nat) : BusEntry :=
  { addr := m, command := c, sends := sends, tag := tag, owner := .msv, sentNow := false }
/-- The room with a bus command queue. -/
def withQueue (q : List BusEntry) : State := { room with mbc := { room.mbc with queue := q } }
theorem witness_BeaconSends :
    let s := (withQueue [queued 1 .hold 2 (some 255), queued 2 .disarm 0 none, queued 20 .assign 0 none]).setNode 2
      { room.node 2 with heard := true, silentMark := false, ctlTag := 254, ctlEcho := 255 }
    (s.phase = .running ∧ s.SlotDone) ∧ (s.mbc.queue.filter fun e => e.eligible s.mbc).length = 3 ∧ s.QueuePlaces := by
  refine ⟨by decide +kernel, by decide +kernel, fun m c => ?_⟩
  cases c <;> revert m <;> decide +kernel
theorem witness_SlotsAndPeriodCounted :
    (room.phase = .running ∧ room.SlotDone ∧ State.reset.SlotDone) ∧ decodeReport 0 ⟨1#8, 7#8, 0#8, 0#8, 0#8, 0#8, 0#8, 0#8, 0#8⟩ = none ∧
      State.reset.phase = .running ∧ State.reset.mbc.discovery.active = true ∧ room.mbc.scanComplete = true ∧
      (let s := { State.reset with mbc := { State.reset.mbc with discovery := .idle } }
       s.mbc.scanComplete = false ∧ s.mbc.scanSkip = false ∧ s.mbc.discovery.active = false ∧ s.SlotDone) := by
  decide +kernel

/-! ## Witnesses: valid reports -/

/-- The room with machine 10 in a state in which no session stands. -/
def paidNothing (x : MState) : State := withRecord 9 { room.record 9 with state := x }
/-- Reports of N_ARMED, N_START and N_RUN with the door OPEN, and the states in which no session stands; the third report in a row with
the keep-alive count 9 comes from machine 10, whose next slot, beacon, period or reset finds it in hand. -/
theorem witness_ReportBringsMachineIn :
    let stale := withNode 9 { room.node 9 with lastKeep := some 9, staleRun := 2 }
    Taken room 9 (report 9 0#8 0b0011#8 0#8 0#8 0#8) (·.state == .nIdle) ∧
      Taken room 23 (report 23 0#8 0b0011#8 0#8 0#8 0#8) (·.state == .nIdle) ∧
      ((room.record 9).state = .offline ∧ (room.record 23).state = .absent ∧ (∀ e ∈ room.mbc.queue, e.addr ≠ 9) ∧
        room.mbc.discovery.active = false) ∧
      (∀ n ∈ [1#8, 2#8, 3#8], Taken (paidNothing .faulted) 9 (report 9 n 0b0011#8 0#8 0#8 0#8) (·.door == .opened)) ∧
      (∀ x ∈ [MState.idle, .reserved, .done, .outOfService], Taken (paidNothing x) 9 (report 9 3#8 0b0010#8 0#8 0#8 0#8)
        (fun r => r.state == .nRun && r.door == .closed)) ∧
      ((decodeReport 9 (report 9 0#8 0b0011#8 0#8 0#8 0#8)).any (·.keepAlive == 9) = true ∧ stale.phase = .running ∧
        stale.SlotDone ∧ (stale.node 9).lastKeep = some 9 ∧ 2 ≤ (stale.node 9).staleRun) ∧
      (let s := after (.validReport 9 (report 9 0#8 0b0011#8 0#8 0#8 0#8)) stale
       s.phase = .running ∧ ¬s.SlotDone ∧ s.findsSlotDone .beacon ∧ s.findsSlotDone .powerFailure) :=
  ⟨report_taken (by decide +kernel), report_taken (by decide +kernel), by decide +kernel,
    fun _ _ => report_taken (by revert ‹Byte›; decide +kernel), fun _ _ => report_taken (by revert ‹MState›; decide +kernel),
    by decide +kernel, by decide +kernel, by decide +kernel, trivial, trivial⟩
/-- ARM and GRANT have been sent to machine 3 with the tags that it echoes; DISARM to machine 4 has not been sent. -/
theorem witness_ReportAcknowledges :
    let s := withQueue [queued 2 (.arm 1 (some .warm)) 1 (some 1), queued 2 (.grant .base true) 1 (some 2),
      queued 3 .disarm 0 none]
    Taken s 2 (report 2 1#8 0#8 0#8 0#8 0#8) (fun r => r.state == .nArmed && r.kind == .washer && r.ctlTag == 1) ∧
      s.QueuePlaces ∧
      (s.mbc.discovery.active = false ∧ (s.record 2).state = .armed ∧ (s.record 2).session = some wash ∧
        (s.record 2).kind = some .washer) := by
  refine ⟨report_taken (by decide +kernel), fun m c => ?_, by decide +kernel⟩
  cases c <;> revert m <;> decide +kernel
/-- The room in OVER_BUDGET by 1 dA, with the admission queue given. -/
def overBudget (starts : List AdmEntry) : State :=
  { room with fba := { room.fba with overBudget := true, beff := 69, starts := starts } }
/-- The room with nothing queued and just 10 dA and one fill slot left. -/
def lastPlace : State :=
  { room with
    fba := { room.fba with raises := [], starts := [], beff := 80 }
    sst := { room.sst with working := { room.sst.working with limits := { room.sst.working.limits with fillSlots := 2 } } } }
/-- A dryer that has not begun to run, where nothing is queued and committed draw is 70 dA of a budget. -/
def dryerStarts (m : Addr) (x : MState) (beff : Nat) : State :=
  let s := lastPlace.setRecord m (inState x .dryer (some dry))
  { s with fba := { s.fba with beff := beff } }
/-- AIR fits the dryer's 80 dA exactly, nothing fits in 79, and HIGH fits in 190. -/
theorem witness_ReportArmsAndStarts :
    let idle := report 2 0#8 0#8 0#8 0#8 0#8
    let start := report 2 2#8 0b1000#8 0#8 0#8 0#8
    let notAcked := withRecord 2 { room.record 2 with session := some { wash with armAcked := false } }
    let wants := fun r : NodeReport => r.state == .nStart && r.kind == .dryer && r.wanted == .high
    (Taken room 2 idle (fun r => r.state == .nIdle && r.kind == .washer) ∧ Taken notAcked 2 idle (·.state == .nIdle) ∧
      Taken (overBudget []) 2 start (·.state == .nStart) ∧ Taken room 3 (report 3 0#8 0#8 0#8 0#8 0#8) (·.state == .nIdle) ∧
      Taken room 3 (report 3 1#8 0#8 0#8 0#8 0#8) (·.state == .nArmed) ∧
      Taken lastPlace 2 start (fun r => r.state == .nStart && r.wanted == .base && r.wantedFill) ∧
      Taken (overBudget []) 3 (report 3 3#8 0#8 0#8 0#8 0#8) (fun r => r.state == .nRun && r.kind == .washer) ∧
      Taken (dryerStarts 2 .armed 80) 2 (report 2 2#8 0b0010#8 0#8 2#8 0#8) wants ∧
      Taken (dryerStarts 2 .armed 79) 2 (report 2 2#8 0b0010#8 0#8 2#8 0#8) wants ∧
      Taken (dryerStarts 3 .starting 190) 3 (report 3 2#8 0b0010#8 0#8 2#8 0#8) wants) ∧
      (room.mbc.discovery.active = false ∧ (∀ e ∈ room.mbc.queue, e.addr ≠ 2) ∧ (room.record 2).session = some wash ∧
        (room.record 2).kind = some .washer ∧ wash.figures.kind = .washer ∧ (room.record 2).state = .armed ∧
        (room.record 3).state = .starting ∧ wash.armAcked = true ∧ (overBudget []).fba.hasStart 2 = false ∧
        (overBudget []).fba.beff < (overBudget []).fba.committed) ∧
      ((room.record 3).session = some wash ∧ (room.record 3).kind = some .washer ∧ (overBudget []).fba.hasStart 3 = false ∧
        ((dryerStarts 2 .armed 80).record 2).session = some dry ∧ ((dryerStarts 2 .armed 80).record 2).state = .armed ∧
        ((dryerStarts 3 .starting 190).record 3).session = some dry ∧ dry.figures = .dryer 100 10 60 120 ∧
        ((dryerStarts 3 .starting 190).record 3).state = .starting ∧ (dryerStarts 3 .starting 190).fba.starts = [] ∧
        (dryerStarts 3 .starting 190).grant 3 = .empty ∧ (dryerStarts 2 .armed 80).grant 2 = .empty ∧
        [Level.air, .low, .high].map (fun y => (dryerStarts 2 .armed 80).fba.committed + (LevelDraws.dryer 10 60 120).draw y) =
          [80, 130, 190]) ∧
      (lastPlace.fba.overBudget = false ∧ lastPlace.grant 2 = .empty ∧ lastPlace.fba.committed + 10 ≤ lastPlace.fba.beff ∧
        lastPlace.fba.fillCount < lastPlace.sst.working.limits.fillSlots) :=
  ⟨⟨report_taken (by decide +kernel), report_taken (by decide +kernel), report_taken (by decide +kernel),
    report_taken (by decide +kernel), report_taken (by decide +kernel), report_taken (by decide +kernel),
    report_taken (by decide +kernel), report_taken (by decide +kernel), report_taken (by decide +kernel),
    report_taken (by decide +kernel)⟩,
    by decide +kernel, by decide +kernel, by decide +kernel⟩
theorem witness_ReportEndsRun :
    Taken room 1 (report 1 4#8 0b0010#8 0#8 0#8 0#8) (fun r => r.state == .nEnd && r.kind == .dryer) ∧
      Taken room 1 (report 1 5#8 0b0010#8 0#8 0#8 0#8) (fun r => r.state == .nStopped && r.kind == .dryer) ∧
      ((room.record 1).state = .running ∧ (room.record 1).session = some dry ∧ (room.record 1).kind = some .dryer ∧
        (room.grant 1).granted ≠ none ∧ 0 < room.jrn.free ∧ fullJournal.jrn.free = 0 ∧
        (fullJournal.record 1).session = some dry) :=
  ⟨report_taken (by decide +kernel), report_taken (by decide +kernel), by decide +kernel⟩
/-- Machine 11 recovers a run; or a session that had not begun, with the room open or CLOSED, or in OVER_BUDGET. -/
def recovers (x : Retained) : State := withRecord 10 { room.record 10 with retained := some x }
/-- Machine 5 is ABORTING; machines 2, 3 and 11 report another kind than that of their sessions. -/
theorem witness_ReportStopsOrAborts :
    Taken room 4 (report 4 5#8 0#8 0#8 0#8 0#8) (·.state == .nStopped) ∧
      Taken room 4 (report 4 3#8 0#8 0#8 0#8 0#8) (·.state == .nRun) ∧
      Taken room 1 (report 1 3#8 0#8 0#8 0#8 0#8) (fun r => r.state == .nRun && r.kind == .washer) ∧
      Taken room 2 (report 2 1#8 0b0010#8 0#8 0#8 0#8) (fun r => r.state == .nArmed && r.kind == .dryer) ∧
      (∀ x ∈ [Retained.armed, .starting, .running],
        Taken (recovers x) 10 (report 10 1#8 0#8 0#8 0#8 0#8) (fun r => r.state == .nArmed && r.kind == .washer) ∧
        ((recovers x).record 10).standsIn x.state ∧ ((recovers x).record 10).kind = some .dryer) ∧
      ((room.record 4).state = .aborting ∧ room.fba.hasStart 4 = false ∧ (room.record 1).session = some dry ∧
        (room.record 1).state = .running ∧ (room.record 1).kind = some .dryer ∧ (room.record 2).session = some wash ∧
        (room.record 2).state = .armed ∧ (room.record 2).kind = some .washer) :=
  ⟨report_taken (by decide +kernel), report_taken (by decide +kernel), report_taken (by decide +kernel),
    report_taken (by decide +kernel),
    fun x _ => ⟨report_taken (by cases x <;> decide +kernel), .inr (by cases x <;> decide +kernel), by cases x <;> decide +kernel⟩,
    by decide +kernel⟩
theorem witness_ReportResolvesRecovery :
    let strained := { recovers .starting with fba := (overBudget []).fba }
    let coded := (recovers .armed).setNode 10 { room.node 10 with lastFault := some .motor }
    let is := fun (x : NodeState) (r : NodeReport) => r.state == x && r.kind == Kind.dryer
    (Taken room 10 (report 10 3#8 0b0010#8 0#8 0#8 0#8) (is .nRun) ∧ Taken room 10 (report 10 4#8 0b0010#8 0#8 0#8 0#8) (is .nEnd) ∧
      Taken room 10 (report 10 0#8 0b0010#8 0#8 0#8 0#8) (is .nIdle) ∧
      Taken room 10 (report 10 1#8 0b0010#8 0#8 0#8 0#8) (is .nArmed) ∧
      Taken (inClosed (recovers .armed)) 10 (report 10 1#8 0b0010#8 0#8 0#8 0#8) (is .nArmed) ∧
      Taken (recovers .starting) 10 (report 10 0#8 0b0010#8 0#8 0#8 0#8) (is .nIdle) ∧
      Taken strained 10 (report 10 2#8 0b0010#8 0#8 0#8 0#8) (is .nStart) ∧
      Taken coded 10 (report 10 6#8 0b0010#8 0#8 0#8 5#8) (fun r => is .nFault r && r.fault == some .motor)) ∧
      ((room.record 10).state = .recovering ∧ (room.record 10).retained = some .running ∧
        (room.record 10).session = some dry ∧ (room.record 10).kind = some .dryer ∧ dry.figures.kind = .dryer ∧
        room.mbc.discovery.active = false ∧ (∀ e ∈ room.mbc.queue, e.addr ≠ 10) ∧ room.fba.hasStart 10 = false ∧
        strained.fba.overBudget = true ∧ strained.fba.beff < strained.fba.committed ∧ strained.fba.hasStart 10 = false ∧
        (coded.node 10).lastFault = some .motor ∧ (recovers .armed).sst.roomMode ≠ .closed) :=
  ⟨⟨report_taken (by decide +kernel), report_taken (by decide +kernel), report_taken (by decide +kernel),
    report_taken (by decide +kernel), report_taken (by decide +kernel), report_taken (by decide +kernel),
    report_taken (by decide +kernel), report_taken (by decide +kernel)⟩, by decide +kernel⟩
/-- Machine 2's grant of HIGH is held silent, in RUNNING or in ABORTING. -/
def heldSilent (x : MState) : State :=
  (withRecord 1 { room.record 1 with state := x }).setGrant 1
    { room.grant 1 with granted := some .high, draw := 120, heldSilent := true }
theorem witness_ReportRebuildsGrant :
    let low := fun r : NodeReport => r.state == .nRun && r.kind == .dryer && r.actual == .low && r.wanted == .low
    Taken (heldSilent .running) 1 (report 1 3#8 0b0010#8 1#8 1#8 0#8) low ∧
      Taken (heldSilent .aborting) 1 (report 1 3#8 0b0010#8 1#8 1#8 0#8) low ∧
      Taken (heldSilent .aborting) 1 (report 1 3#8 0#8 1#8 1#8 0#8) (fun r => r.state == .nRun && r.kind == .washer) ∧
      Taken (heldSilent .running) 1 (report 1 3#8 0b0010#8 0#8 2#8 0#8)
        (fun r => r.state == .nRun && r.kind == .dryer && r.actual == .air && r.wanted == .high) ∧
      (((heldSilent .running).grant 1).heldSilent = true ∧ ((heldSilent .running).grant 1).granted = some .high ∧
        room.fba.hasStart 1 = false ∧ room.fba.hasRaise 1 = false ∧ ((heldSilent .running).record 1).session = some dry ∧
        ((heldSilent .running).record 1).kind = some .dryer ∧ dry.figures.kind = .dryer ∧
        (heldSilent .running).fba.committed - 120 + 60 ≤ (heldSilent .running).fba.beff) :=
  ⟨report_taken (by decide +kernel), report_taken (by decide +kernel), report_taken (by decide +kernel),
    report_taken (by decide +kernel), by decide +kernel⟩
/-- Machine 2 runs at LOW and wants AIR, LOW or HIGH, with OVER_BUDGET declared over 69 dA or 0, or in 129 or 130 dA with nothing
queued; machine 12 at BASE with fill and a RAISE entry wants BASE or HEAT. An excess run of 1 or 9 goes on, in RUNNING and in IDLE. -/
theorem witness_ReportRebuildsGrant_ordinary :
    let strained := { overBudget [] with fba := { (overBudget []).fba with beff := 0 } }
    let own := queuing [entry 11 .heat true] [] 1600
    let excess := fun (x : MState) (n : Nat) =>
      (withRecord 1 { room.record 1 with state := x }).setGrant 1 { room.grant 1 with excessRun := n }
    (∀ w ∈ [0#8, 1#8, 2#8], ∀ s ∈ [overBudget [], strained, queuing [] [] 129, queuing [] [] 130],
      Taken s 1 (report 1 3#8 0b0010#8 0#8 w 0#8) (fun r => r.state == .nRun && r.kind == .dryer)) ∧
      (∀ w ∈ [0#8, 1#8], ∀ s ∈ [overBudget [], own],
        Taken s 11 (report 11 3#8 0b1000#8 0#8 w 0#8) (fun r => r.state == .nRun && r.kind == .washer && r.wantedFill)) ∧
      (∀ x ∈ [MState.running, .idle], ∀ n ∈ [1, 9],
        Taken (excess x n) 1 (report 1 3#8 0b0010#8 2#8 1#8 0#8) (fun r => r.state == .nRun && r.actual == .high)) ∧
      ((room.grant 1).granted = some .low ∧ (room.grant 1).heldSilent = false ∧ (room.grant 11).granted = some .base ∧
        (room.grant 11).heldSilent = false ∧ room.fba.hasStart 1 = false ∧ room.fba.hasStart 11 = false ∧
        (overBudget []).fba.hasRaise 11 = true ∧ strained.fba.beff < strained.fba.committed - 60 + 10 ∧
        own.fba.overBudget = false ∧ own.fba.starts = [] ∧ (∀ a ∈ own.fba.raises, a.machine = 11) ∧
        (queuing [] [] 130).fba.committed - 60 + 120 = 130) := by
  refine ⟨fun w hw s hs => report_taken ?_, fun w hw s hs => report_taken ?_, fun x hx n hn => report_taken ?_, by decide +kernel⟩
  · revert w s
    decide +kernel
  · revert w s
    decide +kernel
  · revert x n
    decide +kernel
theorem witness_SilenceNoticeHolds :
    let s := withNode 1 { room.node 1 with missed := 8 }
    s.phase = .running ∧ (s.node 1).known = true ∧ 8 ≤ (s.node 1).missed ∧ (s.node 1).silentMark = false ∧
      (s.record 1).silent = false ∧ (s.record 1).state ≠ .recovering ∧ (s.grant 1).heldSilent = false ∧
      (s.grant 1).granted.isSome = true := by
  decide +kernel

/-! ## Witnesses: grants and sheds -/

/-- Limits at the values that the room has, but for the fill-slot limit. -/
def fillLimit (n : Byte) : LimitArgs := ⟨n, 10#8, 20#8, 30#8, 15#8, 3#8, 3#8, 10#8, 90#8, 30#8, 0#16⟩
/-- Committed draw is 70 dA. The RAISE of machine 12 from BASE to HEAT fits in 160 dA and not in 159; the washer's START in 80 and
not in 79; a dryer's START for HIGH is granted LOW in 130 and AIR in 80, and not granted in 79. -/
theorem witness_QueueHeadsGranted :
    let a := fillLimit 4#8
    let raise := fun b => queuing [entry 11 .heat true] [] b
    let start := fun b => queuing [] [entry 3 .base true] b
    let dryer := fun b => (queuing [] [entry 3 .high false] b).setRecord 3 (inState .starting .dryer (some dry))
    let d := LevelDraws.dryer 10 60 120
    (∀ b, (raise b).Serves (.setLimits a)) ∧ (∀ b, (start b).Serves (.setLimits a)) ∧
      (room.sst.commit = none ∧ room.fba.overBudget = false ∧
        (LimitArgs.held a).fillSlots ≠ room.sst.working.limits.fillSlots ∧
        room.fba.fillCount + 1 ≤ (LimitArgs.held a).fillSlots) ∧
      ((raise 160).fba.committed - ((raise 160).grant 11).draw + ((raise 160).grant 11).drawOf .heat = 160 ∧
        ((raise 160).grant 11).fill = true) ∧
      (((start 80).record 3).session = some wash ∧ ((start 80).grant 3).granted = none ∧ ((start 80).grant 3).draw = 0 ∧
        ((start 80).grant 3).wanted = none ∧ (start 80).fba.committed - 0 + 10 = 80) ∧
      (((dryer 80).record 3).session = some dry ∧ Level.kind .high = .dryer ∧
        [Level.high, .low, .air].map (fun x => (dryer 80).fba.committed - 0 + d.draw x) = [190, 130, 80] ∧
        [Level.high, .low, .air].map Level.rank = [2, 1, 0]) :=
  ⟨fun _ => ⟨rfl, .inl rfl⟩, fun _ => ⟨rfl, .inl rfl⟩, by decide +kernel, by decide +kernel, by decide +kernel,
    by decide +kernel⟩
/-- Under SHED at 30% of 100 dA the budget is 30 dA; the dryer at LOW is shed to AIR. Where it is at AIR nothing can be shed. -/
theorem witness_ShedsNewestFirst :
    let base := { queuing [] [] 1600 with fba := { (queuing [] [] 1600).fba with demand := .shed } }
    let s := base.setGrant 1 { room.grant 1 with wanted := some (.low, false) }
    let t := base.setGrant 1 { room.grant 1 with granted := some .air }
    s.Serves (.setBudget 100#16 30#8) ∧ t.Serves (.setBudget 100#16 30#8) ∧
      (s.sst.commit = none ∧ max 100 (min 8000 (100#16).toNat) ≠ s.sst.working.budget ∧
        max 100 (min 8000 (100#16).toNat) * max 30 (min 100 (30#8).toNat) / 100 < s.fba.committed ∧
        s.fba.startList = [] ++ 1 :: [11] ∧ (s.record 1).state = .running ∧ (s.grant 1).heldSilent = false ∧
        (s.grant 1).granted = some .low ∧ (s.grant 1).drawOf .air < (s.grant 1).draw ∧
        (s.grant 11).granted = some .base ∧ s.fba.raises = [] ∧ (s.grant 1).draw = (s.grant 1).drawOf .low ∧
        s.fba.committed - (s.grant 1).draw + (s.grant 1).drawOf .air ≤ 30 ∧ (s.node 1).known = true) ∧
      (t.fba.startList = [1, 11] ∧ (t.grant 1).granted = some .air ∧ (t.grant 11).granted = some .base ∧
        30 < t.fba.committed) :=
  ⟨⟨rfl, .inl rfl⟩, ⟨rfl, .inl rfl⟩, by decide +kernel, by decide +kernel⟩

/-! ## Witnesses: timers and faults -/

/-- A dryer at its last minute. -/
def lastMinute : State := withRecord 1 { room.record 1 with session := some { dry with minutes := some 1 } }
theorem witness_TimersExpire :
    (room.phase = .running ∧ (room.record 2).session = some wash ∧ (room.record 2).state = .armed ∧ wash.startWindow = 0 ∧
      (room.record 3).session = some wash ∧ (room.record 3).state = .starting ∧ wash.startWait = 0 ∧
      room.fba.hasStart 2 = false) ∧
    ((room.record 1).state = .running ∧ (room.record 1).session = some dry ∧ dry.figures.kind = .dryer ∧
      dry.blockTimer = 0 ∧ dry.ending = false ∧ dry.minutes = some 40 ∧ 1 ≤ dry.value ∧
      (lastMinute.record 1).session = some { dry with minutes := some 1 } ∧ (lastMinute.node 1).known = true ∧
      (room.record 7).state = .done ∧ (room.record 7).unloadTimer = 0) := by
  decide +kernel
/-- DRAW_EXCESS, or its persisting form, is owed for machine 2. -/
def owing (persisting : Bool) : State :=
  room.setGrant 1 { room.grant 1 with excessOwed := !persisting, persistOwed := persisting }
/-- A report of machine 2 in its run, in hand when its stale run has reached 3. -/
def handled : NodeReport :=
  { state := .nRun, door := .closed, kind := .dryer, actual := .low, actualFill := false, wanted := .low, wantedFill := false
    keepAlive := 9, ctlTag := 1, lvlTag := 2, fault := none }
/-- ADDRESS_CLASH is owed for machine 2, or a report of it is in hand. -/
def owingNode (clash : Bool) : State :=
  withNode 1 { room.node 1 with inHand := if clash then none else some handled, clashOwed := clash }
/-- A command to machine 2 has been sent three times. -/
def lostQueue : State := withQueue [queued 1 .hold 3 (some 9)]
/-- Every event that can raise a fault of a running machine does so somewhere. -/
theorem witness_FaultAbortsRun :
    (RaisesFault room (.cycleOverrun 11) 11 .cycleOverrun false ∧ RaisesFault (silentAt 1) (.nodeSilent 1) 1 .nodeSilent false ∧
      RaisesFault room (.heldTooLong 11) 11 .heldTooLong false ∧ RaisesFault (owing false) (.drawExcess 1) 1 .drawExcess false ∧
      RaisesFault (owing true) (.drawExcessPersisting 1) 1 .drawExcess true ∧
      RaisesFault (owingNode false) (.nodeStale 1) 1 .nodeStale false ∧
      RaisesFault (owingNode true) (.addressClash 1) 1 .addressClash false ∧
      RaisesFault room (.validReport 1 (report 1 6#8 0b0010#8 1#8 1#8 5#8)) 1 .motor false ∧
      RaisesFault lostQueue (.cmdLost 1 .control) 1 .cmdLost false) ∧
      (room.phase = .running ∧ (room.record 11).state = .running ∧ (room.record 1).state = .running ∧
        (room.record 1).session = some dry ∧ (room.record 11).session = some wash ∧ (room.faults 1).openMark = false ∧
        (room.faults 11).openMark = false) := by
  refine ⟨⟨.overrun 11 wash (by decide +kernel) (by decide +kernel) rfl rfl, ?_, .held 11 (entry 11 .heat true) ?_ rfl rfl,
    .excess 1 (by decide +kernel), .persisting 1 (by decide +kernel),
    .stale 1 handled ?_ (.inl rfl) rfl ?_, .clash 1 (by decide +kernel), ?_,
    .lost 1 .control (queued 1 .hold 3 (some 9)) ?_ (by decide) rfl⟩, by decide +kernel⟩
  · exact .silent 1 (by decide +kernel) (by decide +kernel) (by decide +kernel) (by decide +kernel)
  all_goals first
    | exact .reported 1 _ _ .motor ⟨rfl, rfl, by decide +kernel, by decide +kernel⟩ rfl (by decide +kernel) (by decide +kernel) (.inl rfl)
    | decide +kernel
/-- A state with an event owed for machine m: DRAW_EXCESS, or its persisting form, or ADDRESS_CLASH, or a report in hand. -/
def owed (s : State) (m : Addr) (hand : Option NodeReport) : State :=
  (s.setGrant m { s.grant m with excessOwed := true, persistOwed := true }).setNode m
    { s.node m with clashOwed := true, inHand := hand }
/-- In ARMED (machine 3), STARTING (4, with its START entry) and RECOVERING (11): an excess, a clash, a silence that has run out, a
report in hand that its node is silent no more, and a node fault code; the count of 3 escalates at the third fault, and not at the
second. -/
theorem witness_FaultAbortsRun_unstarted :
    let quiet := (silentAt 2).setFaults 2 { (silentAt 2).faults 2 with stopCount := 2 }
    (∀ m ∈ [2, 3, 10], RaisesFault (owed room m none) (.drawExcess m) m .drawExcess false ∧
      RaisesFault (owed room m none) (.drawExcessPersisting m) m .drawExcess true ∧
      RaisesFault (owed room m none) (.addressClash m) m .addressClash false ∧
      ((owed room m none).record m).lockoutPending = false ∧ ((owed room m none).faults m).openMark = false) ∧
      RaisesFault quiet (.nodeSilent 2) 2 .nodeSilent false ∧
      RaisesFault (owed room 2 (some handled)) (.nodeStale 2) 2 .nodeStale false ∧
      RaisesFault room (.validReport 3 (report 3 6#8 0#8 0#8 0#8 2#8)) 3 .noFill false ∧
      RaisesFault (inClosed room) (.validReport 10 (report 10 6#8 0b0010#8 0#8 0#8 1#8)) 10 .doorLock false ∧
      (room.record 2).standsIn .armed ∧ (room.record 3).standsIn .starting ∧ (room.record 10).standsIn .running ∧
      (room.fba.hasStart 3 = true ∧ room.sst.working.limits.lockout = 3 ∧ quiet.escalates 2 .stop = true ∧
        (silentAt 2).escalates 2 .stop = false ∧ (room.record 2).session = some wash ∧ (room.record 3).session = some wash ∧
        (room.record 10).session = some dry) := by
  refine ⟨fun m hm => ⟨.excess m ?_, .persisting m ?_, .clash m ?_, ?_, ?_⟩, .silent 2 ?_ ?_ ?_ ?_,
    .stale 2 handled rfl (.inl rfl) ?_ ?_,
    .reported 3 _ _ .noFill ⟨rfl, rfl, ?_, ?_⟩ rfl ?_ ?_ (.inr ⟨?_, .inl rfl⟩),
    .reported 10 _ _ .doorLock ⟨rfl, rfl, ?_, ?_⟩ rfl ?_ ?_ (.inl ?_), .inl ?_, .inl ?_, .inr ?_, ?_⟩ <;>
  first
    | (revert m; decide +kernel)
    | decide +kernel
/-- Machines without a session: 1 IDLE, 8 DONE, 10 OFFLINE, 24 ABSENT, 9 RESERVED, 6 OUT_OF_SERVICE; and a node fault code there. -/
theorem witness_FaultAbortsRun_unpaid :
    (∀ m ∈ [0, 7, 9, 23, 8, 5], RaisesFault (owed room m none) (.drawExcess m) m .drawExcess false ∧
      RaisesFault (owed room m none) (.addressClash m) m .addressClash false ∧
      ((owed room m none).record m).session = none ∧ ((owed room m none).faults m).openMark = false) ∧
      RaisesFault (owed room 7 (some { handled with door := .opened })) (.nodeStale 7) 7 .nodeStale false ∧
      RaisesFault room (.validReport 7 (report 7 6#8 0b0001#8 0#8 0#8 5#8)) 7 .motor false ∧
      RaisesFault room (.validReport 9 (report 9 6#8 0#8 0#8 0#8 2#8)) 9 .noFill false ∧
      ([0, 7, 9, 23, 8, 5].map fun m => (room.record m).state) =
        [MState.idle, .done, .offline, .absent, .reserved, .outOfService] := by
  refine ⟨fun m hm => ⟨.excess m ?_, .clash m ?_, ?_, ?_⟩, .stale 7 { handled with door := .opened } rfl (.inl rfl) ?_ ?_,
    .reported 7 _ _ .motor ⟨rfl, rfl, ?_, ?_⟩ rfl ?_ ?_ (.inl ?_),
    .reported 9 _ _ .noFill ⟨rfl, rfl, ?_, ?_⟩ rfl ?_ ?_ (.inl ?_), ?_⟩ <;>
  first
    | (revert m; decide +kernel)
    | decide +kernel
/-- DOOR_LOCK is reported of machine 3 in ARMED, of 4 in STARTING with its START entry, a washer's or a dryer's while OVER_BUDGET
holds the queue, and of 11 in RECOVERING with STARTING retained. -/
theorem witness_FaultAbortsRun_retry :
    let held := (overBudget [entry 3 .high false]).setRecord 3 (inState .starting .dryer (some dry))
    let lock := fun (k : Kind) (r : NodeReport) => r.fault == some .doorLock && r.kind == k
    Taken room 2 (report 2 6#8 0#8 0#8 0#8 1#8) (lock .washer) ∧ Taken room 3 (report 3 6#8 0#8 0#8 0#8 1#8) (lock .washer) ∧
      Taken held 3 (report 3 6#8 0b0010#8 0#8 0#8 1#8) (lock .dryer) ∧
      Taken (recovers .starting) 10 (report 10 6#8 0b0010#8 0#8 0#8 1#8) (lock .dryer) ∧
      room.startStands 2 .washer ∧ room.startStands 3 .washer ∧ held.startStands 3 .dryer ∧
      (recovers .starting).startStands 10 .dryer ∧ ((recovers .starting).record 10).standsIn .starting ∧
      ((room.node 3).lastFault = none ∧ (room.record 3).kindDiffers .washer = false ∧ room.fba.hasStart 3 = true ∧
        (held.record 3).kindDiffers .dryer = false ∧ (held.record 3).session = some dry ∧
        ((recovers .starting).record 10).kindDiffers .dryer = false ∧ (room.faults 3).openMark = false ∧
        (room.record 3).lockoutPending = false ∧ (recovers .starting).sst.roomMode ≠ .closed) :=
  ⟨report_taken (by decide +kernel), report_taken (by decide +kernel), report_taken (by decide +kernel),
    report_taken (by decide +kernel), .inl (by decide +kernel), .inr ⟨by decide +kernel, .inl rfl⟩,
    .inr ⟨by decide +kernel, .inr ⟨rfl, by decide +kernel⟩⟩, .inl (by decide +kernel), .inr (by decide +kernel),
    by decide +kernel⟩
/-- A second fault finds machine 2 ABORTING, or FAULTED, under a fault of STOP severity; or under one of LOCKOUT severity. -/
def withFault (x : MState) (sev : Severity) : State :=
  { (withRecord 1 (inState x .dryer none)).setNode 1 { room.node 1 with inHand := some handled, clashOwed := true } with
    flm := State.reset.flm.put 1 (openFault sev) }
/-- A report of machine 2 with the door closed and the fault code MOTOR, under an open fault, with no report in hand. -/
def motorReport : SlotReport := report 1 6#8 0b0010#8 1#8 1#8 5#8
def motorReported (x : MState) (sev : Severity) : State := (withFault x sev).setNode 1 { room.node 1 with inHand := none }
theorem witness_OpenFaultTakesSecondary :
    RaisesFault (withFault .aborting .stop) (.nodeStale 1) 1 .nodeStale false ∧
      RaisesFault (withFault .faulted .stop) (.nodeStale 1) 1 .nodeStale false ∧
      RaisesFault (motorReported .aborting .stop) (.validReport 1 motorReport) 1 .motor false ∧
      RaisesFault (motorReported .faulted .stop) (.validReport 1 motorReport) 1 .motor false ∧
      ((motorReported .faulted .stop).broughtBy 1 (.validReport 1 motorReport)).any (·.door == .closed) = true ∧
      RaisesFault (withFault .faulted .stop) (.addressClash 1) 1 .addressClash false ∧
      RaisesFault (withFault .aborting .lockout) (.addressClash 1) 1 .addressClash false ∧
      ((withFault .aborting .stop).phase = .running ∧ ((withFault .aborting .stop).faults 1).openMark = true ∧
        ((withFault .aborting .stop).faults 1).current = (openFault .stop).current ∧
        ((withFault .aborting .stop).record 1).state = .aborting ∧ ((withFault .faulted .stop).record 1).state = .faulted ∧
        eventSeverity .nodeStale false = .stop ∧ eventSeverity .addressClash false = .lockout) := by
  refine ⟨.stale 1 handled (by decide +kernel) (.inl rfl) rfl nofun, .stale 1 handled (by decide +kernel) (.inl rfl) rfl nofun,
    ?_, ?_, by decide +kernel, .clash 1 (by decide +kernel), .clash 1 (by decide +kernel), by decide +kernel⟩ <;>
  exact .reported 1 _ _ .motor ⟨rfl, rfl, by decide +kernel, by decide +kernel⟩ rfl (by decide +kernel) (by decide +kernel) (.inl rfl)
/-- A clash owed at an address that is held and at one that is not; a command sent three times, or twice, or in the period that is
still open; and a GRANT. -/
theorem witness_OpenFaultTakesSecondary_clash_lost :
    let sent := fun (n : Nat) (now : Bool) => { queued 1 .hold n (some 9) with sentNow := now }
    ((owed room 23 none).node 23).clashOwed = true ∧ ((owed room 23 none).node 23).known = false ∧
      ((owed room 1 none).node 1).clashOwed = true ∧ ((owed room 1 none).node 1).known = true ∧
      (room.node 1).clashOwed = false ∧ lostQueue.mbc.waiting 1 .control = some (sent 3 false) ∧
      (withQueue [sent 2 false]).mbc.waiting 1 .control = some (sent 2 false) ∧
      (withQueue [sent 3 true]).mbc.waiting 1 .control = some (sent 3 true) ∧
      (withQueue [queued 1 (.grant .low false) 3 (some 2)]).mbc.waiting 1 .level =
        some (queued 1 (.grant .low false) 3 (some 2)) := by
  decide +kernel
/-- The window ends for a run that is retained, and in a CLOSED room for one and for sessions that had not begun. -/
theorem witness_RecoveryWindowEnds :
    (∀ x ∈ [Retained.armed, .starting, .running],
      let s := inClosed (recovers x)
      s.phase = .running ∧ s.msv.recoveryWindow = some 0 ∧ s.sst.roomMode = .closed ∧ (s.record 10).state = .recovering ∧
        (s.record 10).retained = some x ∧ (s.record 10).session = some dry ∧ s.fba.hasStart 10 = false ∧
        (s.node 10).known = true ∧ ∀ e ∈ s.fba.starts, (s.record e.machine).state = .starting) ∧
    room.phase = .running ∧ room.msv.recoveryWindow = some 0 ∧ room.sst.roomMode ≠ .closed ∧ room.fba.hasStart 10 = false ∧
      (room.record 10).state = .recovering ∧ (room.record 10).retained = some .running ∧ (room.record 22).state = .absent ∧
      (room.node 22).known = true ∧ (room.record 23).state = .absent ∧ (room.node 23).known = false ∧
      (room.node 23).silentMark = false := by
  decide +kernel
theorem witness_DemandFollowsLine :
    let s := { room with fba := { room.fba with line := .shed } }
    room.phase = .running ∧ Demand.normal = room.fba.line ∧ Demand.shed ≠ room.fba.line ∧ s.phase = .running ∧
      s.fba.line ≠ s.fba.demand ∧ s.fba.debounce = 0 := by
  decide +kernel

/-! ## Witnesses: arithmetic, what every step keeps, encodings -/

/-- The largest serial; the largest sum of balance and reversal, with credit that is folded in part; and sessions that are whole. -/
theorem witness_ArithmeticHolds :
    (2 : Nat) ^ 32 - 1 < 2 ^ 32 ∧ 99998 + 1 ≤ 99999 ∧ foldOrder 99998 1 50 20 = .full 99999 20 ∧
      foldOrder 1 0 10 450 = .creditOnly 11 10 ∧ foldOrder 449 0 0 450 = .short ∧ wash.consumed + wash.value = wash.total ∧
      dry.consumed + dry.value = dry.total := by decide
/-- The room, with the first command of a queue, satisfies every invariant, and its step answers a next state. -/
theorem witness_AttnStaysRight : room.AttnRight ∧ ∃ t, step (room.push .clockSecond) = .next t :=
  ⟨⟨nofun, fun ⟨f, h, _⟩ => by revert h; cases f <;> decide⟩, _, rfl⟩
theorem witness_JournalStaysWithin : fullJournal.JournalFits := by
  show 2 + 126 ≤ 128
  decide
theorem room_sums :
    ∀ m, ((room.record m).session.all fun z => z.consumed + z.value == z.total) = true := by
  decide +kernel
theorem witness_MoneyStaysWhole : room.MoneyWhole ∧ (withCredits [credit 5 none, credit 6 none]).RefundsFit ∧
    ({ room with pay := { room.pay with b := { room.pay.b with order := some { order with serial := 5 } } } }).CardsApart :=
  ⟨fun m z h => by simpa [h] using room_sums m, ⟨by decide, by decide⟩, fun x y hx hy => by cases hx; cases hy; decide⟩
/-- With an order that resolved its card's pending debit; and in the room, where just one slot more is reserved than is owed. -/
theorem witness_BooksStayBacked :
    (withOrder (resolved order)).BooksBacked ∧ room.BooksBacked ∧ room.slotsOwed = 13 ∧ room.jrn.reservations = 14 :=
  ⟨(books_ready (by decide +kernel)).1, (books_ready (by decide +kernel)).1, by decide +kernel⟩
theorem witness_QueueKeepsPlaces : (withQueue [queued 1 .hold 1 (some 1), queued 1 (.grant .low false) 0 none]).QueuePlaces := by
  intro m c
  cases c <;> revert m <;> decide +kernel
theorem witness_FillStaysWithinLimit : room.FillWithinLimit ∧ 0 < room.fba.fillCount := by
  refine ⟨?_, by decide +kernel⟩
  show room.fba.fillCount ≤ 3
  decide +kernel
/-- Within the budget; and above it by 1 dA, with OVER_BUDGET declared. -/
theorem witness_BudgetStaysDeclared :
    room.BudgetDeclared ∧ (overBudget []).BudgetDeclared ∧ (overBudget []).fba.committed = (overBudget []).fba.beff + 1 :=
  ⟨fun _ => .inl (by decide +kernel), fun _ => .inr rfl, by decide +kernel⟩
/-- The factory defaults are legal settings, and so are they in the working copy, the image and a copy being written. -/
theorem witness_SettingsStayLegal : ({ State.reset with sst := { State.reset.sst with commit := some .factory } }).SettingsLegal := by
  have h : Settings.factory.Legal :=
    ⟨by decide, by decide, by unfold Limits.InRange; decide, ⟨by decide, by decide⟩,
      ⟨fun i b => by revert i; simp [Settings.factory], fun i j b c => by simp [Settings.factory]⟩, fun i p => by simp [Settings.factory]⟩
  exact ⟨h, h, fun g hg => by cases hg; exact h⟩
theorem witness_NothingIsLostUnasked : exec .clockSecond room = .next (after .clockSecond room) := rfl
theorem witness_WiresReadBack :
    let i := Instr.setProgram 16#8 (.dryer 2000#16 400#16 400#16 400#16 (List.replicate 239 65#8))
    i.wellFormed = true ∧ (encodeRequest i).isSome = true ∧
      SlotReport.inRange 9 (report 9 0#8 0b0011#8 0#8 0#8 0#8) = true ∧
      SlotReport.inRange 8 (report 9 0#8 0b0011#8 0#8 0#8 0#8) = false ∧ (List.replicate 250 0#8).length ≤ 250 ∧
      (encodeStation (.purchase .a (cardMsg 1#8 1#8 3#8))).isSome = true ∧ (cardMsg 1#8 1#8 3#8).codesListed = true ∧
      (encodeStation (.result .b ⟨7#8, 0#8, some 6#16⟩)).isSome = true ∧ ResultMsg.codesListed ⟨7#8, 0#8, some 6#16⟩ = true ∧
      [0#8, 0#8] ≠ bytes16 (crc16 [0#8, 3#8]) := by
  decide +kernel

/-! ## Single commands on the room; the expected figures come from the rules named -/

/-- R85, R100: a hot wash at 300 + 150 cu leaves 99,999 − 450 on the card. -/
theorem test_purchase_orders :
    (after (.purchase .b { cardMsg 1#8 1#8 2#8 with serial := 77#32 }) room).out.lineB = some (.order 1 99549 65535 450 false) := by
  decide +kernel
/-- R84: a card that cannot pay is declined INSUFFICIENT with its balance. -/
theorem test_purchase_insufficient :
    (after (.purchase .b { cardMsg 1#8 1#8 2#8 with serial := 77#32, balance := 449#24 }) room).out.lineB =
      some (.decline .insufficient 449) := by
  decide +kernel
/-- R87: DONE arms machine 9 and sends the RECEIPT. -/
theorem test_done_receipt :
    (after (.result .a ⟨7#8, 0#8, some 6#16⟩) room).out.lineA = some (.receiptWasher 8 1) := by
  decide +kernel
/-- R86: DONE with another counter than was ordered is uncertain, and declined CARD_INVALID with the balance read. -/
theorem test_done_wrong_counter :
    let t := after (.result .a ⟨7#8, 0#8, some 5#16⟩) room
    t.out.lineA = some (.decline .cardInvalid 1000) ∧ t.cru.pendings.length = 1 := by
  decide +kernel
/-- R11, R59 to R62: N_START of machine 3 grants the waiting RAISE (10 + 90 dA), then both STARTs at 10 dA: 60 + 100 + 20. -/
theorem test_start_report_admits :
    let t := after (.validReport 2 ⟨3#8, 2#8, 0b0100#8, 0#8, 0#8, 9#8, 1#8, 2#8, 0#8⟩) room
    (t.record 2).state = .running ∧ t.fba.startList = [1, 11, 3, 2] ∧ t.fba.committed = 180 ∧ t.fba.raises = [] := by
  decide +kernel
/-- R60: that washer last reported no fill wanted, so its slot is released at once and the second GRANT takes the place of the
first. -/
theorem test_grant_replaced :
    let t := after (.validReport 2 ⟨3#8, 2#8, 0b0100#8, 0#8, 0#8, 9#8, 1#8, 2#8, 0#8⟩) room
    (t.mbc.waiting 2 .level).map (·.command) = some (.grant .base false) := by
  decide +kernel
/-- R9: an ARMED record is sent ARM again while its node reports N_IDLE. -/
theorem test_idle_report_rearms :
    let t := after (.validReport 2 ⟨3#8, 0#8, 0#8, 0#8, 0#8, 9#8, 1#8, 2#8, 0#8⟩) room
    (t.mbc.waiting 2 .control).map (·.command) = some (.arm 1 (some .warm)) := by
  decide +kernel
/-- R42: the echoed tag of a command that was sent removes it. -/
theorem test_echo_removes :
    let s := withQueue [queued 1 .hold 1 (some 9)]
    (after (.validReport 1 ⟨2#8, 3#8, 0b0010#8, 1#8, 1#8, 9#8, 9#8, 2#8, 0#8⟩) s).mbc.waiting 1 .control = none := by
  decide +kernel
/-- R40, R41: of two commands that may go, each takes a fresh tag; a node that is not heard gets none. -/
theorem test_beacon_entries :
    let s := withQueue [queued 23 .disarm 0 none, queued 1 .hold 2 (some 255), queued 2 .disarm 0 none]
    (after .beacon s).out.beacon = some ⟨1, [(1, .hold, 255), (2, .disarm, 1)]⟩ := by
  decide +kernel
/-- R130: NODE_STALE is a fault of STOP severity; the dryer's whole remaining value comes back (R108). -/
theorem test_stale_refunds :
    (after (.nodeStale 1) (owingNode false)).cru.refunds = [⟨3060114, 401, none, false, none, 2⟩] := by
  decide +kernel
/-- R134: DOOR_LOCK in STARTING removes the START entry and leads back to ARMED, with the session and the STOP count as they were. -/
theorem test_door_lock_retries :
    let t := after (.validReport 3 (report 3 6#8 0#8 0#8 0#8 1#8)) room
    (t.record 3).state = .armed ∧ (t.record 3).session = some wash ∧ t.fba.hasStart 3 = false ∧
      (t.faults 3).stopCount = 0 ∧ (t.faults 3).openMark = false := by
  decide +kernel
/-- R28: in a CLOSED room the window's end disarms a retained ARMED session, and its whole charge of 401 cu is credited. -/
theorem test_window_ends_closed :
    let t := after .recoveryWindowEnd (inClosed (recovers .armed))
    (t.record 10).state = .offline ∧ t.cru.refunds = [⟨3060114, 401, none, false, none, 11⟩] := by
  decide +kernel
/-- R178: the second after 23:59:59 begins the next day, and 65,535 is followed by 0. -/
theorem test_midnight :
    ((after .clockSecond (onDay ⟨7, 1439, 59, false⟩)).sst.clock.map fun c => (c.day, c.minute, c.second)) = some (8, 0, 0) ∧
      ((after .clockSecond (onDay ⟨65535, 1439, 59, false⟩)).sst.clock.map (·.day)) = some 0 := by
  decide +kernel
/-- R175: removing an absent program changes nothing, and removing a present one is an edit. -/
theorem test_absent_removal :
    (after (.setProgram 16#8 .removal) calm).sst = calm.sst ∧
      (after (.setProgram 1#8 .removal) calm).sst.unsaved = true ∧ calm.sst.unsaved = false := by
  decide +kernel
/-- R145: ABORT CYCLE with refund on a wash at run clock 0 refunds all 450 cu (1C2h), and the record is ABORTING. -/
theorem test_abort_reply :
    replied (.abortCycle 12#8 1#8) room = some (.ok, [0x08#8, 0x00#8, 0x01#8, 0xC2#8]) := by
  decide +kernel
/-- R171, R172: READ EVENTS after a power-on reset shows SETTINGS_LOST and RETAINED_LOST. -/
theorem test_read_events_after_reset :
    (replied (.readEvents 0#8) State.reset).map (fun x => x.2.length) = some 8 ∧ State.reset.evu.isSet .settingsLost = true ∧
      State.reset.evu.isSet .retainedLost = true := by
  decide +kernel
/-- R160: JOURNAL READ of one record gives 33 bytes and the 8 of the journal's figures. -/
theorem test_journal_read_length : (replied (.journalRead 1#8) room).map (fun x => x.2.length) = some 41 := by decide +kernel
/-- R51: a change of the line starts the 2 s debounce timer, and the change back stops it. -/
theorem test_debounce :
    let t := after (.demandLineChange .shed) room
    t.fba.debounce = 2 ∧ (after (.demandLineChange .normal) t).fba.debounce = 0 := by
  decide +kernel
/-- R63, R16: a dryer whose grant becomes AIR while it wants more is on hold; one granted AIR, as it wants, is not on hold when
its node wants more later. -/
theorem test_hold_begins_with_air :
    let shed := after (.setBudget 100#16 30#8) { (queuing [] [] 1600).setGrant 1 { room.grant 1 with wanted := some (.low, false) }
      with fba := { ((queuing [] [] 1600).setGrant 1 { room.grant 1 with wanted := some (.low, false) }).fba with demand := .shed } }
    let aired := (queuing [] [] 40).setGrant 1 { room.grant 1 with granted := some .air, draw := 10 }
    shed.onHold 1 = true ∧ (after (.validReport 1 (report 1 3#8 0b0010#8 0#8 1#8 0#8)) aired).onHold 1 = false := by
  decide +kernel
/-- R32, R36: the third N_END report with one keep-alive count stays in hand until NODE_STALE has aborted the run with its refund;
then it stops the ABORTING machine. -/
theorem test_stale_end_refunds :
    let s := after (.validReport 1 (report 1 4#8 0b0010#8 0#8 0#8 0#8)) (withNode 1 { room.node 1 with lastKeep := some 9, staleRun := 2 })
    (s.record 1).state = .running ∧ ((after (.nodeStale 1) s).record 1).state = .faulted ∧
      (after (.nodeStale 1) s).cru.refunds.map (·.amount) = [401] := by
  decide +kernel
/-- R30: the next slot finds the report that is in hand taken to its end, its NODE_STALE with it. -/
theorem test_next_slot_ends_report :
    let s := after (.emptySlot 4) (owingNode false)
    (s.node 1).inHand = none ∧ (s.record 1).state = .aborting ∧ s.cru.refunds.map (·.amount) = [401] := by
  decide +kernel
/-- R174: the reply to a settings request that cannot be read bears the three marks; with an unknown form it is BUSY while a commit
is in progress. -/
theorem test_settings_frames :
    replied (.goodFrame 0x0E#8 []) room = some (.badArg, room.sst.marks) ∧ room.sst.marks.length = 3 ∧
      replied (.goodFrame 0x0E#8 [1#8, 3#8]) writing = some (.busy, writing.sst.marks) := by
  decide +kernel
/-- R139, R150: a run that is aborted for ADDRESS_CLASH leaves a CLASH record with the fault kind. -/
theorem test_clash_record :
    ((after (.addressClash 1) (owingNode true)).jrn.records.map fun r => (r.body.kind, r.body.faultKind)).getLast? =
      some (.clash, some .addressClash) := by
  decide +kernel
/-- R139, R150: its payer and refund are both there, or neither is; a FAULT record has both. -/
theorem test_clash_session :
    ((recordedEnd .addressClash (some (3060114, 401)) = some (3060114, 401)) ∨
      (recordedEnd .addressClash (some (3060114, 401)) = none)) ∧
      recordedEnd .motor (some (3060114, 401)) = some (3060114, 401) := by
  unfold recordedEnd; cases Config.clashBearsSession <;> simp
/-- R101: the TOPUP record bears the 20 minutes sold. -/
theorem test_topup_minutes :
    ((after (.result .a done) (withOrder topup)).jrn.records.map (·.body.minutes)).getLast? = some (some 20) := by
  decide +kernel
/-- R95, R90: an exchange that was ORDERED at a reset is a pending debit with the cause RESET after it. -/
theorem test_reset_converts :
    let t := after (.coldReset true true true true) room
    t.cru.pendings.map (·.serial) = [1000000] ∧ t.evu.isSet .debitUncertain = true ∧
      (t.jrn.records.map (·.body.detail)).getLast? = some .reset := by
  decide +kernel
/-- R67: a report that lowers a dryer to a level that draws more leaves OVER_BUDGET declared. -/
theorem test_decrease_declares :
    let s := (queuing [] [] 1600).setGrant 1 { room.grant 1 with draws := some (.dryer 2000 60 120) }
    let t := after (.validReport 1 (report 1 3#8 0b0010#8 0#8 0#8 0#8)) s
    t.fba.committed = 2010 ∧ t.fba.overBudget = true ∧ t.evu.isSet .overBudget = true := by
  decide +kernel
/-- R75, section 11.4: CANCEL with the CRC-16 of its length and kind, and with another check. -/
theorem test_station_check :
    stationMessage .b [0#8, 3#8, 0x2D#8, 0x6C#8] = .cancel .b ∧
      stationMessage .b [0#8, 3#8, 0x2D#8, 0x6D#8] = .stationMessageDiscarded .b := by
  decide +kernel
/-- R175, R187: a dryer program as held: kind and name before the figures. -/
theorem test_program_bytes :
    programBytes (some ⟨.dryer 2000 10 60 120, [65#8, 66#8]⟩) =
      [1#8, 1#8, 2#8, 65#8, 66#8, 0x07#8, 0xD0#8, 0#8, 10#8, 0#8, 60#8, 0#8, 120#8] := by
  decide +kernel
/-- R63, R27: a dryer kept at AIR through a reset that draws above AIR and wants more is on hold again with its first report. -/
theorem test_hold_after_reset :
    let kept := (GrantEntry.empty.regrant .air false).atReset .recovering
    (({ kept with wanted := some (.high, false) }).rebuilt .air .high false).held = true := by
  decide +kernel

end Sys2Proof.Tests
end

section
/-! PROOF. JOURNAL RELEASE (R161): what a served request leaves, what `releaseCount` finds in the run, and that a change of the
journal clears no event flag; from these, the obligation O12. -/
namespace Sys2Proof.Machine

/-! ## A request that is served (R184, R185) -/

/-- A reply put into the buffer changes HLI alone. -/
theorem putReply_changes (r : Reply) (b : Bool) (s : State) : ChangesOnly [.hli] s (putReply r b s) := withHli_changes _ s

@[simp] theorem putReply_jrn (r : Reply) (b : Bool) (s : State) : (putReply r b s).jrn = s.jrn := rfl

@[simp] theorem putReply_evu (r : Reply) (b : Bool) (s : State) : (putReply r b s).evu = s.evu := rfl

/-- R184: the reply put into the buffer is the one that HLI holds, and HLI is as it was but for that. -/
theorem holds_putReply {s t : State} (h : t.hli = s.hli) (r : Reply) : Holds s (putReply r false t) r := by
  simp [Holds, putReply, h]

/-- R185: the owning block acts on a request that is served, whether it waits in the buffer or comes to an empty one. -/
theorem serve_of_serves {i : Instr} {s : State} (hs : s.Serves i) (kind : Byte) (f : Service) :
    serve kind i f s = answerRequest kind false f s := by
  obtain ⟨hrun, hbuf | hbuf⟩ := hs <;> simp [serve, serveWith, State.isRunning, hrun, hbuf]

/-- The dispatcher sends JOURNAL RELEASE to JRN, which serves it under kind 0Bh. -/
theorem exec_journalRelease (q : Word16) (s : State) :
    exec (.journalRelease q) s = .next (serve 0x0B#8 (.journalRelease q) (journalRelease q) s) := rfl

/-! ## What JOURNAL RELEASE finds in the run (R161) -/

/-- R161: the first record of the run that bears the number ends what is freed: it and every older one. -/
theorem releaseCount_append_cons {q : Nat} {older newer : List JournalRecord} {r : JournalRecord} (hr : r.sequence = q)
    (hold : ∀ x ∈ older, x.sequence ≠ q) : releaseCount q (older ++ r :: newer) = some (older.length + 1) := by
  induction older with
  | nil => simp [releaseCount, hr]
  | cons x older ih =>
    obtain ⟨hx, hrest⟩ := List.forall_mem_cons.mp hold
    simp [releaseCount, hx, ih hrest]

/-- R161: a number that no host-owned record bears names nothing to free. -/
theorem releaseCount_eq_none {q : Nat} {rs : List JournalRecord} (h : ∀ x ∈ rs, x.sequence ≠ q) : releaseCount q rs = none := by
  induction rs with
  | nil => rfl
  | cons x rs ih =>
    obtain ⟨hx, hrest⟩ := List.forall_mem_cons.mp h
    simp [releaseCount, hx, ih hrest]

/-- R161: what JOURNAL RELEASE answers and leaves where the run holds the record named. -/
theorem journalRelease_of_count {q : Word16} {s : State} {n : Nat} (h : releaseCount q.toNat s.jrn.records = some n) :
    journalRelease q s = (.ok (nat8 n ++ nat8 (s.jrn.records.drop n).length), releaseRecords n s) := by
  simp [journalRelease, h]

/-- R161: JOURNAL RELEASE of a number not in the run is answered BAD_SEQ and frees nothing. -/
theorem journalRelease_of_absent {q : Word16} {s : State} (h : releaseCount q.toNat s.jrn.records = none) :
    journalRelease q s = (.badSeq, s) := by
  simp [journalRelease, h]

/-! ## A change of the journal clears no event (R158, R167) -/

theorem setEvent_keeps_isSet (f : EventFlag) {g : EventFlag} {s : State} (h : s.evu.isSet g = true) :
    (setEvent f s).evu.isSet g = true := by
  simp [setEvent, Evu.isSet_set, h]

/-- R158: JRN finding its state again sets a flag or none. -/
theorem withJournal_keeps_isSet (j : Jrn) {g : EventFlag} {s : State} (h : s.evu.isSet g = true) :
    (withJournal j s).evu.isSet g = true := by
  have hj : (s.withJrn j).evu.isSet g = true := h
  unfold withJournal
  dsimp only
  split
  case isTrue => exact hj
  case isFalse =>
    split
    · exact hj
    · exact setEvent_keeps_isSet _ hj
    · exact setEvent_keeps_isSet _ hj

/-! ## The obligation -/

/-- The case of R161 in which the run holds the record named. -/
theorem journalRelease_frees {q : Word16} {s : State} {older newer : List JournalRecord} {r : JournalRecord}
    (hrun : s.jrn.records = older ++ r :: newer) (hr : r.sequence = q.toNat) (hold : ∀ x ∈ older, x.sequence ≠ q.toNat) :
    journalRelease q s = (.ok (nat8 (older.length + 1) ++ nat8 newer.length), releaseRecords (older.length + 1) s) ∧
      (releaseRecords (older.length + 1) s).jrn = { s.jrn with records := newer } := by
  have hcount : releaseCount q.toNat s.jrn.records = some (older.length + 1) := hrun ▸ releaseCount_append_cons hr hold
  have hdrop : s.jrn.records.drop (older.length + 1) = newer := by simp [hrun]
  exact ⟨by rw [journalRelease_of_count hcount, hdrop], by rw [releaseRecords_jrn, hdrop]⟩

/-- Settles O12: by whether the run holds the record named. Where it does, `releaseCount` stops at that record; what is counted is
dropped, and JRN finding its state again clears no flag. -/
theorem journalReleaseFrees : Obligations.JournalReleaseFrees := by
  unfold Obligations.JournalReleaseFrees
  intro q s hs
  refine ⟨_, exec_journalRelease q s, ?_⟩
  rw [serve_of_serves hs, answerRequest]
  constructor
  case left =>
    intro older r newer hrun hr hold
    obtain ⟨hanswer, hjrn⟩ := journalRelease_frees hrun hr hold
    rw [hanswer, putReply_jrn, putReply_evu]
    exact ⟨hjrn, holds_putReply (releaseRecords_hli _ s) _, fun _ hf => withJournal_keeps_isSet _ hf,
      (releaseRecords_changes _ s).seq (putReply_changes _ _ _)⟩
  case right =>
    intro habsent
    rw [journalRelease_of_absent (releaseCount_eq_none habsent)]
    exact ⟨holds_putReply rfl _, putReply_changes _ _ s⟩

end Sys2Proof.Machine
end

section
/-! PROOF. READ EVENTS (R171): ATTN as EVU finds it again is the ATTN of R169, and what the request answers and leaves for each
value of the clear option; from these, the obligation O10. -/
namespace Sys2Proof.Machine

/-! ## ATTN as EVU finds it (R168, R169) -/

/-- R167: each of the 19 places of the table is a flag's. -/
theorem EventFlag.exists_index {i : Nat} (hi : i < 19) : ∃ f : EventFlag, f.index = i := by
  have hplace : ∀ i < 19, (EventFlag.ofNat i).index = i := by decide
  exact ⟨_, hplace i hi⟩

/-- R167: some of 19 bits is set exactly where the bit of some flag is. -/
theorem flagBits_ne_zero_iff {b : BitVec 19} : b ≠ 0#19 ↔ ∃ f : EventFlag, b.getLsbD f.index = true := by
  constructor
  case mp =>
    contrapose!
    intro hclear
    refine BitVec.eq_of_getLsbD_eq fun i hi => ?_
    obtain ⟨f, rfl⟩ := EventFlag.exists_index hi
    simpa using hclear f
  case mpr =>
    rintro ⟨f, hf⟩ rfl
    simp at hf

/-- R168: a flag is enabled as its class is; the first five of the table are the routine class. -/
theorem Evu.enabledFlags_getLsbD (e : Evu) (f : EventFlag) :
    e.enabledFlags.getLsbD f.index = if f.index < 5 then e.routine else e.exceptional := by
  unfold Evu.enabledFlags
  cases e.routine <;> cases e.exceptional <;> cases f <;> rfl

/-- R169: EVU calls exactly while some set flag is unmasked and its class is enabled. -/
theorem Evu.calls_iff (e : Evu) :
    e.calls = true ↔ ∃ f : EventFlag, e.isSet f = true ∧ e.masks.getLsbD f.index = true ∧
      (if f.index < 5 then e.routine else e.exceptional) = true := by
  simp only [Evu.calls, bne_iff_ne, flagBits_ne_zero_iff, BitVec.getLsbD_and, Bool.and_eq_true, Evu.enabledFlags_getLsbD,
    Evu.isSet, and_assoc]

/-- R169: ATTN is right in a state whose EVU has found it again. -/
theorem attnRight_of_findAttn {s : State} {e : Evu} (h : s.evu = e.findAttn) : s.AttnRight := by
  unfold State.AttnRight
  rw [h, Evu.findAttn_attn, Evu.calls_iff]

/-! ## What READ EVENTS answers and leaves (R171) -/

/-- The dispatcher sends READ EVENTS to EVU, which serves it under kind 08h. -/
theorem exec_readEvents (clear : Byte) (s : State) :
    exec (.readEvents clear) s = .next (serve 0x08#8 (.readEvents clear) (readEvents clear) s) := rfl

/-- Section 11.3: an option byte of 0 or 1 is taken. -/
theorem flagOf_of_bit {b : Byte} (h : b = 0#8 ∨ b = 1#8) : flagOf b = some (b == 1#8) := by
  obtain rfl | rfl := h <;> rfl

/-- Section 11.3: an option byte above 1 is not taken. -/
theorem flagOf_eq_none {b : Byte} (h : 1 < b.toNat) : flagOf b = none := by
  have h0 : b ≠ 0#8 := by rintro rfl; simp at h
  have h1 : b ≠ 1#8 := by rintro rfl; simp at h
  simp [flagOf, h0, h1]

/-- R171: the data of a READ EVENTS reply, from the image, the masks, the two enables and ATTN. -/
def imageBytes (flags masks : BitVec 19) (routine exceptional attn : Bool) : List Byte :=
  flagBytes flags ++ flagBytes masks ++ nat8 (bitsValue [routine, exceptional]) ++ markByte attn

/-- R171: EVU once the image has been returned, with the clear option or without. -/
def Evu.afterImage (e : Evu) (clear : Bool) : Evu := if clear then e.clearAll else e.findAttn

theorem Evu.afterImage_found (e : Evu) (clear : Bool) :
    e.afterImage clear = { e with flags := if clear then 0#19 else e.flags }.findAttn := by
  cases clear <;> rfl

@[simp] theorem Evu.afterImage_masks (e : Evu) (clear : Bool) : (e.afterImage clear).masks = e.masks := by
  rw [Evu.afterImage_found]; rfl

@[simp] theorem Evu.afterImage_routine (e : Evu) (clear : Bool) : (e.afterImage clear).routine = e.routine := by
  rw [Evu.afterImage_found]; rfl

@[simp] theorem Evu.afterImage_exceptional (e : Evu) (clear : Bool) : (e.afterImage clear).exceptional = e.exceptional := by
  rw [Evu.afterImage_found]; rfl

/-- R171: the flags that the image has set are those that the clear option clears: none of them stands after it. -/
theorem Evu.isSet_afterImage (e : Evu) (clear : Bool) (f : EventFlag) :
    (e.afterImage clear).isSet f = (e.isSet f && !clear) := by
  cases clear
  case false => exact (Bool.and_true _).symm
  case true => simp [Evu.afterImage, Evu.clearAll, Evu.findAttn, Evu.isSet]

/-- R171: what READ EVENTS answers and leaves where the option byte is taken. -/
theorem readEvents_of_flagOf {b : Byte} {clear : Bool} {s : State} (h : flagOf b = some clear) :
    readEvents b s =
      (.ok (imageBytes s.evu.flags s.evu.masks s.evu.routine s.evu.exceptional (s.evu.afterImage clear).attn),
        s.withEvu (s.evu.afterImage clear)) := by
  simp only [readEvents, h]
  cases clear <;> rfl

/-- READ EVENTS with an option byte that is not taken is answered BAD_ARG and clears nothing. -/
theorem readEvents_of_bad_option {b : Byte} {s : State} (h : flagOf b = none) : readEvents b s = (.badArg [], s) := by
  simp [readEvents, h]

/-! ## The obligation -/

/-- Settles O10: the one form is `imageBytes`. Where the option byte is taken, EVU returns its image and then holds `afterImage`,
which has found ATTN again; where it is not, the state stands but for the reply. -/
theorem readEventsGivesImage : Obligations.ReadEventsGivesImage := by
  unfold Obligations.ReadEventsGivesImage
  refine ⟨imageBytes, fun _ _ _ _ _ _ _ _ _ _ => imageBytes_injective, ?_⟩
  intro clear s hs
  refine ⟨_, exec_readEvents clear s, ?_⟩
  rw [serve_of_serves hs, answerRequest]
  constructor
  case left =>
    intro hbit
    rw [readEvents_of_flagOf (flagOf_of_bit hbit), putReply_evu, State.withEvu_evu]
    exact ⟨holds_putReply rfl _, Evu.isSet_afterImage s.evu _, Evu.afterImage_masks _ _, Evu.afterImage_routine _ _,
      Evu.afterImage_exceptional _ _, attnRight_of_findAttn (Evu.afterImage_found s.evu _),
      (withEvu_changes _ s).seq (putReply_changes _ _ _)⟩
  case right =>
    intro hbad
    rw [readEvents_of_bad_option (flagOf_eq_none hbad)]
    exact ⟨holds_putReply rfl _, putReply_changes _ _ s⟩

end Sys2Proof.Machine
end

section
/-! PROOF. What every operation of the shared blocks keeps of ATTN, the flags, the journal, the sessions' sums, the refund table and
the places of the bus queue: the relation `Steady`, which composes, and one lemma for each operation that touches one of these. -/
namespace Sys2Proof.Machine

/-! ## The relation -/

/-- Between two states: flags and records are only added, and what R169, R154, R2, R118 and R39 hold of the first is held of the
second. -/
structure Steady (s t : State) : Prop where
  attn    : s.AttnRight → t.AttnRight
  flags   : ∀ f, s.evu.isSet f = true → t.evu.isSet f = true
  records : s.jrn.records <+: t.jrn.records
  journal : s.JournalFits → t.JournalFits
  money   : s.MoneyWhole → t.MoneyWhole
  refunds : s.RefundsFit → t.RefundsFit
  queue   : s.QueuePlaces → t.QueuePlaces

theorem Steady.refl (s : State) : Steady s s := ⟨id, fun _ => id, List.prefix_rfl, id, id, id, id⟩

theorem Steady.trans {s t u : State} (h : Steady s t) (k : Steady t u) : Steady s u :=
  ⟨k.attn ∘ h.attn, fun f => k.flags f ∘ h.flags f, h.records.trans k.records, k.journal ∘ h.journal, k.money ∘ h.money,
    k.refunds ∘ h.refunds, k.queue ∘ h.queue⟩

theorem Steady.ite {s t u : State} {c : Prop} [Decidable c] (h : Steady s t) (k : Steady s u) : Steady s (if c then t else u) := by
  split <;> assumption

/-! ## What the parts that stand keep -/

theorem ChangesOnly.attn {ps : List Part} {s t : State} (h : ChangesOnly ps s t) (hp : Part.evu ∉ ps) : s.AttnRight → t.AttnRight := by
  unfold State.AttnRight; rw [show t.evu = s.evu from h .evu hp]; exact id

theorem ChangesOnly.flags {ps : List Part} {s t : State} (h : ChangesOnly ps s t) (hp : Part.evu ∉ ps) (f : EventFlag) :
    s.evu.isSet f = true → t.evu.isSet f = true := by
  rw [show t.evu = s.evu from h .evu hp]; exact id

theorem ChangesOnly.records {ps : List Part} {s t : State} (h : ChangesOnly ps s t) (hp : Part.jrn ∉ ps) :
    s.jrn.records <+: t.jrn.records := by
  rw [show t.jrn = s.jrn from h .jrn hp]

theorem ChangesOnly.journal {ps : List Part} {s t : State} (h : ChangesOnly ps s t) (hp : Part.jrn ∉ ps) :
    s.JournalFits → t.JournalFits := by
  unfold State.JournalFits; rw [show t.jrn = s.jrn from h .jrn hp]; exact id

theorem ChangesOnly.money {ps : List Part} {s t : State} (h : ChangesOnly ps s t) (hp : Part.msv ∉ ps) :
    s.MoneyWhole → t.MoneyWhole := by
  unfold State.MoneyWhole State.record; rw [show t.msv = s.msv from h .msv hp]; exact id

theorem ChangesOnly.refunds {ps : List Part} {s t : State} (h : ChangesOnly ps s t) (hp : Part.cru ∉ ps) :
    s.RefundsFit → t.RefundsFit := by
  unfold State.RefundsFit; rw [show t.cru = s.cru from h .cru hp]; exact id

theorem ChangesOnly.queue {ps : List Part} {s t : State} (h : ChangesOnly ps s t) (hp : Part.mbc ∉ ps) :
    s.QueuePlaces → t.QueuePlaces := by
  unfold State.QueuePlaces; rw [show t.mbc = s.mbc from h .mbc hp]; exact id

/-- A change outside EVU, JRN, CRU, MSV and MBC is steady. -/
theorem ChangesOnly.steady {ps : List Part} {s t : State} (h : ChangesOnly ps s t)
    (hp : Part.evu ∉ ps ∧ Part.jrn ∉ ps ∧ Part.cru ∉ ps ∧ Part.msv ∉ ps ∧ Part.mbc ∉ ps := by decide) : Steady s t := by
  obtain ⟨he, hj, hc, hm, hb⟩ := hp
  exact ⟨h.attn he, h.flags he, h.records hj, h.journal hj, h.money hm, h.refunds hc, h.queue hb⟩

/-- A change of MSV alone is steady where every session's sum is kept. -/
theorem ChangesOnly.steady_msv {s t : State} (h : ChangesOnly [.msv] s t) (hm : s.MoneyWhole → t.MoneyWhole) : Steady s t :=
  ⟨h.attn (by decide), h.flags (by decide), h.records (by decide), h.journal (by decide), hm, h.refunds (by decide),
    h.queue (by decide)⟩

/-- A change of MBC alone is steady where the queue's places are kept. -/
theorem ChangesOnly.steady_mbc {s t : State} (h : ChangesOnly [.mbc] s t) (hq : s.QueuePlaces → t.QueuePlaces) : Steady s t :=
  ⟨h.attn (by decide), h.flags (by decide), h.records (by decide), h.journal (by decide), h.money (by decide),
    h.refunds (by decide), hq⟩

/-- A change of CRU alone is steady where the refund table keeps its size and its distinct serials. -/
theorem ChangesOnly.steady_cru {s t : State} (h : ChangesOnly [.cru] s t) (hr : s.RefundsFit → t.RefundsFit) : Steady s t :=
  ⟨h.attn (by decide), h.flags (by decide), h.records (by decide), h.journal (by decide), h.money (by decide), hr,
    h.queue (by decide)⟩

/-! ## EVU -/

theorem attnRight_iff_calls (s : State) : s.AttnRight ↔ s.evu.attn = s.evu.calls := by
  rw [State.AttnRight, ← Evu.calls_iff]; exact Bool.eq_iff_iff.symm

theorem setEvent_steady (f : EventFlag) (s : State) : Steady s (setEvent f s) :=
  have h := setEvent_changes f s
  ⟨fun _ => attnRight_of_findAttn rfl, fun _ hg => setEvent_keeps_isSet f hg, h.records (by decide), h.journal (by decide),
    h.money (by decide), h.refunds (by decide), h.queue (by decide)⟩

theorem setEventIf_steady (c : Bool) (f : EventFlag) (s : State) : Steady s (setEventIf c f s) :=
  .ite (setEvent_steady f s) (.refl s)

/-! ## The journal (R151 to R157) -/

/-- JRN's change is steady where it adds records at most and its counts still fit. -/
theorem withJournal_steady (j : Jrn) (s : State) (hr : s.jrn.records <+: j.records)
    (hf : s.jrn.records.length + s.jrn.reservations ≤ 128 → j.records.length + j.reservations ≤ 128) :
    Steady s (withJournal j s) := by
  have hj : Steady s (s.withJrn j) :=
    have h := withJrn_changes j s
    ⟨h.attn (by decide), h.flags (by decide), hr, hf, h.money (by decide), h.refunds (by decide), h.queue (by decide)⟩
  unfold withJournal; dsimp only; split
  · exact hj
  · split
    · exact hj
    · exact hj.trans (setEvent_steady _ _)
    · exact hj.trans (setEvent_steady _ _)

theorem returnSlots_steady (n : Nat) (s : State) : Steady s (returnSlots n s) :=
  withJournal_steady _ s List.prefix_rfl (fun h => by dsimp only; omega)

theorem Jrn.append_prefix (j : Jrn) (st : Option Stamp) (b : RecordBody) : j.records <+: (j.append st b).records :=
  List.prefix_append _ _

theorem noteWaiting_steady (j : Jrn) (s : State) : Steady s (noteWaiting j s) := setEventIf_steady _ _ s

/-- R148: the free count is what the records and reservations leave of the 128 slots. -/
theorem Jrn.free_eq (j : Jrn) : j.free = 128 - (j.records.length + j.reservations) := rfl

theorem writeFree_steady (b : RecordBody) (s : State) : Steady s (writeFree b s) := by
  unfold writeFree; split
  · have h := withJrn_changes { s.jrn with overflow := satInc 65535 s.jrn.overflow } s
    exact ⟨h.attn (by decide), h.flags (by decide), List.prefix_rfl, id, h.money (by decide), h.refunds (by decide),
      h.queue (by decide)⟩
  · next hfree =>
    rw [Jrn.free_eq] at hfree
    have hc := Jrn.append_counts s.jrn s.stamp b
    exact (withJournal_steady _ s (Jrn.append_prefix _ _ _) (fun _ => by omega)).trans (noteWaiting_steady _ _)

theorem writeMoney_steady (b : RecordBody) (s : State) : Steady s (writeMoney b s) := by
  unfold writeMoney; split
  · exact writeFree_steady b s
  · have hc := Jrn.append_counts s.jrn s.stamp b
    exact (withJournal_steady { s.jrn.append s.stamp b with reservations := s.jrn.reservations - 1 } s
      (Jrn.append_prefix _ _ _) (fun _ => by dsimp only; omega)).trans (noteWaiting_steady _ _)

theorem reserveSlots_steady {n : Nat} {s t : State} (h : reserveSlots n s = some t) : Steady s t := by
  obtain ⟨hn, rfl⟩ := reserveSlots_eq_some h
  rw [Jrn.free_eq] at hn
  exact withJournal_steady _ s List.prefix_rfl (fun _ => by dsimp only; omega)

/-! ## The credit tables (R118 to R126) -/

theorem mapRefund_steady (k : Nat) (f : RefundEntry → RefundEntry) (s : State) (hf : ∀ e, (f e).serial = e.serial) :
    Steady s (mapRefund k f s) := by
  refine (mapRefund_changes k f s).steady_cru fun h => ?_
  have hs : (mapRefund k f s).cru.refunds.map (·.serial) = s.cru.refunds.map (·.serial) := by
    simp only [mapRefund, State.withCru_cru, List.map_map]
    refine List.map_congr_left fun e _ => ?_
    simp only [Function.comp]; split <;> simp [hf]
  have hl : (mapRefund k f s).cru.refunds.length = s.cru.refunds.length := by simp [mapRefund]
  rw [State.RefundsFit, hs, hl]; exact h

theorem removeRefund_steady (k : Nat) (s : State) : Steady s (removeRefund k s) := by
  refine (removeRefund_changes k s).steady_cru fun h => ⟨?_, ?_⟩
  · exact (List.length_filter_le _ _).trans h.1
  · exact (List.filter_sublist.map _).nodup h.2

/-- CRU's change of the pending table alone is steady. -/
theorem withPendings_steady (l : List PendingEntry) (s : State) : Steady s (s.withCru { s.cru with pendings := l }) :=
  (withCru_changes _ s).steady_cru id

theorem removePending_steady (k : Nat) (s : State) : Steady s (removePending k s) := withPendings_steady _ s

theorem unpledge_steady (k : Nat) (s : State) : Steady s (unpledge k s) := mapRefund_steady k _ s fun _ => rfl

theorem pledgeFor_steady (o : Order) (s : State) : Steady s (pledgeFor o s) := mapRefund_steady _ _ s fun _ => rfl

/-- R120: an eviction from a table that is not empty shortens it. -/
theorem evictRefund_shortens {s : State} (h : s.cru.refunds ≠ []) : (evictRefund s).cru.refunds.length < s.cru.refunds.length := by
  have key : ∀ e ∈ s.cru.refunds, ∀ b, (removeRefund e.serial (writeMoney b s)).cru.refunds.length < s.cru.refunds.length := by
    intro e he b
    simp only [removeRefund, State.withCru_cru, writeMoney_cru]
    refine List.length_filter_lt_length_iff_exists.mpr ⟨e, he, by simp⟩
  unfold evictRefund
  split
  · next hn => simp_all
  · next e he =>
    refine key e ?_ _
    cases hf : s.cru.refunds.find? RefundEntry.evictable with
    | none => rw [hf, Option.none_or] at he; exact List.mem_of_mem_head? he
    | some x => rw [hf, Option.some_or, Option.some.injEq] at he; exact he ▸ List.mem_of_find?_eq_some hf

theorem evictRefund_steady (s : State) : Steady s (evictRefund s) := by
  unfold evictRefund; split
  · exact .refl s
  · exact (writeMoney_steady _ s).trans (removeRefund_steady _ _)

theorem recordCredit_steady (k : CreditKind) (serial amount origin after lost : Nat) (s : State) :
    Steady s (recordCredit k serial amount origin after lost s) := (writeMoney_steady _ s).trans (setEvent_steady _ _)

theorem creditExisting_steady (k : CreditKind) (e : RefundEntry) (amount origin : Nat) (s : State) :
    Steady s (creditExisting k e amount origin s) := by
  unfold creditExisting; dsimp only
  refine Steady.trans (Steady.trans ?_ (recordCredit_steady k _ _ _ _ _ _)) (returnSlots_steady 1 _)
  exact mapRefund_steady _ _ s fun _ => rfl

/-- The refund entry of a serial that has none. -/
theorem Cru.refund_eq_none {c : Cru} {serial : Nat} : c.refund serial = none ↔ ∀ e ∈ c.refunds, e.serial ≠ serial := by
  simp [Cru.refund]

/-- An eviction leaves entries of the table, in their order. -/
theorem evictRefund_sublist (s : State) : (evictRefund s).cru.refunds.Sublist s.cru.refunds := by
  unfold evictRefund; split
  · exact List.Sublist.refl _
  · simp only [removeRefund, State.withCru_cru, writeMoney_cru]; exact List.filter_sublist

/-- R119 step 2: the table once room has been made for a new entry. -/
theorem roomMade_length (s : State) (h : s.RefundsFit) :
    (if Config.refundEntries ≤ s.cru.refunds.length then evictRefund s else s).cru.refunds.length ≤ 31 := by
  unfold Config.refundEntries
  split
  · next hfull =>
    have := evictRefund_shortens (s := s) (by rintro he; simp [he] at hfull)
    have := h.1
    omega
  · omega

theorem roomMade_sublist (s : State) :
    (if Config.refundEntries ≤ s.cru.refunds.length then evictRefund s else s).cru.refunds.Sublist s.cru.refunds := by
  split
  · exact evictRefund_sublist s
  · exact List.Sublist.refl _

theorem creditNew_steady (k : CreditKind) (serial amount origin : Nat) (s : State) (hn : s.cru.refund serial = none) :
    Steady s (creditNew k serial amount origin s) := by
  set s1 := if Config.refundEntries ≤ s.cru.refunds.length then evictRefund s else s with hs1
  have h1 : Steady s s1 := .ite (evictRefund_steady s) (.refl s)
  let e : RefundEntry :=
    { serial := serial, amount := min amount Config.maxBalance, created := s.today, pledged := false, hold := none, origin := origin }
  let s2 := s1.withCru { s1.cru with refunds := s1.cru.refunds ++ [e] }
  have c2 : ChangesOnly [.cru] s1 s2 := withCru_changes _ s1
  have h2 : Steady s s2 :=
    ⟨c2.attn (by decide) ∘ h1.attn, fun f => c2.flags (by decide) f ∘ h1.flags f, h1.records.trans (c2.records (by decide)),
      c2.journal (by decide) ∘ h1.journal, c2.money (by decide) ∘ h1.money, ?_, c2.queue (by decide) ∘ h1.queue⟩
  · exact h2.trans (recordCredit_steady k _ _ _ _ _ _)
  · intro hf
    have hl := roomMade_length s hf
    have hsub := roomMade_sublist s
    rw [← hs1] at hl hsub
    have hnew : ∀ x ∈ s1.cru.refunds, x.serial ≠ serial := fun x hx => Cru.refund_eq_none.mp hn x (hsub.subset hx)
    refine ⟨?_, ?_⟩
    · simp only [s2, State.withCru_cru, List.length_append, List.length_singleton]; omega
    · simp only [s2, State.withCru_cru, List.map_append, List.map_cons, List.map_nil]
      refine List.nodup_append.mpr ⟨(h1.refunds hf).2, by simp, ?_⟩
      simpa [e] using hnew

theorem creditSerial_steady (k : CreditKind) (serial amount origin : Nat) (s : State) :
    Steady s (creditSerial k serial amount origin s) := by
  unfold creditSerial; split
  · exact creditExisting_steady k _ _ _ s
  · next h => exact creditNew_steady k _ _ _ s h

theorem RefundEntry.dated_serial (e : RefundEntry) (d : Nat) : (e.dated d).serial = e.serial := by
  unfold RefundEntry.dated; split
  · rfl
  · split <;> rfl

theorem expireEntry_steady (today : Nat) (s : State) (e : RefundEntry) : Steady s (expireEntry today s e) :=
  .ite ((writeMoney_steady _ s).trans (removeRefund_steady _ _))
    (mapRefund_steady _ _ s fun x => x.dated_serial today)

/-- A fold of steady operations is steady. -/
theorem Steady.foldl {α : Type} {f : State → α → State} (hf : ∀ s a, Steady s (f s a)) (l : List α) (s : State) :
    Steady s (l.foldl f s) := by
  induction l generalizing s with
  | nil => exact .refl s
  | cons a l ih => exact (hf s a).trans (ih (f s a))

theorem expiryCheck_steady (s : State) : Steady s (expiryCheck s) := by
  unfold expiryCheck; split
  · exact .refl s
  · exact .foldl (expireEntry_steady _) _ s

theorem settleRefund_steady (serial taken r : Nat) (s : State) : Steady s (settleRefund serial taken r s) := by
  unfold settleRefund; split
  · exact .refl s
  · exact .ite ((removeRefund_steady _ s).trans (returnSlots_steady 1 _)) (mapRefund_steady _ _ s fun _ => rfl)

theorem recordRemainder_steady (serial r : Nat) (s : State) : Steady s (recordRemainder serial r s) := by
  unfold recordRemainder; split
  · exact .refl s
  · exact (writeMoney_steady _ s).trans (setEvent_steady _ _)

theorem settleTables_steady (o : Order) (s : State) : Steady s (settleTables o s) := by
  have h1 (taken r : Nat) := (mapRefund_steady o.serial (fun e => { e with hold := none }) s fun _ => rfl).trans
    (settleRefund_steady o.serial taken r _)
  unfold settleTables; dsimp only; split
  · exact h1 _ _
  · have h2 := (h1 (o.folded.getD 0 + tookFolded o.resolution (s.cru.pendingOf o.serial))
      ((o.resolution.map Resolution.remainder).getD 0)).trans ((unpledge_steady o.serial _).trans (removePending_steady o.serial _))
    exact .ite (h2.trans (recordRemainder_steady _ _ _)) (h2.trans (returnSlots_steady 1 _))

theorem dropPending_steady (p : PendingEntry) (b c : Option Nat) (d : Detail) (s : State) : Steady s (dropPending p b c d s) :=
  (((writeMoney_steady _ s).trans (setEvent_steady _ _)).trans (unpledge_steady _ _)).trans (removePending_steady _ _)

theorem evictPending_steady (s : State) : Steady s (evictPending s) := by
  unfold evictPending; split
  · exact .refl s
  · exact dropPending_steady _ _ _ _ s

theorem createPending_steady (o : Order) (s : State) : Steady s (createPending o s) :=
  (((Steady.ite (evictPending_steady s) (.refl s)).trans (withPendings_steady _ _)).trans (pledgeFor_steady o _)).trans
    (returnSlots_steady 1 _)

theorem updatePending_steady (o : Order) (res : Resolution) (s : State) : Steady s (updatePending o res s) := by
  have h1 := settleRefund_steady o.serial (tookFolded (some res) (s.cru.pendingOf o.serial)) res.remainder s
  have h2 := Steady.ite (c := 0 < res.remainder) (h1.trans (recordRemainder_steady o.serial res.remainder _)) h1
  exact (((h2.trans (removePending_steady o.serial _)).trans (withPendings_steady _ _)).trans (pledgeFor_steady o _)).trans
    (returnSlots_steady _ _)

/-! ## Sessions (R2) -/

/-- A session's sum is kept from one session to another. -/
def Session.KeepsSum (z z' : Session) : Prop := z.consumed + z.value = z.total → z'.consumed + z'.value = z'.total

/-- A record's change is steady where the session it leaves is right, or keeps the sum of the one before. -/
theorem setRecord_steady (m : Addr) (r : MachineRecord) (s : State)
    (h : ∀ z', r.session = some z' → z'.consumed + z'.value = z'.total ∨ ∃ z, (s.record m).session = some z ∧ z.KeepsSum z') :
    Steady s (s.setRecord m r) := by
  refine (setRecord_changes m r s).steady_msv fun hs n z' hz => ?_
  rw [State.record_setRecord] at hz
  split at hz
  · obtain hw | ⟨z, hz0, hk⟩ := h z' hz
    · exact hw
    · exact hk (hs m z hz0)
  · exact hs n z' hz

theorem mapSession_steady (m : Addr) (f : Session → Session) (s : State) (h : ∀ z : Session, z.KeepsSum (f z)) :
    Steady s (s.mapSession m f) :=
  setRecord_steady m _ s fun z' hz => by
    obtain ⟨z, hz0, rfl⟩ := Option.map_eq_some_iff.mp hz
    exact .inr ⟨z, hz0, h z⟩

/-- A record changed in other fields than its session. -/
theorem mapRecord_steady (m : Addr) (f : MachineRecord → MachineRecord) (s : State)
    (h : ∀ r, (f r).session = none ∨ (f r).session = r.session) : Steady s (mapRecord m f s) :=
  setRecord_steady m _ s fun z' hz => .inr ⟨z', by
    obtain hn | he := h (s.record m)
    · rw [hn] at hz; cases hz
    · rw [← he]; exact hz, id⟩

theorem Session.meterStep_keepsSum (z : Session) : z.KeepsSum z.meterStep := by
  intro h
  have hle : z.value / z.minutes.getD 0 ≤ z.value := Nat.div_le_self _ _
  simp only [Session.meterStep]
  omega

theorem Session.tick_keepsSum (z : Session) (x : MState) (r : Bool) : z.KeepsSum (z.tick x r) := by
  intro h
  unfold Session.tick
  split
  · exact h
  · exact h
  · split
    · split
      · split <;> exact h
      · split <;> exact h
    · exact h
  · exact h

/-! ## The bus queue (R39) -/

/-- R39: a queue holds at most one entry of each class for any node. -/
def QueueApart (q : List BusEntry) : Prop := ∀ m c, (q.filter fun e => e.fills m c).length ≤ 1

theorem queuePlaces_iff (s : State) : s.QueuePlaces ↔ QueueApart s.mbc.queue := Iff.rfl

theorem QueueApart.sublist {p q : List BusEntry} (h : QueueApart q) (hs : p.Sublist q) : QueueApart p :=
  fun m c => ((hs.filter _).length_le).trans (h m c)

/-- An entry that fills no class's place joins. -/
theorem QueueApart.append {q : List BusEntry} (h : QueueApart q) {e : BusEntry} (he : e.command.cls = none) : QueueApart (q ++ [e]) := by
  intro m c
  have hn : e.fills m c = false := by simp [BusEntry.fills, he]
  simpa [List.filter_append, hn] using h m c

/-- The entries are changed without changing the places they fill. -/
theorem QueueApart.map {q : List BusEntry} (h : QueueApart q) {f : BusEntry → BusEntry}
    (hf : ∀ e m c, (f e).fills m c = e.fills m c) : QueueApart (q.map f) := by
  intro m c
  simpa [List.filter_map, Function.comp_def, hf] using h m c

theorem fills_iff {e : BusEntry} {m : Addr} {c : CommandClass} : e.fills m c = true ↔ e.addr = m ∧ e.command.cls = some c := by
  simp [BusEntry.fills]

/-- R39: a command of a class joins the tail or takes the place of the one that waits. -/
theorem QueueApart.enqueueIn {q : List BusEntry} (h : QueueApart q) (m : Addr) {c : CommandClass} {cmd : BusCommand} (o : BusOwner)
    (hc : cmd.cls = some c) : QueueApart (enqueueIn q m c cmd o) := by
  have hfill : ∀ n d, BusEntry.fills ⟨m, cmd, 0, none, o, false⟩ n d = decide (m = n ∧ c = d) := by
    intro n d; simp [BusEntry.fills, hc, Bool.decide_and]; rfl
  have hother : ∀ (x : BusEntry) n d, x.fills m c = true → x.fills n d = decide (m = n ∧ c = d) := by
    intro x n d hx
    obtain ⟨hx1, hx2⟩ := fills_iff.mp hx
    simp [BusEntry.fills, hx1, hx2, Bool.decide_and]; rfl
  unfold Machine.enqueueIn; dsimp only; split
  · refine h.map fun e n d => ?_
    by_cases he : e.fills m c = true
    · rw [if_pos he, hfill, hother e n d he]
    · rw [if_neg he]
  · next hnone =>
    intro n d
    simp only [List.filter_append, List.length_append, List.filter_singleton, hfill]
    by_cases hnd : m = n ∧ c = d
    · obtain ⟨rfl, rfl⟩ := hnd
      have : q.filter (fun e => e.fills m c) = [] := by simpa using hnone
      simp [this]
    · simpa [hnd] using h n d

theorem queueCommand_steady (m : Addr) (cmd : BusCommand) (o : BusOwner) (s : State) : Steady s (queueCommand m cmd o s) := by
  refine (queueCommand_changes m cmd o s).steady_mbc fun h => ?_
  unfold queueCommand; split
  · exact h
  · next c hc =>
    split
    · exact QueueApart.enqueueIn h m o hc
    · exact h

/-- MBC's change of anything but the queue is steady. -/
theorem withMbc_steady (b : Mbc) (s : State) (h : b.queue = s.mbc.queue := by rfl) : Steady s (s.withMbc b) :=
  (withMbc_changes b s).steady_mbc fun hq => by rw [queuePlaces_iff, State.withMbc_mbc, h]; exact hq

theorem mapNode_steady (m : Addr) (f : NodeEntry → NodeEntry) (s : State) : Steady s (mapNode m f s) := withMbc_steady _ s

theorem dropCommand_steady (m : Addr) (c : CommandClass) (s : State) : Steady s (dropCommand m c s) :=
  (dropCommand_changes m c s).steady_mbc fun h => QueueApart.sublist h List.filter_sublist

theorem sendCommand_steady (e : BusEntry) (c : CommandClass) (s : State) : Steady s (sendCommand e c s) := by
  unfold sendCommand; dsimp only
  refine .ite ?_ (.trans ?_ (mapNode_steady _ _ _))
  all_goals exact (withMbc_changes _ s).steady_mbc fun h => QueueApart.map h fun x m d => by split <;> rfl

theorem sendEntry_steady (s : State) (e : BusEntry) : Steady s (sendEntry s e) := by
  unfold sendEntry; split
  · exact (withMbc_changes _ s).steady_mbc fun h => QueueApart.sublist h List.filter_sublist
  · exact sendCommand_steady e _ s

theorem endDiscovery_steady (s : State) : Steady s (endDiscovery s) := withMbc_steady _ s

theorem offerNext_steady (s : State) : Steady s (offerNext s) := by
  unfold offerNext; split
  · exact endDiscovery_steady s
  · exact (withMbc_changes _ s).steady_mbc fun h => QueueApart.append h rfl

theorem startDiscovery_steady (c : DiscoveryCause) (s : State) : Steady s (startDiscovery c s) :=
  (withMbc_steady _ s).trans (offerNext_steady _)

theorem noteOccupied_steady (m : Addr) (s : State) : Steady s (noteOccupied m s) := .ite (withMbc_steady _ s) (.refl s)

theorem assignAnswered_steady (s : State) : Steady s (assignAnswered s) := (withMbc_steady _ s).trans (offerNext_steady _)

theorem assignUnanswered_steady (s : State) : Steady s (assignUnanswered s) :=
  .ite ((withMbc_steady _ s).trans (endDiscovery_steady _)) ((withMbc_steady _ s).trans (offerNext_steady _))

theorem closePeriod_steady (s : State) : Steady s (closePeriod s) :=
  (closePeriod_changes s).steady_mbc fun h => QueueApart.map h fun _ _ _ => rfl

theorem sendBeacon_steady (s : State) : Steady s (sendBeacon s) :=
  ((withMbc_steady _ s).trans (.foldl sendEntry_steady _ _)).trans (withOut_changes _ _).steady

end Sys2Proof.Machine
end

section
/-! PROOF. What the feeder's operations keep: the fill-slot limit (R56), the declared budget (R67), and the books that stand behind
sessions, orders and the card tables (R152). The relation `Keeps` joins these to `Steady`. -/
namespace Sys2Proof.Machine

/-! ## The relations -/

/-- R67: committed draw is within B_eff, or OVER_BUDGET is declared. -/
def Fba.Declared (f : Fba) : Prop := f.committed ≤ f.beff ∨ f.overBudget = true

/-- Between two states: what R56 and R67 hold of the first is held of the second. -/
structure Feeds (s t : State) : Prop where
  fill   : s.FillWithinLimit → t.FillWithinLimit
  budget : s.BudgetDeclared → t.BudgetDeclared

/-- Between two states: the stations and the pending debits stand, and of the reservations no more go than of what they are for
(R152). -/
structure Backed (s t : State) : Prop where
  pay      : t.pay = s.pay
  pendings : t.cru.pendings = s.cru.pendings
  slots    : t.slotsOwed + s.jrn.reservations ≤ s.slotsOwed + t.jrn.reservations

theorem Feeds.refl (s : State) : Feeds s s := ⟨id, id⟩
theorem Feeds.trans {s t u : State} (h : Feeds s t) (k : Feeds t u) : Feeds s u := ⟨k.fill ∘ h.fill, k.budget ∘ h.budget⟩
theorem Backed.refl (s : State) : Backed s s := ⟨rfl, rfl, le_refl _⟩
theorem Backed.trans {s t u : State} (h : Backed s t) (k : Backed t u) : Backed s u :=
  ⟨k.pay.trans h.pay, k.pendings.trans h.pendings, by have := h.slots; have := k.slots; omega⟩

/-- R94, R152: where stations and pending debits stand and the slots are backed, so are the books. -/
theorem Backed.books {s t : State} (h : Backed s t) : s.BooksBacked → t.BooksBacked := by
  have hx : ∀ st, t.exchange st = s.exchange st := fun st => by cases st <;> simp [State.exchange, h.pay]
  unfold State.BooksBacked State.CardsApart
  simp only [h.pay, h.pendings, hx]
  rintro ⟨h1, h2, h3, h4, h5⟩
  exact ⟨h1, h2, h3, h4, by have := h.slots; omega⟩

theorem Backed.cards {s t : State} (h : Backed s t) : s.CardsApart → t.CardsApart := by
  unfold State.CardsApart; rw [h.pay]; exact id

/-- Between two states, of an operation that concerns no order of a station: every invariant of the spec that is about single moments
is kept. -/
structure Keeps (s t : State) : Prop where
  steady : Steady s t
  feeds  : Feeds s t
  backed : Backed s t

theorem Keeps.refl (s : State) : Keeps s s := ⟨.refl s, .refl s, .refl s⟩
theorem Keeps.trans {s t u : State} (h : Keeps s t) (k : Keeps t u) : Keeps s u :=
  ⟨h.steady.trans k.steady, h.feeds.trans k.feeds, h.backed.trans k.backed⟩
theorem Keeps.ite {s t u : State} {c : Prop} [Decidable c] (h : Keeps s t) (k : Keeps s u) : Keeps s (if c then t else u) := by
  split <;> assumption
theorem Keeps.foldl {α : Type} {f : State → α → State} (hf : ∀ s a, Keeps s (f s a)) (l : List α) (s : State) :
    Keeps s (l.foldl f s) := by
  induction l generalizing s with
  | nil => exact .refl s
  | cons a l ih => exact (hf s a).trans (ih (f s a))
theorem Keeps.forMachines {f : Addr → State → State} (hf : ∀ m s, Keeps s (f m s)) (s : State) : Keeps s (forMachines f s) :=
  .foldl (fun s m => hf m s) _ s

/-! ## What the parts that stand keep -/

theorem ChangesOnly.feeds {ps : List Part} {s t : State} (h : ChangesOnly ps s t)
    (hp : Part.fba ∉ ps ∧ Part.sst ∉ ps ∧ Part.phase ∉ ps := by decide) : Feeds s t := by
  have hf : t.fba = s.fba := h .fba hp.1
  have hs : t.sst = s.sst := h .sst hp.2.1
  have hph : t.phase = s.phase := h .phase hp.2.2
  constructor
  · unfold State.FillWithinLimit; rw [hf, hs]; exact id
  · unfold State.BudgetDeclared; rw [hf, hph]; exact id

/-- The same machines have sessions in both states. -/
def SameSessions (s t : State) : Prop := ∀ m, (t.record m).session.isSome = (s.record m).session.isSome

theorem SameSessions.of_msv {s t : State} (h : t.msv = s.msv) : SameSessions s t := fun m => by simp [State.record, h]

/-- The books stand where stations, tables, reservations and the machines with sessions do. -/
theorem Backed.of_same {s t : State} (hp : t.pay = s.pay) (hc : t.cru = s.cru) (hr : t.jrn.reservations = s.jrn.reservations)
    (hs : SameSessions s t) : Backed s t := by
  have ho : t.slotsOwed = s.slotsOwed := by simp [State.slotsOwed, hp, hc, hs _]
  exact ⟨hp, by rw [hc], by rw [ho, hr]⟩

theorem ChangesOnly.backed {ps : List Part} {s t : State} (h : ChangesOnly ps s t)
    (hp : Part.pay ∉ ps ∧ Part.cru ∉ ps ∧ Part.jrn ∉ ps ∧ Part.msv ∉ ps := by decide) : Backed s t :=
  have hj : t.jrn = s.jrn := h .jrn hp.2.2.1
  .of_same (h .pay hp.1) (h .cru hp.2.1) (by rw [hj]) (.of_msv (h .msv hp.2.2.2))

/-- A change of blocks that no invariant is about. -/
theorem ChangesOnly.keeps {ps : List Part} {s t : State} (h : ChangesOnly ps s t)
    (hp : (Part.evu ∉ ps ∧ Part.jrn ∉ ps ∧ Part.cru ∉ ps ∧ Part.msv ∉ ps ∧ Part.mbc ∉ ps) ∧
      (Part.fba ∉ ps ∧ Part.sst ∉ ps ∧ Part.phase ∉ ps) ∧ Part.pay ∉ ps := by decide) : Keeps s t :=
  ⟨h.steady hp.1, h.feeds hp.2.1, h.backed ⟨hp.2.2, hp.1.2.2.1, hp.1.2.1, hp.1.2.2.2.1⟩⟩

/-! ## The shared operations -/

theorem setEvent_keeps (f : EventFlag) (s : State) : Keeps s (setEvent f s) :=
  ⟨setEvent_steady f s, (setEvent_changes f s).feeds, (setEvent_changes f s).backed⟩
theorem setEventIf_keeps (c : Bool) (f : EventFlag) (s : State) : Keeps s (setEventIf c f s) := .ite (setEvent_keeps f s) (.refl s)

theorem writeFree_reservations (b : RecordBody) (s : State) : (writeFree b s).jrn.reservations = s.jrn.reservations := by
  rw [writeFree_jrn]; split <;> rfl

theorem writeFree_keeps (b : RecordBody) (s : State) : Keeps s (writeFree b s) :=
  ⟨writeFree_steady b s, (writeFree_changes b s).feeds,
    .of_same (writeFree_pay b s) (writeFree_cru b s) (writeFree_reservations b s) (.of_msv (writeFree_msv b s))⟩

/-- A change of the bus alone that is steady keeps everything. -/
theorem Steady.keeps_mbc {s t : State} (h : Steady s t) (hc : ChangesOnly [.mbc] s t) : Keeps s t := ⟨h, hc.feeds, hc.backed⟩

theorem queueCommand_keeps (m : Addr) (c : BusCommand) (o : BusOwner) (s : State) : Keeps s (queueCommand m c o s) :=
  (queueCommand_steady m c o s).keeps_mbc (queueCommand_changes m c o s)
theorem queueControl_keeps (m : Addr) (c : BusCommand) (s : State) : Keeps s (queueControl m c s) := queueCommand_keeps m c .msv s
theorem mapNode_keeps (m : Addr) (f : NodeEntry → NodeEntry) (s : State) : Keeps s (mapNode m f s) :=
  (mapNode_steady m f s).keeps_mbc (mapNode_changes m f s)
theorem dropCommand_keeps (m : Addr) (c : CommandClass) (s : State) : Keeps s (dropCommand m c s) :=
  (dropCommand_steady m c s).keeps_mbc (dropCommand_changes m c s)
theorem setFaults_keeps (m : Addr) (r : FaultRecord) (s : State) : Keeps s (s.setFaults m r) := (setFaults_changes m r s).keeps
theorem setOpenMark_keeps (m : Addr) (b : Bool) (s : State) : Keeps s (setOpenMark m b s) := (setOpenMark_changes m b s).keeps

/-- A record that keeps its session, its sum kept, keeps everything. -/
theorem setRecord_keeps (m : Addr) (r : MachineRecord) (s : State) (hs : r.session.isSome = (s.record m).session.isSome)
    (h : ∀ z', r.session = some z' → z'.consumed + z'.value = z'.total ∨ ∃ z, (s.record m).session = some z ∧ z.KeepsSum z') :
    Keeps s (s.setRecord m r) :=
  ⟨setRecord_steady m r s h, (setRecord_changes m r s).feeds,
    .of_same rfl rfl rfl fun n => by
      rw [State.record_setRecord]; split
      · next e => rw [hs, e]
      · rfl⟩

theorem mapRecord_keeps (m : Addr) (f : MachineRecord → MachineRecord) (s : State)
    (h : ∀ r, (f r).session = r.session := by intro _; rfl) : Keeps s (mapRecord m f s) :=
  setRecord_keeps m _ s (by rw [h]) fun z' hz => .inr ⟨z', by rw [← h]; exact hz, id⟩

theorem mapSession_keeps (m : Addr) (f : Session → Session) (s : State)
    (h : ∀ z : Session, z.KeepsSum (f z) := by intro _ h; exact h) : Keeps s (s.mapSession m f) :=
  setRecord_keeps m _ s (by simp) fun z' hz => by
    obtain ⟨z, hz0, rfl⟩ := Option.map_eq_some_iff.mp hz
    exact .inr ⟨z, hz0, h z⟩

theorem queueArm_keeps (m : Addr) (s : State) : Keeps s (queueArm m s) := by
  unfold queueArm; split
  · exact .refl s
  · exact (mapSession_keeps m _ s).trans (queueControl_keeps m _ _)

/-! ## Grants, fill and draw -/

/-- Between two states: only FBA's books and the bus differ, steadily; fill is only given back, and B_eff and OVER_BUDGET stand. -/
structure Regrants (s t : State) : Prop where
  changes : ChangesOnly [.mbc, .fba] s t
  steady  : Steady s t
  fill    : t.fba.fillCount ≤ s.fba.fillCount
  beff    : t.fba.beff = s.fba.beff
  mark    : t.fba.overBudget = s.fba.overBudget

theorem Regrants.refl (s : State) : Regrants s s := ⟨.refl _ s, .refl s, le_refl _, rfl, rfl⟩
theorem Regrants.trans {s t u : State} (h : Regrants s t) (k : Regrants t u) : Regrants s u :=
  ⟨h.changes.seq k.changes, h.steady.trans k.steady, k.fill.trans h.fill, k.beff.trans h.beff, k.mark.trans h.mark⟩
theorem Regrants.ite {s t u : State} {c : Prop} [Decidable c] (h : Regrants s t) (k : Regrants s u) :
    Regrants s (if c then t else u) := by split <;> assumption

/-- Where grants are changed and the budget ends up declared, everything is kept. -/
theorem Regrants.keeps_of_declared {s t : State} (h : Regrants s t) (hd : s.fba.Declared → t.fba.Declared) : Keeps s t := by
  have hs : t.sst = s.sst := h.changes .sst (by decide)
  have hph : t.phase = s.phase := h.changes .phase (by decide)
  refine ⟨h.steady, ⟨fun hf => ?_, fun hb hr => hd (hb (hph ▸ hr))⟩, h.changes.backed⟩
  have := h.fill
  unfold State.FillWithinLimit at hf ⊢
  rw [hs]; omega

/-- Where grants are changed and committed draw does not rise, everything is kept. -/
theorem Regrants.keeps {s t : State} (h : Regrants s t) (hc : t.fba.committed ≤ s.fba.committed) : Keeps s t :=
  h.keeps_of_declared fun hd => by
    unfold Fba.Declared at *
    rw [h.beff, h.mark]
    exact hd.imp (fun k => hc.trans k) id

/-- FBA's change of anything but entries, B_eff and OVER_BUDGET. -/
theorem withFba_regrants (f : Fba) (s : State) (he : f.entries = s.fba.entries := by rfl) (hb : f.beff = s.fba.beff := by rfl)
    (ho : f.overBudget = s.fba.overBudget := by rfl) : Regrants s (s.withFba f) ∧ (s.withFba f).fba.committed = s.fba.committed :=
  have hc := withFba_changes f s
  ⟨⟨hc.up, hc.steady, le_of_eq (by simp [Fba.fillCount, he]), hb, ho⟩, by simp [Fba.committed, he]⟩

theorem withFba_keeps (f : Fba) (s : State) (he : f.entries = s.fba.entries := by rfl) (hb : f.beff = s.fba.beff := by rfl)
    (ho : f.overBudget = s.fba.overBudget := by rfl) : Keeps s (s.withFba f) :=
  have h := withFba_regrants f s he hb ho
  h.1.keeps (le_of_eq h.2)

theorem setGrant_regrants (m : Addr) (e : GrantEntry) (s : State) (hf : e.fill = true → (s.grant m).fill = true) :
    Regrants s (s.setGrant m e) := by
  have hc := setGrant_changes m e s
  refine ⟨hc.up, hc.steady, ?_, rfl, rfl⟩
  have h := fillCount_setGrant m e s
  have : e.fill.toNat ≤ (s.grant m).fill.toNat := Bool.toNat_le_toNat hf
  omega

/-- An entry changed without more fill or more draw keeps everything. -/
theorem mapGrant_keeps (m : Addr) (f : GrantEntry → GrantEntry) (s : State)
    (hf : ∀ e, (f e).fill = true → e.fill = true := by intro _; exact id)
    (hd : ∀ e, (f e).draw ≤ e.draw := by intro _; exact le_refl _) : Keeps s (mapGrant m f s) :=
  (setGrant_regrants m _ s (hf _)).keeps (by
    have h := committed_setGrant m (f (s.grant m)) s
    have := hd (s.grant m)
    omega)

theorem queueGrant_fillCount (m : Addr) (l : Level) (f : Bool) (s : State) :
    (queueGrant m l f s).fba.fillCount = s.fba.fillCount := by
  have h := fillCount_setGrant m { s.grant m with pending := true } s
  simp only [queueGrant, queueCommand, BusCommand.cls]
  split
  · split <;> exact Nat.add_right_cancel h
  · rfl

theorem queueGrant_steady (m : Addr) (l : Level) (f : Bool) (s : State) : Steady s (queueGrant m l f s) :=
  .ite ((setGrant_changes m _ s).steady.trans (queueCommand_steady m _ _ _)) (.refl s)

theorem queueGrant_regrants (m : Addr) (l : Level) (f : Bool) (s : State) : Regrants s (queueGrant m l f s) :=
  have h := queueGrant_budget m l f s
  ⟨queueGrant_changes m l f s, queueGrant_steady m l f s, le_of_eq (queueGrant_fillCount m l f s), h.2.1, h.2.2⟩

theorem queueGrant_keeps (m : Addr) (l : Level) (f : Bool) (s : State) : Keeps s (queueGrant m l f s) :=
  (queueGrant_regrants m l f s).keeps (le_of_eq (queueGrant_budget m l f s).1)

theorem changeGrant_steady (m : Addr) (l : Level) (f : Bool) (s : State) : Steady s (changeGrant m l f s) :=
  (mapGrant_changes m _ s).steady.trans (queueGrant_steady m l f _)

/-- A changed grant takes the fill given to it. -/
theorem changeGrant_fillCount (m : Addr) (l : Level) (f : Bool) (s : State) :
    (changeGrant m l f s).fba.fillCount + (s.grant m).fill.toNat = s.fba.fillCount + f.toNat := by
  unfold changeGrant
  rw [queueGrant_fillCount]
  exact fillCount_setGrant m _ s

theorem changeGrant_regrants (m : Addr) (l : Level) (f : Bool) (s : State) (hf : f = true → (s.grant m).fill = true) :
    Regrants s (changeGrant m l f s) :=
  (setGrant_regrants m _ s hf).trans (queueGrant_regrants m l f _)

/-! ## The admission queue -/

theorem addRaise_regrants (m : Addr) (l : Level) (f : Bool) (s : State) :
    Regrants s (addRaise m l f s) ∧ (addRaise m l f s).fba.committed = s.fba.committed := withFba_regrants _ s
theorem removeRaise_regrants (m : Addr) (s : State) :
    Regrants s (removeRaise m s) ∧ (removeRaise m s).fba.committed = s.fba.committed := withFba_regrants _ s
theorem setRaise_regrants (m : Addr) (l : Level) (f : Bool) (s : State) :
    Regrants s (setRaise m l f s) ∧ (setRaise m l f s).fba.committed = s.fba.committed := by
  unfold setRaise; split
  · exact withFba_regrants _ s
  · exact addRaise_regrants m l f s
theorem ensureRaise_regrants (m : Addr) (l : Level) (f : Bool) (s : State) :
    Regrants s (ensureRaise m l f s) ∧ (ensureRaise m l f s).fba.committed = s.fba.committed := by
  unfold ensureRaise; split
  · exact ⟨.refl s, rfl⟩
  · exact addRaise_regrants m l f s

theorem addRaise_keeps (m : Addr) (l : Level) (f : Bool) (s : State) : Keeps s (addRaise m l f s) := withFba_keeps _ s
theorem removeRaise_keeps (m : Addr) (s : State) : Keeps s (removeRaise m s) := withFba_keeps _ s
theorem removeStart_keeps (m : Addr) (s : State) : Keeps s (removeStart m s) := withFba_keeps _ s
theorem removeEntries_keeps (m : Addr) (s : State) : Keeps s (removeEntries m s) :=
  (removeRaise_keeps m s).trans (removeStart_keeps m _)
theorem addStart_keeps (m : Addr) (l : Level) (f : Bool) (s : State) : Keeps s (addStart m l f s) :=
  .ite (withFba_keeps _ s) (withFba_keeps _ s)

/-! ## Grants of the heads (R59 to R62) -/

theorem compareWanted_regrants (m : Addr) (s : State) : Regrants s (compareWanted m s) := by
  unfold compareWanted; dsimp only; split
  · next g w wf hg hw =>
    split
    · have h1 : Regrants s (if (if w.rank < g.rank then w else g) = g ∧ ((s.grant m).fill && wf) = (s.grant m).fill then s
          else changeGrant m (if w.rank < g.rank then w else g) ((s.grant m).fill && wf) s) :=
        .ite (.refl s) (changeGrant_regrants m _ _ s fun h => (Bool.and_eq_true_iff.mp h).1)
      exact .ite (h1.trans (setRaise_regrants m w wf _).1) (h1.trans (removeRaise_regrants m _).1)
    · exact .refl s
  · exact .refl s

/-- R60: a comparison with a grant at the lowest level leaves committed draw. -/
theorem compareWanted_committed {m : Addr} {s : State} {g : Level} (hg : (s.grant m).granted = some g) (h0 : g.rank = 0)
    (hd : (s.grant m).draw = (s.grant m).drawOf g) : (compareWanted m s).fba.committed = s.fba.committed := by
  unfold compareWanted; dsimp only; split
  · next g' w wf hg' hw =>
    obtain rfl : g = g' := Option.some.inj (hg.symm.trans hg')
    have hlow : (if w.rank < g.rank then w else g) = g := by simp [h0]
    have hch : (changeGrant m g ((s.grant m).fill && wf) s).fba.committed = s.fba.committed := by
      have := (changeGrant_budget m g ((s.grant m).fill && wf) s).1; omega
    have h1 : (if g = g ∧ ((s.grant m).fill && wf) = (s.grant m).fill then s
        else changeGrant m g ((s.grant m).fill && wf) s).fba.committed = s.fba.committed := by
      split
      · rfl
      · exact hch
    rw [hlow]; split
    · split
      · exact (setRaise_regrants m w wf _).2.trans h1
      · exact (removeRaise_regrants m _).2.trans h1
    · rfl
  · rfl

theorem enterRunning_keeps (m : Addr) (s : State) : Keeps s (enterRunning m s) :=
  setRecord_keeps m _ s (by simp) fun z' hz => by
    obtain ⟨z, hz0, rfl⟩ := Option.map_eq_some_iff.mp hz
    exact .inr ⟨z, hz0, id⟩

/-- What a grant of a head leaves: everything is kept, and committed draw is within B_eff. -/
structure Admits (s t : State) : Prop where
  keeps  : Keeps s t
  within : t.fba.committed ≤ t.fba.beff
  mark   : t.fba.overBudget = s.fba.overBudget

/-- What a grant is built of: steady and backed, with the fill and draw that it takes fitting. -/
theorem Admits.of_fits {s t : State} (hs : Steady s t) (hb : Backed s t) (hc : ChangesOnly [.msv, .mbc, .fba] s t)
    (hf : s.fba.fillCount ≤ s.fillLimit → t.fba.fillCount ≤ s.fillLimit) (hw : t.fba.committed ≤ t.fba.beff)
    (ho : t.fba.overBudget = s.fba.overBudget) : Admits s t := by
  refine ⟨⟨hs, ⟨fun h => ?_, fun _ _ => .inl hw⟩, hb⟩, hw, ho⟩
  unfold State.FillWithinLimit
  rw [show t.sst = s.sst from hc .sst (by decide)]
  exact hf h

theorem fits_iff {f : Fba} {limit present target : Nat} {slot : Bool} :
    f.fits limit present target slot = true ↔
      f.committed - present + target ≤ f.beff ∧ (slot = true → f.fillCount + 1 ≤ limit) := by
  cases slot <;> simp [Fba.fits]

theorem grantRaise_admits {e : AdmEntry} {s t : State} (h : grantRaise e s = some t) : Admits s t := by
  obtain ⟨hw, -, ho⟩ := grantRaise_budget h
  have hc : ChangesOnly [.mbc, .fba] s t := by
    unfold grantRaise at h; dsimp only at h; split at h
    · cases h; exact (removeRaise_changes _ s).seq (changeGrant_changes _ _ _ _)
    · cases h
  refine .of_fits ?_ hc.backed hc.up ?_ hw ho
  · unfold grantRaise at h; dsimp only at h; split at h
    · cases h; exact (removeRaise_keeps _ s).steady.trans (changeGrant_steady _ _ _ _)
    · cases h
  · intro hl
    unfold grantRaise at h; dsimp only at h; split at h
    · next hfit =>
      cases h
      have hn := (fits_iff.mp hfit).2
      have hch : (changeGrant e.machine e.level ((s.grant e.machine).fill || e.fill) (removeRaise e.machine s)).fba.fillCount
          + (s.grant e.machine).fill.toNat = s.fba.fillCount + ((s.grant e.machine).fill || e.fill).toNat :=
        changeGrant_fillCount e.machine e.level _ (removeRaise e.machine s)
      cases hx : (s.grant e.machine).fill <;> cases hy : e.fill <;> simp only [hx, hy, Bool.or_true, Bool.or_false, Bool.toNat_true,
        Bool.toNat_false, Bool.not_false, Bool.and_self, forall_const] at hch hn ⊢ <;> omega
    · cases h

/-- R60, R61: the grant table and the start list once a START is granted at a level, before MSV is told. -/
def startGranted (m : Addr) (e : GrantEntry) (s : State) : State :=
  let s1 := s.setGrant m e
  removeStart m (s1.withFba { s1.fba with startList := s1.fba.startList ++ [m] })

theorem startGranted_changes (m : Addr) (e : GrantEntry) (s : State) : ChangesOnly [.fba] s (startGranted m e s) :=
  ((setGrant_changes m e s).seq (withFba_changes _ _) (rs := [.fba])).seq (removeStart_changes m _)

theorem startGranted_fba (m : Addr) (e : GrantEntry) (s : State) :
    (startGranted m e s).fba.committed = (s.setGrant m e).fba.committed ∧
    (startGranted m e s).fba.fillCount = (s.setGrant m e).fba.fillCount ∧
    (startGranted m e s).fba.beff = s.fba.beff ∧ (startGranted m e s).fba.overBudget = s.fba.overBudget := ⟨rfl, rfl, rfl, rfl⟩

/-- R60, R61: a START entry is granted at a level: GRANT is queued and the record enters RUNNING. -/
def startRuns (m : Addr) (e : GrantEntry) (l : Level) (f : Bool) (s : State) : State :=
  enterRunning m (queueGrant m l f (startGranted m e s))

theorem grantWasherStart_eq (m : Addr) (d : LevelDraws) (s : State) :
    grantWasherStart m d s = compareWanted m (startRuns m ({ s.grant m with draws := some d }.regrant .base true) .base true s) := rfl

theorem startRuns_steady (m : Addr) (e : GrantEntry) (l : Level) (f : Bool) (s : State) : Steady s (startRuns m e l f s) :=
  ((startGranted_changes m e s).steady.trans (queueGrant_steady m l f _)).trans (enterRunning_keeps m _).steady

theorem startRuns_backed (m : Addr) (e : GrantEntry) (l : Level) (f : Bool) (s : State) : Backed s (startRuns m e l f s) :=
  ((startGranted_changes m e s).backed.trans (queueGrant_keeps m l f _).backed).trans (enterRunning_keeps m _).backed

theorem startRuns_changes (m : Addr) (e : GrantEntry) (l : Level) (f : Bool) (s : State) :
    ChangesOnly [.msv, .mbc, .fba] s (startRuns m e l f s) :=
  ((startGranted_changes m e s).seq (queueGrant_changes m l f _) (rs := [.msv, .mbc, .fba])).seq (enterRunning_changes m _)

theorem startRuns_fba (m : Addr) (e : GrantEntry) (l : Level) (f : Bool) (s : State) :
    (startRuns m e l f s).fba.committed + (s.grant m).draw = s.fba.committed + e.draw ∧
    (startRuns m e l f s).fba.fillCount + (s.grant m).fill.toNat = s.fba.fillCount + e.fill.toNat ∧
    (startRuns m e l f s).fba.beff = s.fba.beff ∧ (startRuns m e l f s).fba.overBudget = s.fba.overBudget := by
  have hb := queueGrant_budget m l f (startGranted m e s)
  have hf := queueGrant_fillCount m l f (startGranted m e s)
  have hsame : (startRuns m e l f s).fba = (queueGrant m l f (startGranted m e s)).fba := rfl
  rw [hsame, hb.1, hb.2.1, hb.2.2, hf]
  exact ⟨committed_setGrant m e s, fillCount_setGrant m e s, rfl, rfl⟩

theorem startRuns_grant (m : Addr) (e : GrantEntry) (l : Level) (f : Bool) (s : State) :
    (startRuns m e l f s).grant m = e ∨ (startRuns m e l f s).grant m = { e with pending := true } := by
  have hg : (startGranted m e s).grant m = e := PerMachine.at_put_self _ _ _
  have hsame : (startRuns m e l f s).grant m = (queueGrant m l f (startGranted m e s)).grant m := rfl
  rw [hsame]
  unfold queueGrant; split
  · right
    have : (queueCommand m (.grant l f) .fba ((startGranted m e s).setGrant m { (startGranted m e s).grant m with pending := true })).fba =
        ((startGranted m e s).setGrant m { (startGranted m e s).grant m with pending := true }).fba :=
      queueCommand_changes m _ _ _ .fba (by decide)
    rw [State.grant, this, ← State.grant, State.grant_setGrant, if_pos rfl, hg]
  · exact .inl hg

theorem grantWasherStart_admits {m : Addr} {b h : Nat} {s : State} (hf : s.fba.fits s.fillLimit 0 b true = true) :
    Admits s (grantWasherStart m (.washer b h) s) := by
  obtain ⟨hw, hslot⟩ := fits_iff.mp hf
  have hslot := hslot rfl
  rw [grantWasherStart_eq]
  set e := ({ s.grant m with draws := some (.washer b h) } : GrantEntry).regrant .base true with he
  have hed : e.draw = b := rfl
  have hef : e.fill = true := rfl
  obtain ⟨hc, hfl, hbe, hov⟩ := startRuns_fba m e .base true s
  have hr := compareWanted_regrants m (startRuns m e .base true s)
  have hcom : (compareWanted m (startRuns m e .base true s)).fba.committed = (startRuns m e .base true s).fba.committed := by
    refine compareWanted_committed (g := .base) ?_ rfl ?_
    · obtain h1 | h1 := startRuns_grant m e .base true s <;> rw [h1] <;> rfl
    · obtain h1 | h1 := startRuns_grant m e .base true s <;> rw [h1] <;> rfl
  refine .of_fits ((startRuns_steady m e _ _ s).trans hr.steady) ((startRuns_backed m e _ _ s).trans hr.changes.backed)
    ((startRuns_changes m e _ _ s).seq hr.changes) ?_ ?_ (hr.mark.trans hov)
  · intro _
    have := hr.fill
    rw [hef] at hfl
    simp only [Bool.toNat_true] at hfl
    omega
  · rw [hcom, hr.beff, hbe]
    omega

theorem grantDryerStart_admits {m : Addr} {a l h : Nat} {x target : Level} {s : State}
    (hf : s.fba.fits s.fillLimit 0 ((LevelDraws.dryer a l h).draw x) false = true) :
    Admits s (grantDryerStart m (.dryer a l h) x target s) := by
  have hw := (fits_iff.mp hf).1
  let e : GrantEntry := { ({ s.grant m with draws := some (.dryer a l h) } : GrantEntry).regrant x false with
    held := x == .air && decide (x.rank < target.rank) }
  have hrun : grantDryerStart m (.dryer a l h) x target s =
      if x.rank < target.rank then addRaise m target false (startRuns m e x false s) else startRuns m e x false s := rfl
  obtain ⟨hc, hfl, hbe, hov⟩ := startRuns_fba m e x false s
  have hed : e.draw = (LevelDraws.dryer a l h).draw x := rfl
  have hef : e.fill = false := rfl
  have hbase : Admits s (startRuns m e x false s) := by
    refine .of_fits (startRuns_steady m e _ _ s) (startRuns_backed m e _ _ s) (startRuns_changes m e _ _ s) ?_ ?_ hov
    · intro hl
      rw [hef] at hfl
      simp only [Bool.toNat_false] at hfl
      omega
    · rw [hbe]; omega
  rw [hrun]; split
  · have hr := addRaise_regrants m target false (startRuns m e x false s)
    refine ⟨hbase.keeps.trans (addRaise_keeps m target false _), ?_, hr.1.mark.trans hbase.mark⟩
    rw [hr.2, hr.1.beff]; exact hbase.within
  · exact hbase

theorem grantStart_admits {e : AdmEntry} {s t : State} (h : grantStart e s = some t) : Admits s t := by
  unfold grantStart at h; split at h
  · cases h
  · split at h
    · split at h
      · next hf => cases h; exact grantWasherStart_admits hf
      · cases h
    · split at h
      · next hx => cases h; exact grantDryerStart_admits (by simpa using List.find?_some hx)
      · cases h

theorem grantHead_admits {s t : State} (h : grantHead s = some t) : Admits s t := by
  unfold grantHead at h; split at h
  · exact grantRaise_admits h
  · exact grantStart_admits h
  · cases h

/-- R59: what heads granted one after the other keep, committed draw within B_eff among it. -/
theorem grantHeads_keeps (n : Nat) (s : State) :
    Keeps s (grantHeads n s) ∧ (s.fba.committed ≤ s.fba.beff → (grantHeads n s).fba.committed ≤ (grantHeads n s).fba.beff) := by
  induction n generalizing s with
  | zero => exact ⟨.refl s, id⟩
  | succ n ih =>
    unfold grantHeads; split
    · exact ⟨.refl s, id⟩
    · next t ht =>
      have ha := grantHead_admits ht
      exact ⟨ha.keeps.trans (ih t).1, fun _ => (ih t).2 ha.within⟩

theorem clearOverBudget_keeps (s : State) : Keeps s (clearOverBudget s) := by
  unfold clearOverBudget; split
  · next h =>
    have hc := withFba_changes { s.fba with overBudget := false } s
    exact ⟨hc.steady, ⟨id, fun _ _ => .inl h⟩, hc.backed⟩
  · exact .refl s

theorem reexamine_keeps (s : State) : Keeps s (reexamine s) := .ite (.refl s) (grantHeads_keeps _ s).1

theorem review_keeps (s : State) : Keeps s (review s) := (clearOverBudget_keeps s).trans (reexamine_keeps _)

/-- R67: a review leaves a declared budget declared. -/
theorem review_declared {s : State} (h : s.fba.Declared) : (review s).fba.Declared := by
  have hclear : (clearOverBudget s).fba.Declared := by
    unfold clearOverBudget; split
    · next hc => exact .inl hc
    · exact h
  unfold review reexamine; split
  · exact hclear
  · next ho => exact .inl ((grantHeads_keeps _ _).2 (hclear.resolve_right ho))

/-! ## Shedding (R65 to R67) -/

theorem shedOne_regrants (m : Addr) (l : Level) (s : State) : Regrants s (shedOne m l s) :=
  (changeGrant_regrants m l _ s id).trans (ensureRaise_regrants m _ _ _).1

theorem shedStep_regrants (u l : Level) (s : State) : Regrants s (shedStep u l s) := by
  unfold shedStep
  generalize s.fba.startList.reverse = ms
  induction ms generalizing s with
  | nil => exact .refl s
  | cons m ms ih => exact (Regrants.ite (shedOne_regrants m l s) (.refl s)).trans (ih _)

/-- Where a change of grants is followed by a state that is declared, everything is kept. -/
theorem Keeps.of_regrants {s t u : State} (h : Regrants s t) (k : Keeps t u) (hd : u.fba.Declared) : Keeps s u := by
  refine ⟨h.steady.trans k.steady, ⟨fun hf => k.feeds.fill ?_, fun _ _ => hd⟩, h.changes.backed.trans k.backed⟩
  have := h.fill
  unfold State.FillWithinLimit at hf ⊢
  rw [show t.sst = s.sst from h.changes .sst (by decide)]
  omega

/-- OVER_BUDGET is declared, with its event on the declaration (R67). -/
theorem declareOver_keeps (s : State) :
    Keeps s (setEventIf (!s.fba.overBudget) .overBudget (s.withFba { s.fba with overBudget := true })) := by
  have hc := withFba_changes { s.fba with overBudget := true } s
  exact Keeps.trans ⟨hc.steady, ⟨id, fun _ _ => .inr rfl⟩, hc.backed⟩ (setEventIf_keeps _ _ _)

/-- R65, R67: a budget check keeps everything, and leaves the budget declared. -/
theorem budgetCheck_declares (s : State) : Keeps s (budgetCheck s) ∧ (budgetCheck s).fba.Declared := by
  have hr : Regrants s (shedStep .heat .base (shedStep .low .air (shedStep .high .low s))) :=
    ((shedStep_regrants _ _ s).trans (shedStep_regrants _ _ _)).trans (shedStep_regrants _ _ _)
  unfold budgetCheck; dsimp only
  generalize shedStep .heat .base (shedStep .low .air (shedStep .high .low s)) = s1 at hr
  split
  · next hc => exact ⟨.of_regrants hr (review_keeps s1) (review_declared (.inl hc)), review_declared (.inl hc)⟩
  · have hd : (setEventIf (!s1.fba.overBudget) .overBudget (s1.withFba { s1.fba with overBudget := true })).fba.Declared := by
      rw [setEventIf_fba]; exact .inr rfl
    exact ⟨.of_regrants hr (declareOver_keeps s1) hd, hd⟩

/-- R65, R67: a check or a review keeps everything, and leaves the budget declared. -/
theorem checkOrReview_declares (s : State) : Keeps s (checkOrReview s) ∧ (checkOrReview s).fba.Declared := by
  unfold checkOrReview; split
  · exact budgetCheck_declares s
  · next h => exact ⟨review_keeps s, review_declared (.inl (by omega))⟩

theorem reviewDecrease_declares (s : State) : Keeps s (reviewDecrease s) ∧ (reviewDecrease s).fba.Declared := by
  unfold reviewDecrease; split
  · next h => exact ⟨review_keeps s, review_declared (.inr h)⟩
  · exact checkOrReview_declares s

/-- R52: B_eff found again keeps everything, and leaves the budget declared. -/
theorem recomputeBudget_declares (s : State) : Keeps s (recomputeBudget s) ∧ (recomputeBudget s).fba.Declared := by
  have hc := withFba_changes { s.fba with beff := s.effectiveBudget } s
  have h := checkOrReview_declares (s.withFba { s.fba with beff := s.effectiveBudget })
  exact ⟨⟨hc.steady.trans h.1.steady, ⟨h.1.feeds.fill, fun _ _ => h.2⟩, hc.backed.trans h.1.backed⟩, h.2⟩

/-! ## Release, silence, reports (R68 to R72) -/

theorem releaseGrant_keeps (m : Addr) (s : State) : Keeps s (releaseGrant m s) := by
  unfold releaseGrant; dsimp only; split
  · exact (removeEntries_keeps m s).trans (review_keeps _)
  · next g hg =>
    have h1 : Keeps s (mapGrant m (fun e =>
        { e with granted := none, fill := false, draw := 0, heldSilent := false, held := false, draws := none }) s) :=
      mapGrant_keeps m _ s (fun _ h => by cases h) (fun _ => Nat.zero_le _)
    refine Keeps.trans ?_ (review_keeps _)
    generalize mapGrant m _ s = s1 at h1
    have h2 : Keeps s (removeEntries m (s1.withFba { s1.fba with startList := s1.fba.startList.filter (· != m) })) :=
      (h1.trans (withFba_keeps _ s1)).trans (removeEntries_keeps m _)
    exact .ite (h2.trans (queueGrant_keeps m _ _ _)) h2

theorem feederSilent_keeps (m : Addr) (s : State) : Keeps s (feederSilent m s) :=
  .ite (.refl s) (((mapGrant_keeps m _ s).trans (removeEntries_keeps m _)).trans (review_keeps _))

theorem feederHeard_keeps (m : Addr) (s : State) : Keeps s (feederHeard m s) := mapGrant_keeps m _ s

theorem rebuildIfHeld_keeps (m : Addr) (a : Level) (f : Bool) (s : State) : Keeps s (rebuildIfHeld m a f s) := by
  unfold rebuildIfHeld; split
  · next g _ _ =>
    have h1 : Regrants s (mapGrant m (fun e => e.rebuilt g a f) s) :=
      setGrant_regrants m _ s fun h => (Bool.and_eq_true_iff.mp h).1
    have hc := checkOrReview_declares
    unfold rebuildGrant; dsimp only
    exact .of_regrants (.ite (h1.trans (queueGrant_regrants m _ _ _)) h1) (hc _).1 (hc _).2
  · exact .refl s

theorem GrantEntry.countExcess_fill (e : GrantEntry) (a : Level) (f : Bool) :
    (e.countExcess a f).fill = e.fill ∧ (e.countExcess a f).draw = e.draw := by
  unfold GrantEntry.countExcess; split
  · exact ⟨rfl, rfl⟩
  · split <;> exact ⟨rfl, rfl⟩

theorem feederReport_keeps (m : Addr) (r : NodeReport) (s : State) : Keeps s (feederReport m r s) := by
  have h1 : Keeps s (mapGrant m (·.reported r) s) :=
    mapGrant_keeps m _ s (fun e h => (e.countExcess_fill _ _).1 ▸ h) (fun e => le_of_eq (e.countExcess_fill _ _).2)
  unfold feederReport; dsimp only; split
  · exact h1
  · refine h1.trans ?_
    split
    · have hd := reviewDecrease_declares (compareWanted m (rebuildIfHeld m r.actual r.actualFill (mapGrant m (·.reported r) s)))
      exact (rebuildIfHeld_keeps m _ _ _).trans (.of_regrants (compareWanted_regrants m _) hd.1 hd.2)
    · exact rebuildIfHeld_keeps m _ _ _
    · exact .ite ((addStart_keeps m _ _ _).trans (review_keeps _)) (.refl _)
    · exact .refl _

theorem takeLine_keeps (s : State) : Keeps s (takeLine s) :=
  ((withFba_keeps _ s).trans (recomputeBudget_declares _).1).trans (setEventIf_keeps _ _ _)

theorem tellOwner_keeps (m : Addr) (c : BusCommand) (b : Bool) (s : State) : Keeps s (tellOwner m c b s) := by
  unfold tellOwner; split
  · exact .ite (mapSession_keeps m _ s) (.refl s)
  · exact mapGrant_keeps m (fun e => { e with pending := false }) s
  all_goals exact .refl s

theorem acknowledge_keeps (m : Addr) (c : CommandClass) (n : Nat) (s : State) : Keeps s (acknowledge m c n s) := by
  unfold acknowledge; split
  · exact .refl s
  · exact .ite ((dropCommand_keeps m c s).trans (tellOwner_keeps m _ _ _)) (.refl s)

end Sys2Proof.Machine
end

section
/-! PROOF. What the operations of the sessions, the faults, the reports and the timers keep (chapters 01, 02 and 07): the relation
`Keeps` for each of them. The books stay backed where a session ends, since its two reservations are what its refund takes. -/
namespace Sys2Proof.Machine

/-! ## Slots that the tables take (R118 to R126, R152) -/

/-- R152: one slot for each entry of the two tables of CRU. -/
def State.tableSlots (s : State) : Nat := s.cru.refunds.length + s.cru.pendings.length

/-- Of the reservations, so many at most go without an entry of the tables going with them. -/
def Uses (k : Nat) (s t : State) : Prop := t.tableSlots + s.jrn.reservations ≤ s.tableSlots + t.jrn.reservations + k

theorem Uses.seq {j k : Nat} {s t u : State} (h : Uses j s t) (i : Uses k t u) : Uses (j + k) s u := by
  unfold Uses at *; omega

theorem Uses.mono {j k : Nat} {s t : State} (h : Uses j s t) (hk : j ≤ k := by decide) : Uses k s t := by
  unfold Uses at *; omega

theorem Uses.of_same {s t : State} (hc : t.cru = s.cru) (hr : t.jrn.reservations = s.jrn.reservations) : Uses 0 s t := by
  unfold Uses State.tableSlots; rw [hc, hr, Nat.add_zero]

theorem setEvent_uses (f : EventFlag) (s : State) : Uses 0 s (setEvent f s) := .of_same rfl rfl

theorem returnSlots_uses (n : Nat) (s : State) : Uses n s (returnSlots n s) := by
  unfold Uses State.tableSlots
  rw [returnSlots_cru, returnSlots_jrn]
  dsimp only; omega

theorem writeMoney_reservations (b : RecordBody) (s : State) : (writeMoney b s).jrn.reservations = s.jrn.reservations - 1 := by
  by_cases h : s.jrn.reservations = 0
  · rw [writeMoney, if_pos h, writeFree_reservations, h]
  · rw [writeMoney_jrn _ _ h]

theorem writeMoney_uses (b : RecordBody) (s : State) : Uses 1 s (writeMoney b s) := by
  unfold Uses State.tableSlots
  rw [writeMoney_cru, writeMoney_reservations]
  omega

/-- An entry of the refund table changed in place takes no slot. -/
theorem mapRefund_uses (k : Nat) (f : RefundEntry → RefundEntry) (s : State) : Uses 0 s (mapRefund k f s) := by
  simp [Uses, State.tableSlots, mapRefund]

theorem removeRefund_uses (k : Nat) (s : State) : Uses 0 s (removeRefund k s) := by
  have := List.length_filter_le (fun e : RefundEntry => e.serial != k) s.cru.refunds
  simp only [Uses, State.tableSlots, removeRefund, State.withCru_cru, State.withCru_jrn]
  omega

theorem evictRefund_uses (s : State) : Uses 0 s (evictRefund s) := by
  by_cases h : s.cru.refunds = []
  · simp [evictRefund, h, Uses]
  · have hlen := evictRefund_shortens h
    have hp : (evictRefund s).cru.pendings = s.cru.pendings := by
      unfold evictRefund; split
      · rfl
      · simp [removeRefund]
    have hr : s.jrn.reservations - 1 ≤ (evictRefund s).jrn.reservations := by
      unfold evictRefund; split
      · omega
      · simp only [removeRefund, State.withCru_jrn, writeMoney_reservations]; omega
    unfold Uses State.tableSlots
    rw [hp]; omega

theorem recordCredit_uses (k : CreditKind) (serial amount origin after lost : Nat) (s : State) :
    Uses 1 s (recordCredit k serial amount origin after lost s) := (writeMoney_uses _ s).seq (setEvent_uses _ _)

/-- R119: a credit takes its caller's two reservations at most. -/
theorem creditSerial_uses (k : CreditKind) (serial amount origin : Nat) (s : State) :
    Uses 2 s (creditSerial k serial amount origin s) := by
  unfold creditSerial; split
  · unfold creditExisting; dsimp only
    exact ((mapRefund_uses _ _ s).seq (recordCredit_uses k _ _ _ _ _ _)).seq (returnSlots_uses 1 _)
  · unfold creditNew; dsimp only
    have h1 : Uses 0 s (if Config.refundEntries ≤ s.cru.refunds.length then evictRefund s else s) := by
      split
      · exact evictRefund_uses s
      · exact .of_same rfl rfl
    refine Uses.seq (j := 1) (h1.seq (k := 1) ?_) (recordCredit_uses k _ _ _ _ _ _)
    simp only [Uses, State.tableSlots, State.withCru_cru, State.withCru_jrn, List.length_append, List.length_singleton]
    omega

theorem evictRefund_pendings (s : State) : (evictRefund s).cru.pendings = s.cru.pendings := by
  unfold evictRefund; split
  · rfl
  · simp [removeRefund]

/-- R119: a credit leaves the pending debits. -/
theorem creditSerial_pendings (k : CreditKind) (serial amount origin : Nat) (s : State) :
    (creditSerial k serial amount origin s).cru.pendings = s.cru.pendings := by
  unfold creditSerial; split
  · simp [creditExisting, recordCredit, mapRefund]
  · simp only [creditNew, recordCredit, setEvent_cru, writeMoney_cru, State.withCru_cru]
    split
    · exact evictRefund_pendings s
    · rfl

/-! ## Sessions and the slots they hold (R152) -/

/-- How many machines have a session. -/
def State.sessionCount (s : State) : Nat := (allMachines.filter fun m => (s.record m).session.isSome).length

/-- The ORDERED exchanges. -/
def State.orders (s : State) : List Order := s.pay.a.order.toList ++ s.pay.b.order.toList

theorem slotsOwed_eq (s : State) : s.slotsOwed = 3 * s.orders.length + 2 * s.sessionCount + s.tableSlots := by
  unfold State.slotsOwed State.orders State.sessionCount State.tableSlots; omega

theorem mem_allMachines (m : Addr) : m ∈ allMachines := by
  have : ∀ m, m ∈ allMachines := by decide
  exact this m

theorem allMachines_nodup : allMachines.Nodup := by decide

/-- The count of a mark that is changed at one place of a list. -/
theorem length_filter_update {α : Type} [DecidableEq α] {f g : α → Bool} {m : α} {l : List α} (hn : l.Nodup) (hm : m ∈ l)
    (hfg : ∀ n, n ≠ m → g n = f n) : (l.filter g).length + (f m).toNat = (l.filter f).length + (g m).toNat := by
  induction l with
  | nil => cases hm
  | cons a l ih =>
    obtain ⟨ha, hl⟩ := List.nodup_cons.mp hn
    by_cases ham : a = m
    · subst ham
      have hsame : l.filter g = l.filter f := List.filter_congr fun n hn' => hfg n fun e => ha (e ▸ hn')
      cases hga : g a <;> cases hfa : f a <;> simp [hga, hfa, hsame]
    · have h := ih hl ((List.mem_cons.mp hm).resolve_left (Ne.symm ham))
      cases hfa : f a <;> simp [hfg a ham, hfa] <;> omega

theorem sessionCount_setRecord (m : Addr) (r : MachineRecord) (s : State) :
    (s.setRecord m r).sessionCount + (s.record m).session.isSome.toNat = s.sessionCount + r.session.isSome.toNat := by
  have h := length_filter_update (f := fun n => (s.record n).session.isSome)
    (g := fun n => ((s.setRecord m r).record n).session.isSome) allMachines_nodup (mem_allMachines m)
    (fun n hn => by simp [Ne.symm hn])
  simpa [State.sessionCount] using h

theorem sessionCount_of_msv {s t : State} (h : t.msv = s.msv) : t.sessionCount = s.sessionCount := by
  simp [State.sessionCount, State.record, h]

/-! ## Ending a session (R10, R18, R20) -/

/-- What a session's end does with the books: its refund is credited, or its reservations are returned. -/
def refundSession (payer r : Nat) (m : Addr) (s : State) : State :=
  if 0 < r then creditSerial .refund payer r (addrNumber m) s else returnSlots 2 s

theorem refundSession_changes (payer r : Nat) (m : Addr) (s : State) :
    ChangesOnly [.cru, .jrn, .evu] s (refundSession payer r m s) :=
  .ite (creditSerial_changes _ _ _ _ s) (returnSlots_changes 2 s).up

theorem refundSession_steady (payer r : Nat) (m : Addr) (s : State) : Steady s (refundSession payer r m s) :=
  .ite (creditSerial_steady _ _ _ _ s) (returnSlots_steady 2 s)

theorem refundSession_uses (payer r : Nat) (m : Addr) (s : State) : Uses 2 s (refundSession payer r m s) := by
  unfold refundSession; split
  · exact creditSerial_uses _ _ _ _ s
  · exact returnSlots_uses 2 s

theorem refundSession_pendings (payer r : Nat) (m : Addr) (s : State) :
    (refundSession payer r m s).cru.pendings = s.cru.pendings := by
  unfold refundSession; split
  · exact creditSerial_pendings _ _ _ _ s
  · simp

theorem disposeSession_of_some {m : Addr} {s : State} {z : Session} (hz : (s.record m).session = some z) (r : Nat) :
    disposeSession m r s =
      mapRecord m (fun x => { x with session := none, silenceTimer := 0 }) (refundSession z.payer r m s) := by
  simp only [disposeSession, hz, refundSession]

theorem disposeSession_keeps (m : Addr) (r : Nat) (s : State) : Keeps s (disposeSession m r s) := by
  cases hz : (s.record m).session with
  | none => rw [disposeSession, hz]; exact .refl s
  | some z =>
    rw [disposeSession_of_some hz]
    have hc := refundSession_changes z.payer r m s
    have hmsv : (refundSession z.payer r m s).msv = s.msv := hc .msv (by decide)
    refine ⟨(refundSession_steady z.payer r m s).trans (mapRecord_steady m _ _ fun _ => .inl rfl),
      hc.feeds.trans (mapRecord_changes m _ _).feeds, ?_⟩
    refine ⟨hc .pay (by decide), refundSession_pendings z.payer r m s, ?_⟩
    have hu := refundSession_uses z.payer r m s
    have hs := sessionCount_setRecord m { (refundSession z.payer r m s).record m with session := none, silenceTimer := 0 }
      (refundSession z.payer r m s)
    have hrec : (refundSession z.payer r m s).record m = s.record m := by simp [State.record, hmsv]
    rw [hrec, hz, sessionCount_of_msv hmsv] at hs
    simp only [Option.isSome_some, Option.isSome_none, Bool.toNat_true, Bool.toNat_false] at hs
    have ho : (refundSession z.payer r m s).orders = s.orders := by
      simp [State.orders, show (refundSession z.payer r m s).pay = s.pay from hc .pay (by decide)]
    unfold Uses at hu
    have e1 : (mapRecord m (fun x => { x with session := none, silenceTimer := 0 }) (refundSession z.payer r m s)).orders =
        s.orders := ho
    have e2 : (mapRecord m (fun x => { x with session := none, silenceTimer := 0 }) (refundSession z.payer r m s)).tableSlots =
        (refundSession z.payer r m s).tableSlots := rfl
    have e3 : (mapRecord m (fun x => { x with session := none, silenceTimer := 0 }) (refundSession z.payer r m s)).jrn =
        (refundSession z.payer r m s).jrn := rfl
    have e4 : (mapRecord m (fun x => { x with session := none, silenceTimer := 0 }) (refundSession z.payer r m s)).sessionCount + 1 =
        s.sessionCount := by rw [← hrec] at hs; exact hs
    rw [slotsOwed_eq, slotsOwed_eq, e1, e2, e3]
    omega

/-! ## Records and states -/

theorem enterState_keeps (m : Addr) (t : MState) (s : State) : Keeps s (enterState m t s) := by
  unfold enterState; dsimp only; split
  · exact (mapRecord_keeps m _ s).trans (setOpenMark_keeps m _ _)
  · exact mapRecord_keeps m _ s

theorem endRecovery_keeps (m : Addr) (s : State) : Keeps s (endRecovery m s) :=
  mapRecord_keeps m _ s fun r => by split <;> rfl

theorem disarmRefund_keeps (m : Addr) (s : State) : Keeps s (disarmRefund m s) := by
  unfold disarmRefund; split
  · exact .refl s
  · exact ((((queueControl_keeps m _ s).trans (removeEntries_keeps m _)).trans (review_keeps _)).trans
      (disposeSession_keeps m _ _)).trans (enterState_keeps m _ _)

theorem normalEnd_keeps (m : Addr) (t : MState) (s : State) : Keeps s (normalEnd m t s) := by
  unfold normalEnd; split
  · exact .refl s
  · dsimp only
    exact ((((((releaseGrant_keeps m s).trans (writeFree_keeps _ _)).trans (setFaults_keeps m _ _)).trans
      (setEvent_keeps _ _)).trans (disposeSession_keeps m 0 _)).trans (mapRecord_keeps m _ _)).trans (enterState_keeps m t _)

/-! ## Aborts (R20, R21) -/

theorem abortUnstarted_keeps (m : Addr) (b : Bool) (t : MState) (s : State) : Keeps s (abortUnstarted m b t s) :=
  ((((removeEntries_keeps m s).trans (review_keeps _)).trans (queueControl_keeps m _ _)).trans (disposeSession_keeps m _ _)).trans
    (enterState_keeps m t _)

theorem abortRunning_keeps (m : Addr) (b : Bool) (d : StopDest) (s : State) : Keeps s (abortRunning m b d s) := by
  have h := (((queueControl_keeps m (.stop true) s).trans (removeEntries_keeps m _)).trans (review_keeps _)).trans
    (disposeSession_keeps m (s.orderRefund m b) _)
  exact h.trans (mapRecord_keeps m (fun x => { x with state := .aborting, stopDest := some d }) _)

theorem backToArmed_keeps (m : Addr) (s : State) : Keeps s (backToArmed m s) :=
  (((mapRecord_keeps m _ s).trans (mapSession_keeps m _ _)).trans (removeEntries_keeps m _)).trans (review_keeps _)

theorem abortIn_keeps (m : Addr) (v : Severity) (b : Bool) (s : State) : Keeps s (abortIn m v b s) := by
  unfold abortIn; split
  case h_3 => exact backToArmed_keeps m s
  case h_6 => exact abortRunning_keeps m b _ s
  case h_7 => exact abortRunning_keeps m b _ s
  case h_8 => exact mapRecord_keeps m _ s
  case h_9 => exact mapRecord_keeps m _ s
  case h_15 => exact .refl s
  case h_1 | h_2 | h_4 | h_5 => exact abortUnstarted_keeps m b _ s
  case h_10 | h_11 | h_12 | h_13 | h_14 => exact enterState_keeps m _ s

theorem applyAbort_keeps (m : Addr) (v : Severity) (b : Bool) (s : State) : Keeps s (applyAbort m v b s) :=
  (endRecovery_keeps m s).trans (abortIn_keeps m v b _)

theorem storeRefund_keeps (m : Addr) (e : Ended) (s : State) : Keeps s (storeRefund m e s) := (storeRefund_changes m e s).keeps

theorem orderAbort_keeps (m : Addr) (v : Severity) (b : Bool) (s : State) : Keeps s (orderAbort m v b s) :=
  (applyAbort_keeps m v b s).trans (storeRefund_keeps m _ _)

theorem abortingStopped_keeps (m : Addr) (s : State) : Keeps s (abortingStopped m s) :=
  ((releaseGrant_keeps m s).trans (mapRecord_keeps m _ _)).trans (enterState_keeps m _ _)

/-! ## Starting, arming anew and silence -/

theorem freeMachine_keeps (m : Addr) (s : State) : Keeps s (freeMachine m s) := by
  unfold freeMachine; dsimp only; split
  · exact (mapRecord_keeps m _ s).trans (enterState_keeps m _ _)
  · exact (mapRecord_keeps m _ s).trans (enterState_keeps m _ _)

theorem askStart_keeps (m : Addr) (l : Level) (s : State) : Keeps s (askStart m l s) := by
  unfold askStart; split
  · exact .refl s
  · split <;> exact addStart_keeps m _ _ s

theorem beginStarting_keeps (m : Addr) (s : State) : Keeps s (beginStarting m s) :=
  ((mapRecord_keeps m _ s).trans (mapSession_keeps m _ _)).trans (queueControl_keeps m _ _)

theorem enterStarting_keeps (m : Addr) (l : Level) (s : State) : Keeps s (enterStarting m l s) :=
  ((beginStarting_keeps m s).trans (askStart_keeps m l _)).trans (review_keeps _)

theorem rearm_keeps (m : Addr) (s : State) : Keeps s (rearm m s) := .ite (queueArm_keeps m s) (.refl s)

theorem resolveArmed_keeps (m : Addr) (s : State) : Keeps s (resolveArmed m s) :=
  (mapRecord_keeps m _ s).trans (mapSession_keeps m _ _)

theorem disarmIfClosed_keeps (m : Addr) (s : State) : Keeps s (disarmIfClosed m s) := .ite (disarmRefund_keeps m s) (.refl s)

theorem sessionsSilent_keeps (m : Addr) (s : State) : Keeps s (sessionsSilent m s) := by
  unfold sessionsSilent; dsimp only
  have h1 := setEvent_keeps .nodeSilent s
  have h2 := h1.trans (mapRecord_keeps m (fun x =>
    { x with silent := true, silenceTimer := if x.session.isSome then Config.silenceSeconds else 0 }) _)
  split
  · exact .refl s
  · split
    · exact h1
    · split
      case h_4 => exact h2
      case h_1 | h_2 | h_3 => exact h2.trans (enterState_keeps m _ _)

theorem giveSilence_keeps (m : Addr) (s : State) : Keeps s (giveSilence m s) :=
  (sessionsSilent_keeps m s).trans (feederSilent_keeps m _)

/-! ## Faults (R131 to R139, R146) -/

theorem takePrimary_keeps (m : Addr) (k : FaultKind) (p : Bool) (s : State) : Keeps s (takePrimary m k p s) := by
  unfold takePrimary; dsimp only
  have h1 (r : FaultRecord) (v : Severity) := (setFaults_keeps m r s).trans (orderAbort_keeps m v true _)
  exact ((Keeps.ite ((h1 _ _).trans (setOpenMark_keeps m true _)) (h1 _ _)).trans (writeFree_keeps _ _)).trans
    ((setEvent_keeps _ _).trans (setEventIf_keeps _ _ _))

theorem takeSecondary_keeps (m : Addr) (k : FaultKind) (p : Bool) (s : State) : Keeps s (takeSecondary m k p s) := by
  unfold takeSecondary; dsimp only
  have h1 (r : FaultRecord) := setFaults_keeps m r s
  exact (((Keeps.ite ((h1 _).trans (applyAbort_keeps m _ _ _)) (h1 _)).trans (setEventIf_keeps _ _ _)).trans
    (writeFree_keeps _ _)).trans (setEvent_keeps _ _)

theorem takeFault_keeps (m : Addr) (k : FaultKind) (p : Bool) (s : State) : Keeps s (takeFault m k p s) :=
  .ite (takeSecondary_keeps m k p s) (takePrimary_keeps m k p s)

theorem selfAbort_keeps (m : Addr) (c : FaultCause) (s : State) : Keeps s (selfAbort m c s) := by
  unfold selfAbort; dsimp only
  have h1 (r : FaultRecord) := (setFaults_keeps m r s).trans (orderAbort_keeps m .stop true _)
  exact ((Keeps.ite ((h1 _).trans (setOpenMark_keeps m true _)) (h1 _)).trans (writeFree_keeps _ _)).trans (setEvent_keeps _ _)

/-! ## Reports (R32) -/

theorem commandUnpaid_keeps (m : Addr) (n : NodeState) (s : State) : Keeps s (commandUnpaid m n s) := by
  unfold commandUnpaid; split
  · exact queueControl_keeps m _ s
  · exact .refl s

theorem doorRelease_keeps (m : Addr) (d : Door) (s : State) : Keeps s (doorRelease m d s) := by
  unfold doorRelease; split
  · exact enterState_keeps m _ s
  · exact .refl s

theorem resolveStarting_keeps (m : Addr) (l : Level) (s : State) : Keeps s (resolveStarting m l s) := by
  have h := ((endRecovery_keeps m s).trans (beginStarting_keeps m _)).trans (askStart_keeps m l _)
  exact .ite (h.trans (disarmRefund_keeps m _)) (h.trans (review_keeps _))

theorem resolveReport_keeps (m : Addr) (r : NodeReport) (s : State) : Keeps s (resolveReport m r s) := by
  have he := endRecovery_keeps m s
  unfold resolveReport; split
  case h_1 => exact .refl s
  case h_2 => exact he.trans (.ite (.refl _) (disarmIfClosed_keeps m _))
  case h_3 => exact he
  case h_4 | h_5 | h_6 => exact he.trans (normalEnd_keeps m _ _)
  case h_7 | h_8 => exact he.trans (selfAbort_keeps m _ _)
  case h_9 | h_10 => exact (resolveArmed_keeps m s).trans (disarmIfClosed_keeps m _)
  case h_11 | h_12 | h_13 | h_14 | h_15 | h_16 =>
    exact ((resolveArmed_keeps m s).trans (queueArm_keeps m _)).trans (disarmIfClosed_keeps m _)
  case h_17 | h_18 | h_19 | h_20 => exact resolveStarting_keeps m _ s

theorem armedReport_keeps (m : Addr) (r : NodeReport) (s : State) : Keeps s (armedReport m r s) := by
  unfold armedReport; split
  case h_1 | h_2 => exact enterStarting_keeps m _ s
  case h_3 | h_4 | h_5 => exact rearm_keeps m s
  case h_6 | h_7 => exact .refl s

theorem startingReport_keeps (m : Addr) (r : NodeReport) (s : State) : Keeps s (startingReport m r s) := by
  unfold startingReport; split
  case h_1 => exact backToArmed_keeps m s
  case h_2 | h_3 | h_4 => exact (backToArmed_keeps m s).trans (rearm_keeps m _)
  case h_5 | h_6 => exact .ite (.refl s) ((askStart_keeps m _ s).trans (review_keeps _))
  case h_7 => exact .refl s

theorem runningReport_keeps (m : Addr) (r : NodeReport) (s : State) : Keeps s (runningReport m r s) := by
  unfold runningReport; split
  case h_4 => exact .refl s
  case h_1 | h_2 | h_3 => exact normalEnd_keeps m _ s

theorem abortingReport_keeps (m : Addr) (r : NodeReport) (s : State) : Keeps s (abortingReport m r s) := by
  unfold abortingReport; split
  case h_1 | h_2 | h_3 => exact abortingStopped_keeps m s
  case h_4 | h_5 | h_6 => exact queueControl_keeps m _ s
  case h_7 => exact .refl s

theorem applyNodeState_keeps (m : Addr) (r : NodeReport) (s : State) : Keeps s (applyNodeState m r s) := by
  unfold applyNodeState; split
  case h_1 | h_2 => exact (enterState_keeps m _ s).trans (commandUnpaid_keeps m _ _)
  case h_3 | h_4 => exact commandUnpaid_keeps m _ s
  case h_5 => exact .refl s
  case h_6 => exact armedReport_keeps m r s
  case h_7 => exact startingReport_keeps m r s
  case h_8 => exact runningReport_keeps m r s
  case h_9 | h_10 => exact (commandUnpaid_keeps m _ s).trans (doorRelease_keeps m _ _)
  case h_11 => exact abortingReport_keeps m r s
  case h_12 => exact resolveReport_keeps m r s

theorem sessionsReport_keeps (m : Addr) (r : NodeReport) (s : State) : Keeps s (sessionsReport m r s) := by
  have h := mapRecord_keeps m (·.heard r) s
  unfold sessionsReport; dsimp only; split
  · exact ((h.trans (endRecovery_keeps m _)).trans (selfAbort_keeps m _ _)).trans (feederReport_keeps m r _)
  · exact (h.trans (applyNodeState_keeps m r _)).trans (feederReport_keeps m r _)

theorem heardAgain_keeps (m : Addr) (s : State) : Keeps s (heardAgain m s) :=
  .ite ((mapNode_keeps m _ s).trans (feederHeard_keeps m _)) (.refl s)

theorem takeEchoes_keeps (m : Addr) (r : NodeReport) (s : State) : Keeps s (takeEchoes m r s) :=
  ((mapNode_keeps m _ s).trans (acknowledge_keeps m _ _ _)).trans (acknowledge_keeps m _ _ _)

theorem faultCode_keeps (m : Addr) (r : NodeReport) (s : State) : Keeps s (faultCode m r s) := by
  unfold faultCode; split
  · exact mapNode_keeps m _ s
  · exact .ite (.refl s) ((mapNode_keeps m _ s).trans (takeFault_keeps m _ _ _))

theorem hearReport_keeps (m : Addr) (r : NodeReport) (s : State) : Keeps s (hearReport m r s) :=
  ((mapNode_keeps m _ s).trans (heardAgain_keeps m _)).trans (takeEchoes_keeps m r _)

theorem finishReport_keeps (m : Addr) (r : NodeReport) (s : State) : Keeps s (finishReport m r s) :=
  ((mapNode_keeps m _ s).trans (sessionsReport_keeps m r _)).trans (faultCode_keeps m r _)

theorem reportStale_keeps (m : Addr) (s : State) : Keeps s (reportStale m s) := by
  unfold reportStale; split
  · exact .refl s
  · exact ((mapNode_keeps m _ s).trans (takeFault_keeps m _ _ _)).trans (finishReport_keeps m _ _)

theorem takeReport_keeps (m : Addr) (r : NodeReport) (s : State) : Keeps s (takeReport m r s) := by
  have h5 := (hearReport_keeps m r s).trans (mapNode_keeps m (·.checkKeep r.keepAlive) _)
  exact .ite (h5.trans (mapNode_keeps m _ _)) (h5.trans (finishReport_keeps m r _))

theorem noteOccupied_keeps (m : Addr) (s : State) : Keeps s (noteOccupied m s) :=
  (noteOccupied_steady m s).keeps_mbc (noteOccupied_changes m s)

theorem takeValid_keeps (m : Addr) (r : NodeReport) (s : State) : Keeps s (takeValid m r s) := by
  have h := (noteOccupied_keeps m s).trans (takeReport_keeps m r _)
  exact .ite (h.trans ((assignAnswered_steady _).keeps_mbc (assignAnswered_changes _))) h

theorem takeMalformed_keeps (m : Addr) (s : State) : Keeps s (takeMalformed m s) :=
  (mapNode_keeps m _ s).trans (noteOccupied_keeps m _)

theorem takeCheckError_keeps (m : Addr) (s : State) : Keeps s (takeCheckError m s) :=
  (mapNode_keeps m _ s).trans (noteOccupied_keeps m _)

theorem windowEnds_keeps (m : Addr) (s : State) : Keeps s (windowEnds m s) := by
  unfold windowEnds; dsimp only; split
  · have h := (endRecovery_keeps m s).trans
      (mapRecord_keeps m (fun x => { x with silent := true, silenceTimer := Config.silenceSeconds }) _)
    exact .ite h (h.trans (disarmIfClosed_keeps m _))
  · exact .ite ((mapRecord_keeps m _ s).trans (enterState_keeps m _ _)) (.refl s)
  · exact .refl s

theorem repeatNotice_keeps (m : Addr) (s : State) : Keeps s (repeatNotice m s) := .ite (giveSilence_keeps m s) (.refl s)

/-! ## Timers and the end of a slot -/

theorem blockExpiry_keeps (m : Addr) (s : State) : Keeps s (blockExpiry m s) := by
  unfold blockExpiry; split
  · exact .refl s
  · next z hz =>
    have step (z' : Session) (h : z.KeepsSum z') : Keeps s (s.mapSession m fun _ => z') :=
      setRecord_keeps m _ s (by simp) fun y hy => by
        obtain ⟨x, hx, rfl⟩ := Option.map_eq_some_iff.mp hy
        exact .inr ⟨z, hz, h⟩
    dsimp only; split
    · exact step _ z.meterStep_keepsSum
    · exact (step { z.meterStep with ending := true } z.meterStep_keepsSum).trans (queueControl_keeps m _ _)

theorem withMsv_records_keeps (x : Msv) (s : State) (h : x.records = s.msv.records) : Keeps s (s.withMsv x) := by
  have hr : ∀ m, (s.withMsv x).record m = s.record m := fun m => by simp [State.record, h]
  refine ⟨(withMsv_changes x s).steady_msv fun hm m => by rw [hr]; exact hm m, (withMsv_changes x s).feeds,
    .of_same rfl rfl rfl fun m => by rw [hr]⟩

theorem endWindow_keeps (s : State) : Keeps s (endWindow s) :=
  ((withMsv_records_keeps { s.msv with recoveryWindow := none } s rfl).trans (.forMachines windowEnds_keeps _)).trans
    (.forMachines repeatNotice_keeps _)

theorem loseCommand_keeps (m : Addr) (c : CommandClass) (s : State) : Keeps s (loseCommand m c s) := by
  unfold loseCommand; split
  · exact .refl s
  · exact ((dropCommand_keeps m c s).trans (tellOwner_keeps m _ _ _)).trans (takeFault_keeps m _ _ _)

theorem takeClash_keeps (m : Addr) (s : State) : Keeps s (takeClash m s) :=
  ((mapNode_keeps m _ s).trans (setEvent_keeps _ _)).trans (takeFault_keeps m _ _ _)

theorem reportExcess_keeps (m : Addr) (p : Bool) (s : State) : Keeps s (reportExcess m p s) := by
  refine Keeps.trans (mapGrant_keeps m _ s (fun e => ?_) (fun e => ?_)) (takeFault_keeps m _ _ _)
  · cases p <;> exact id
  · cases p <;> exact le_refl _

theorem whenDue_keeps {due : State → Bool} {f : State → State} (s : State) (h : Keeps s (f s)) : Keeps s (whenDue due f s) :=
  .ite h (.refl s)

theorem staleIfDue_keeps (m : Addr) (s : State) : Keeps s (staleIfDue m s) := whenDue_keeps s (reportStale_keeps m s)
theorem excessIfDue_keeps (m : Addr) (p : Bool) (s : State) : Keeps s (excessIfDue m p s) :=
  whenDue_keeps s (reportExcess_keeps m p s)
theorem clashIfDue_keeps (m : Addr) (s : State) : Keeps s (clashIfDue m s) := whenDue_keeps s (takeClash_keeps m s)

theorem finishAddress_keeps (m : Addr) (s : State) : Keeps s (finishAddress m s) :=
  (((staleIfDue_keeps m s).trans (excessIfDue_keeps m false _)).trans (excessIfDue_keeps m true _)).trans (clashIfDue_keeps m _)

/-- R30: taking a slot's outcome keeps everything. -/
theorem finishSlot_keeps (s : State) : Keeps s (finishSlot s) := .forMachines finishAddress_keeps s

theorem silenceNotice_keeps (m : Addr) (s : State) : Keeps s (silenceNotice m s) :=
  (mapNode_keeps m _ s).trans (giveSilence_keeps m _)

theorem sendBeacon_keeps (s : State) : Keeps s (sendBeacon s) :=
  ⟨sendBeacon_steady s, (sendBeacon_changes s).feeds, (sendBeacon_changes s).backed⟩

end Sys2Proof.Machine
end

section
/-! PROOF. What the pay stations' operations keep (chapter 04): an order opened takes its three reservations, and an order's outcome
leaves the books backed without it. -/
namespace Sys2Proof.Machine

/-! ## The relation -/

/-- Between two states: every invariant of the spec that is about single moments is kept. -/
structure Upholds (s t : State) : Prop where
  steady : Steady s t
  feeds  : Feeds s t
  cards  : s.CardsApart → t.CardsApart
  books  : s.BooksBacked → t.BooksBacked

theorem Keeps.upholds {s t : State} (h : Keeps s t) : Upholds s t := ⟨h.steady, h.feeds, h.backed.cards, h.backed.books⟩
theorem Upholds.refl (s : State) : Upholds s s := (Keeps.refl s).upholds
theorem Upholds.trans {s t u : State} (h : Upholds s t) (k : Upholds t u) : Upholds s u :=
  ⟨h.steady.trans k.steady, h.feeds.trans k.feeds, k.cards ∘ h.cards, k.books ∘ h.books⟩
theorem Upholds.ite {s t u : State} {c : Prop} [Decidable c] (h : Upholds s t) (k : Upholds s u) :
    Upholds s (if c then t else u) := by split <;> assumption

/-! ## The books in terms of the two exchanges (R94, R124) -/

/-- R124: a pending debit stands for the card of an order exactly where the order has resolved it. -/
def Tracked (y : Option Order) (l : List PendingEntry) : Prop :=
  ∀ o, y = some o → (o.resolution ≠ none ↔ ∃ p ∈ l, p.serial = o.serial)

/-- R124, R125: at most 8 pending debits, of distinct serials. -/
def PendingsFit (l : List PendingEntry) : Prop := l.length ≤ 8 ∧ (l.map (·.serial)).Nodup

theorem booksBacked_iff (s : State) :
    s.BooksBacked ↔ s.CardsApart ∧ PendingsFit s.cru.pendings ∧ (∀ st, Tracked (s.exchange st).order s.cru.pendings) ∧
      s.slotsOwed ≤ s.jrn.reservations := by
  unfold State.BooksBacked PendingsFit Tracked
  tauto

theorem cardsApart_iff (s : State) (st : Station) :
    s.CardsApart ↔ ∀ x y, (s.exchange st).order = some x → (s.exchange (otherStation st)).order = some y → x.serial ≠ y.serial := by
  cases st
  · rfl
  · exact ⟨fun h x y hx hy => (h y x hy hx).symm, fun h x y hx hy => (h y x hy hx).symm⟩

theorem forall_station {P : Station → Prop} (st : Station) : (∀ su, P su) ↔ P st ∧ P (otherStation st) := by
  constructor
  · exact fun h => ⟨h st, h _⟩
  · rintro ⟨h1, h2⟩ su
    cases st <;> cases su <;> assumption

/-- The number of orders of a state by its two exchanges. -/
theorem orders_length (s : State) (st : Station) :
    s.orders.length = (s.exchange st).order.toList.length + (s.exchange (otherStation st)).order.toList.length := by
  cases st <;> simp [State.orders, State.exchange, otherStation]
  omega

theorem exchange_of_pay {s t : State} (h : t.pay = s.pay) (st : Station) : t.exchange st = s.exchange st := by
  cases st <;> simp [State.exchange, h]

/-! ## Changes of an exchange that leave its order -/

/-- What the books know of an order: its card and its resolution. -/
def Order.cardTag (o : Order) : Nat × Option Resolution := (o.serial, o.resolution)

/-- A change of PAY, HLI and outputs that leaves what the books know of the orders upholds everything. -/
theorem Upholds.of_orders {ps : List Part} {s t : State} (hc : ChangesOnly ps s t)
    (ho : ∀ st, (t.exchange st).order.map Order.cardTag = (s.exchange st).order.map Order.cardTag)
    (hp : (Part.evu ∉ ps ∧ Part.jrn ∉ ps ∧ Part.cru ∉ ps ∧ Part.msv ∉ ps ∧ Part.mbc ∉ ps) ∧
      (Part.fba ∉ ps ∧ Part.sst ∉ ps ∧ Part.phase ∉ ps) := by decide) : Upholds s t := by
  have hjrn : t.jrn = s.jrn := hc .jrn hp.1.2.1
  have hcru : t.cru = s.cru := hc .cru hp.1.2.2.1
  have hmsv : t.msv = s.msv := hc .msv hp.1.2.2.2.1
  have back : ∀ st o, (t.exchange st).order = some o →
      ∃ o', (s.exchange st).order = some o' ∧ o'.serial = o.serial ∧ o'.resolution = o.resolution := by
    intro st o hx
    have h := ho st
    rw [hx] at h
    obtain ⟨o', ho', ht⟩ := Option.map_eq_some_iff.mp h.symm
    exact ⟨o', ho', congrArg Prod.fst ht, congrArg Prod.snd ht⟩
  have cards : s.CardsApart → t.CardsApart := by
    intro h x y hx hy
    obtain ⟨x', hx', ex, -⟩ := back .a x hx
    obtain ⟨y', hy', ey, -⟩ := back .b y hy
    rw [← ex, ← ey]; exact h x' y' hx' hy'
  refine ⟨hc.steady hp.1, hc.feeds hp.2, cards, ?_⟩
  rw [booksBacked_iff, booksBacked_iff, hcru, hjrn]
  rintro ⟨h1, h2, h3, h4⟩
  refine ⟨cards h1, h2, fun st o hx => ?_, ?_⟩
  · obtain ⟨o', ho', es, er⟩ := back st o hx
    rw [← es, ← er]; exact h3 st o' ho'
  · have hlen : ∀ st, (t.exchange st).order.toList.length = (s.exchange st).order.toList.length := fun st => by
      have h := congrArg (fun x => x.toList.length) (ho st)
      simpa only [Option.toList_map, List.length_map] using h
    rw [slotsOwed_eq, orders_length _ .a, hlen, hlen, ← orders_length s .a, sessionCount_of_msv hmsv]
    simp only [slotsOwed_eq, State.tableSlots, hcru] at h4 ⊢
    omega

/-- An exchange changed in its counts alone upholds everything. -/
theorem setExchange_upholds (st : Station) (x : Exchange) (s : State) (h : x.order = (s.exchange st).order) :
    Upholds s (s.setExchange st x) :=
  .of_orders (setExchange_changes st x s) fun su => by
    rw [State.exchange_setExchange]; split
    · next e => rw [h, e]
    · rfl

theorem discardMessage_upholds (st : Station) (s : State) : Upholds s (discardMessage st s) := setExchange_upholds st _ s rfl

theorem sendDecline_upholds (st : Station) (d : DeclineReason) (b : Nat) (s : State) : Upholds s (sendDecline st d b s) :=
  (sendDecline_changes st d b s).keeps.upholds

theorem verifyPrices_upholds (s : State) : Upholds s (verifyPrices s) := by
  unfold verifyPrices; split
  · refine Upholds.trans (.of_orders (withPay_changes _ s) fun st => ?_) (setEventIf_keeps _ _ _).upholds
    cases st <;> rfl
  · exact .refl s

/-! ## Slots and pending debits through the settlement (R87, R122) -/

/-- What CRU does for an order: stations and sessions stand, and so many slots at most go without their entries. -/
theorem Uses.spends {k : Nat} {s t : State} (h : Uses k s t) (hc : ChangesOnly [.cru, .jrn, .evu] s t) :
    t.slotsOwed + s.jrn.reservations ≤ s.slotsOwed + t.jrn.reservations + k := by
  have ho : t.orders = s.orders := by simp [State.orders, show t.pay = s.pay from hc .pay (by decide)]
  rw [slotsOwed_eq, slotsOwed_eq, ho, sessionCount_of_msv (hc .msv (by decide))]
  unfold Uses at h
  omega

theorem mem_of_refund {c : Cru} {k : Nat} {e : RefundEntry} (h : c.refund k = some e) : e ∈ c.refunds ∧ e.serial = k :=
  ⟨List.mem_of_find?_eq_some h, by simpa using List.find?_some h⟩

/-- R122: an entry that goes frees a slot. -/
theorem removeRefund_frees {k : Nat} {s : State} (h : ∃ e ∈ s.cru.refunds, e.serial = k) :
    (removeRefund k s).tableSlots + 1 ≤ s.tableSlots := by
  obtain ⟨e, he, rfl⟩ := h
  have : (s.cru.refunds.filter (·.serial != e.serial)).length < s.cru.refunds.length :=
    List.length_filter_lt_length_iff_exists.mpr ⟨e, he, by simp⟩
  simp only [State.tableSlots, removeRefund, State.withCru_cru]
  omega

/-- R82: a pending debit that goes frees a slot. -/
theorem removePending_frees {k : Nat} {s : State} (h : ∃ p ∈ s.cru.pendings, p.serial = k) :
    (removePending k s).tableSlots + 1 ≤ s.tableSlots := by
  obtain ⟨p, hp, rfl⟩ := h
  have : (s.cru.pendings.filter (·.serial != p.serial)).length < s.cru.pendings.length :=
    List.length_filter_lt_length_iff_exists.mpr ⟨p, hp, by simp⟩
  simp only [State.tableSlots, removePending, State.withCru_cru]
  omega

theorem settleRefund_uses (serial taken r : Nat) (s : State) : Uses 0 s (settleRefund serial taken r s) := by
  unfold settleRefund; split
  · exact .of_same rfl rfl
  · next e he =>
    dsimp only; split
    · have hf := removeRefund_frees ⟨e, mem_of_refund he⟩
      have hr := returnSlots_uses 1 (removeRefund serial s)
      have hj : (removeRefund serial s).jrn = s.jrn := rfl
      unfold Uses at hr ⊢
      rw [hj] at hr
      omega
    · exact mapRefund_uses _ _ s

theorem settleRefund_pendings (serial taken r : Nat) (s : State) : (settleRefund serial taken r s).cru.pendings = s.cru.pendings := by
  unfold settleRefund; split
  · rfl
  · dsimp only; split
    · simp [removeRefund]
    · rfl

theorem recordRemainder_cru (serial r : Nat) (s : State) : (recordRemainder serial r s).cru = s.cru :=
  recordRemainder_changes serial r s .cru (by decide)

theorem recordRemainder_uses (serial r : Nat) (s : State) : Uses 1 s (recordRemainder serial r s) := by
  unfold recordRemainder; split
  · exact (Uses.of_same rfl rfl).mono
  · exact (writeMoney_uses _ s).seq (setEvent_uses _ _)

/-- R87 step 2: the pending debits after the settlement. -/
theorem settleTables_pendings (o : Order) (s : State) :
    (settleTables o s).cru.pendings =
      if o.resolution = none then s.cru.pendings else s.cru.pendings.filter (·.serial != o.serial) := by
  unfold settleTables; dsimp only; split
  · next h => rw [if_pos h, settleRefund_pendings]; rfl
  · next h =>
    rw [if_neg (c := o.resolution = none) (by simp [h])]
    split
    · rw [recordRemainder_cru]; simp [removePending, unpledge, mapRefund, settleRefund_pendings]
    · rw [returnSlots_cru]; simp [removePending, unpledge, mapRefund, settleRefund_pendings]

/-- R87 step 2: the settlement takes no slot but those that its entries leave. -/
theorem settleTables_uses {o : Order} {s : State} (h : o.resolution ≠ none → ∃ p ∈ s.cru.pendings, p.serial = o.serial) :
    Uses 0 s (settleTables o s) := by
  have h1 (taken r : Nat) := (mapRefund_uses o.serial (fun e => { e with hold := none }) s).seq (settleRefund_uses o.serial taken r _)
  unfold settleTables; dsimp only; split
  · exact h1 _ _
  · next hres =>
    have h1 := h1 (o.folded.getD 0 + tookFolded o.resolution (s.cru.pendingOf o.serial))
      ((o.resolution.map Resolution.remainder).getD 0)
    set s1 := settleRefund o.serial (o.folded.getD 0 + tookFolded o.resolution (s.cru.pendingOf o.serial))
      ((o.resolution.map Resolution.remainder).getD 0) (mapRefund o.serial (fun e => { e with hold := none }) s)
    have hp : ∃ p ∈ (unpledge o.serial s1).cru.pendings, p.serial = o.serial := by
      have : (unpledge o.serial s1).cru.pendings = s.cru.pendings := settleRefund_pendings _ _ _ _
      rw [this]; exact h (by simp [hres])
    have hf := removePending_frees hp
    have h2 := h1.seq (mapRefund_uses o.serial (fun e => { e with pledged := false }) s1)
    have hj : (removePending o.serial (unpledge o.serial s1)).jrn = (unpledge o.serial s1).jrn := rfl
    have h3 (u : State) (hu : Uses 1 (removePending o.serial (unpledge o.serial s1)) u) : Uses 0 s u := by
      unfold Uses at *
      rw [hj] at hu
      have e : mapRefund o.serial (fun e => { e with pledged := false }) s1 = unpledge o.serial s1 := rfl
      rw [e] at h2
      omega
    split
    · exact h3 _ (recordRemainder_uses _ _ _)
    · exact h3 _ (returnSlots_uses 1 _)

/-- The slots of a settlement, of its callers' records too, by the pending debit that a resolved order has. -/
def Order.HasPending (o : Order) (s : State) : Prop := o.resolution ≠ none → ∃ p ∈ s.cru.pendings, p.serial = o.serial

/-! ## An outcome (R86 to R92) -/

/-- What an outcome needs of the books for its exchange to become IDLE: of the exchange's three reservations none is missing, and
the pending debits suit the other station. -/
structure Concludes (st : Station) (s u : State) : Prop where
  pay   : u.pay = s.pay
  slots : s.BooksBacked → u.slotsOwed + s.jrn.reservations ≤ s.slotsOwed + u.jrn.reservations + 3
  fit   : s.BooksBacked → PendingsFit u.cru.pendings
  other : s.BooksBacked → Tracked (s.exchange (otherStation st)).order u.cru.pendings

theorem Concludes.then {st : Station} {s t u : State} (h : Concludes st s t) (k : Backed t u) : Concludes st s u :=
  ⟨k.pay.trans h.pay, fun hb => by have := h.slots hb; have := k.slots; omega, fun hb => k.pendings ▸ h.fit hb,
    fun hb => k.pendings ▸ h.other hb⟩

theorem idleExchange_exchange (st : Station) (u : State) :
    ((idleExchange st u).exchange st).order = none ∧
      (idleExchange st u).exchange (otherStation st) = u.exchange (otherStation st) := by
  cases st <;> exact ⟨rfl, rfl⟩

/-- R86: the exchange of an order that is concluded becomes IDLE. -/
theorem Concludes.upholds {st : Station} {o : Order} {s u : State} (h : Concludes st s u) (ho : (s.exchange st).order = some o)
    (hs : Steady s u) (hf : Feeds s u) : Upholds s (idleExchange st u) := by
  have hi := idleExchange_changes st u
  obtain ⟨hnone, hother⟩ := idleExchange_exchange st u
  have cards : (idleExchange st u).CardsApart := by
    rw [cardsApart_iff _ st, hnone]; exact fun _ _ hx _ => nomatch hx
  refine ⟨hs.trans hi.steady, hf.trans hi.feeds, fun _ => cards, fun hb => ?_⟩
  have hcru : (idleExchange st u).cru = u.cru := hi .cru (by decide)
  have hjrn : (idleExchange st u).jrn = u.jrn := hi .jrn (by decide)
  have hmsv : (idleExchange st u).msv = u.msv := hi .msv (by decide)
  rw [booksBacked_iff, hcru, hjrn]
  refine ⟨cards, h.fit hb, (forall_station st).mpr ⟨?_, ?_⟩, ?_⟩
  · rw [hnone]; exact fun _ hx => nomatch hx
  · rw [hother, exchange_of_pay h.pay]; exact h.other hb
  · have hsl := h.slots hb
    have hle := ((booksBacked_iff s).mp hb).2.2.2
    have hlen : (idleExchange st u).orders.length + 1 = u.orders.length := by
      rw [orders_length _ st, orders_length u st, hnone, hother, exchange_of_pay h.pay st, ho]; simp; omega
    have ht : (idleExchange st u).tableSlots = u.tableSlots := by simp [State.tableSlots, hcru]
    rw [slotsOwed_eq, sessionCount_of_msv hmsv, ht]
    rw [slotsOwed_eq] at hsl
    omega

/-- The pending debits, and what the other exchange knows of them, where the list stands. -/
theorem State.BooksBacked.pendings {s : State} (st : Station) (hb : s.BooksBacked) :
    PendingsFit s.cru.pendings ∧ Tracked (s.exchange (otherStation st)).order s.cru.pendings := by
  obtain ⟨-, hfit, htr, -⟩ := (booksBacked_iff s).mp hb
  exact ⟨hfit, htr _⟩

theorem PendingsFit.sublist {l l' : List PendingEntry} (h : PendingsFit l) (hs : l'.Sublist l) : PendingsFit l' :=
  ⟨hs.length_le.trans h.1, (hs.map _).nodup h.2⟩

/-- The other station's card is none of those removed. -/
theorem Tracked.filter {y : Option Order} {l : List PendingEntry} {k : Nat} (h : Tracked y l)
    (hk : ∀ o, y = some o → o.resolution ≠ none → o.serial ≠ k) : Tracked y (l.filter (·.serial != k)) := by
  intro o ho
  rw [h o ho]
  constructor
  · rintro ⟨p, hp, hs⟩
    have hne := hk o ho ((h o ho).mpr ⟨p, hp, hs⟩)
    exact ⟨p, List.mem_filter.mpr ⟨hp, by simp [hs, hne]⟩, hs⟩
  · rintro ⟨p, hp, hs⟩
    exact ⟨p, (List.mem_filter.mp hp).1, hs⟩

/-- A pending debit of another card joins. -/
theorem Tracked.append {y : Option Order} {l : List PendingEntry} {e : PendingEntry} (h : Tracked y l)
    (hk : ∀ o, y = some o → o.serial ≠ e.serial) : Tracked y (l ++ [e]) := by
  intro o ho
  rw [h o ho]
  constructor
  · rintro ⟨p, hp, hs⟩
    exact ⟨p, List.mem_append_left _ hp, hs⟩
  · rintro ⟨p, hp, hs⟩
    obtain hp | hp := List.mem_append.mp hp
    · exact ⟨p, hp, hs⟩
    · obtain rfl := List.mem_singleton.mp hp
      exact absurd hs (hk o ho).symm

theorem PendingsFit.append {l : List PendingEntry} {e : PendingEntry} (h : PendingsFit l) (hl : l.length ≤ 7)
    (hn : ∀ p ∈ l, p.serial ≠ e.serial) : PendingsFit (l ++ [e]) := by
  refine ⟨by simp; omega, ?_⟩
  rw [List.map_append, List.map_singleton]
  exact List.nodup_append.mpr ⟨h.2, by simp, by simpa using hn⟩

/-- The cards of the two orders differ, seen from a station. -/
theorem State.BooksBacked.other_ne {s : State} {st : Station} {o : Order} (hb : s.BooksBacked) (ho : (s.exchange st).order = some o) :
    ∀ y, (s.exchange (otherStation st)).order = some y → y.serial ≠ o.serial := fun y hy =>
  ((cardsApart_iff s st).mp hb.1 o y ho hy).symm

theorem State.BooksBacked.hasPending {s : State} {st : Station} {o : Order} (hb : s.BooksBacked) (ho : (s.exchange st).order = some o) :
    o.HasPending s := (((booksBacked_iff s).mp hb).2.2.1 st o ho).mp

/-- R87 step 2: the pending debits after a settlement suit the other station. -/
theorem settled_pendings {st : Station} {o : Order} {s : State} (hb : s.BooksBacked) (ho : (s.exchange st).order = some o) :
    PendingsFit (if o.resolution = none then s.cru.pendings else s.cru.pendings.filter (·.serial != o.serial)) ∧
    Tracked (s.exchange (otherStation st)).order
      (if o.resolution = none then s.cru.pendings else s.cru.pendings.filter (·.serial != o.serial)) := by
  obtain ⟨hfit, htr⟩ := hb.pendings st
  split
  · exact ⟨hfit, htr⟩
  · exact ⟨hfit.sublist List.filter_sublist, htr.filter fun y hy _ => hb.other_ne ho y hy⟩

/-- R87 to R89: after the record of an outcome and the settlement of the card's tables, two of the exchange's reservations are left
for what follows. -/
theorem settled_concludes {st : Station} {o : Order} {s u1 u : State} (ho : (s.exchange st).order = some o)
    (hc1 : ChangesOnly [.jrn, .evu] s u1) (h1 : Uses 1 s u1) (hpay : u.pay = s.pay)
    (hc : u.cru.pendings = (settleTables o u1).cru.pendings)
    (hs : u.slotsOwed + (settleTables o u1).jrn.reservations ≤ (settleTables o u1).slotsOwed + u.jrn.reservations + 2) :
    Concludes st s u := by
  have hcru : u1.cru = s.cru := hc1 .cru (by decide)
  have hp : u.cru.pendings =
      if o.resolution = none then s.cru.pendings else s.cru.pendings.filter (·.serial != o.serial) := by
    rw [hc, settleTables_pendings, hcru]
  refine ⟨hpay, fun hb => ?_, fun hb => hp ▸ (settled_pendings hb ho).1, fun hb => hp ▸ (settled_pendings hb ho).2⟩
  have hu : Uses 1 s (settleTables o u1) := h1.seq (settleTables_uses (by rw [hcru]; exact hb.hasPending ho))
  have := hu.spends (hc1.seq (settleTables_changes o u1))
  omega

/-! ## DONE (R87 to R89) -/

/-- R8: the machine is armed with its session; two of the exchange's reservations become the session's. -/
theorem armMachine_spends (o : Order) (s : State) :
    Steady s (armMachine o s) ∧ Feeds s (armMachine o s) ∧ (armMachine o s).pay = s.pay ∧
      (armMachine o s).cru.pendings = s.cru.pendings ∧
      (armMachine o s).slotsOwed + s.jrn.reservations ≤ s.slotsOwed + (armMachine o s).jrn.reservations + 2 := by
  let r : MachineRecord := { s.record o.machine with
    state := .armed, reserving := none, lockoutPending := false
    session := some (o.session s.sst.working.limits.startWindow)
    silenceTimer := if (s.record o.machine).silent then Config.silenceSeconds else 0 }
  let s1 := s.setRecord o.machine r
  have hsteady : Steady s s1 := setRecord_steady _ _ s fun z hz => by
    obtain rfl : o.session s.sst.working.limits.startWindow = z := Option.some.inj hz
    exact .inl (Nat.zero_add _)
  have hfeeds : Feeds s s1 := (setRecord_changes _ _ s).feeds
  have hslots : s1.slotsOwed ≤ s.slotsOwed + 2 := by
    have hcount : s1.sessionCount + (s.record o.machine).session.isSome.toNat = s.sessionCount + 1 :=
      sessionCount_setRecord o.machine r s
    have ho : s1.orders = s.orders := rfl
    have ht : s1.tableSlots = s.tableSlots := rfl
    rw [slotsOwed_eq, slotsOwed_eq, ho, ht]
    omega
  have hrest : Keeps s1 (armMachine o s) :=
    .trans (queueArm_keeps _ _) (.ite ((applyAbort_keeps _ _ _ _).trans (storeRefund_keeps _ _ _))
      (.ite (disarmRefund_keeps _ _) (.refl _)))
  refine ⟨hsteady.trans hrest.steady, hfeeds.trans hrest.feeds, hrest.backed.pay, hrest.backed.pendings, ?_⟩
  have := hrest.backed.slots
  have hj : s1.jrn = s.jrn := rfl
  rw [hj] at this
  omega

theorem answerSale_keeps (st : Station) (o : Order) (l : Bool) (s : State) : Keeps s (answerSale st o l s) :=
  (answerSale_changes st o l s).keeps

theorem doneNew_upholds {st : Station} {o : Order} {s : State} (ho : (s.exchange st).order = some o) :
    Upholds s (doneNew st o s) := by
  set s1 := setEvent .sale (writeMoney (o.body .sale .none) s) with hs1
  have hc1 : ChangesOnly [.jrn, .evu] s s1 := (writeMoney_changes _ s).seq (setEvent_changes _ _)
  have h1 : Uses 1 s s1 := (writeMoney_uses _ s).seq (setEvent_uses _ _)
  have hst1 : Steady s s1 := (writeMoney_steady _ s).trans (setEvent_steady _ _)
  have hct := hc1.seq (settleTables_changes o s1) (rs := [.cru, .jrn, .evu])
  obtain ⟨hsteady, hfeeds, hpay, hpend, hslots⟩ := armMachine_spends o (settleTables o s1)
  have hcon : Concludes st s (armMachine o (settleTables o s1)) :=
    settled_concludes ho hc1 h1 (hpay.trans (hct .pay (by decide))) hpend hslots
  exact (hcon.upholds ho ((hst1.trans (settleTables_steady o s1)).trans hsteady) (hct.feeds.trans hfeeds)).trans
    (answerSale_keeps st o _ _).upholds

theorem doneTopup_upholds {st : Station} {o : Order} {s : State} (ho : (s.exchange st).order = some o) :
    Upholds s (doneTopup st o s) := by
  set s1 := setEvent .topup (writeMoney (o.body .topup .none) s) with hs1
  have hc1 : ChangesOnly [.jrn, .evu] s s1 := (writeMoney_changes _ s).seq (setEvent_changes _ _)
  have h1 : Uses 1 s s1 := (writeMoney_uses _ s).seq (setEvent_uses _ _)
  have hst1 : Steady s s1 := (writeMoney_steady _ s).trans (setEvent_steady _ _)
  have hct := hc1.seq (settleTables_changes o s1) (rs := [.cru, .jrn, .evu])
  have hst2 := hst1.trans (settleTables_steady o s1)
  unfold doneTopup; dsimp only; rw [← hs1]
  set s2 := settleTables o s1
  split
  · have hm : Keeps s2 (s2.mapSession o.machine fun z => z.topup o.charge (o.minutes.getD 0)) :=
      mapSession_keeps _ _ _ fun z h => by simp only [Session.topup]; omega
    set s3 := s2.mapSession o.machine fun z => z.topup o.charge (o.minutes.getD 0)
    have hu := (returnSlots_uses 2 s3).spends (returnSlots_changes 2 s3).up
    have hpay : s3.pay = s.pay := hm.backed.pay.trans (hct .pay (by decide))
    have hcon : Concludes st s (returnSlots 2 s3) :=
      settled_concludes ho hc1 h1 ((returnSlots_pay 2 s3).trans hpay) (by rw [returnSlots_cru]; exact hm.backed.pendings)
        (by
          have := hm.backed.slots
          change _ + s2.jrn.reservations ≤ s2.slotsOwed + _ + 2
          omega)
    exact (hcon.upholds ho ((hst2.trans hm.steady).trans (returnSlots_steady 2 s3))
      ((hct.feeds.trans hm.feeds).trans (returnSlots_changes 2 s3).feeds)).trans (sendStation_changes st _ _).keeps.upholds
  · set s3 := if 0 < o.charge then creditSerial .topupRefused o.serial o.charge (addrNumber o.machine) s2 else returnSlots 2 s2
      with hs3
    have hc3 : ChangesOnly [.cru, .jrn, .evu] s2 s3 := .ite (creditSerial_changes _ _ _ _ s2) (returnSlots_changes 2 s2).up
    have hst3 : Steady s2 s3 := .ite (creditSerial_steady _ _ _ _ s2) (returnSlots_steady 2 s2)
    have hu3 : Uses 2 s2 s3 := by
      rw [hs3]; split
      · exact creditSerial_uses _ _ _ _ s2
      · exact returnSlots_uses 2 s2
    have hp3 : s3.cru.pendings = s2.cru.pendings := by
      rw [hs3]; split
      · exact creditSerial_pendings _ _ _ _ s2
      · rw [returnSlots_cru]
    have hcon : Concludes st s s3 :=
      settled_concludes ho hc1 h1 ((hct.seq hc3 (rs := [.cru, .jrn, .evu])) .pay (by decide)) hp3 (hu3.spends hc3)
    exact (hcon.upholds ho (hst2.trans hst3) (hct.feeds.trans hc3.feeds)).trans (sendDecline_upholds st _ _ _)

theorem doneCredit_upholds {st : Station} {o : Order} {s : State} (ho : (s.exchange st).order = some o) :
    Upholds s (doneCredit st o s) := by
  set s1 := writeMoney (o.body .creditApplied .none) s with hs1
  have hc1 : ChangesOnly [.jrn, .evu] s s1 := writeMoney_changes _ s
  have hct := hc1.seq (settleTables_changes o s1) (rs := [.cru, .jrn, .evu])
  have hst2 := (writeMoney_steady _ s).trans (settleTables_steady o s1)
  have hc2 := returnSlots_changes 2 (settleTables o s1)
  have hcon : Concludes st s (returnSlots 2 (settleTables o s1)) :=
    settled_concludes ho hc1 (writeMoney_uses _ s) ((returnSlots_pay 2 _).trans (hct .pay (by decide)))
      (by rw [returnSlots_cru]) ((returnSlots_uses 2 _).spends hc2.up)
  exact (hcon.upholds ho (hst2.trans (returnSlots_steady 2 _)) (hct.feeds.trans hc2.feeds)).trans (sendDecline_upholds st _ _ _)

/-! ## Uncertain outcomes (R90, R95) -/

theorem dropPending_cru (p : PendingEntry) (b c : Option Nat) (d : Detail) (s : State) :
    (dropPending p b c d s).cru.pendings = s.cru.pendings.filter (·.serial != p.serial) := by
  simp [dropPending, removePending, unpledge, mapRefund]

/-- R82, R125: a pending debit dropped takes the slot that it had. -/
theorem dropPending_uses {p : PendingEntry} {s : State} (hp : p ∈ s.cru.pendings) (b c : Option Nat) (d : Detail) :
    Uses 0 s (dropPending p b c d s) := by
  unfold dropPending
  generalize hw : RecordBody.mk _ _ _ _ _ _ _ _ _ _ _ = body
  have h1 : Uses 1 s (unpledge p.serial (setEvent .debitUnresolved (writeMoney body s))) :=
    ((writeMoney_uses body s).seq (setEvent_uses _ _)).seq (mapRefund_uses _ _ _)
  set u := unpledge p.serial (setEvent .debitUnresolved (writeMoney body s))
  have hu : u.cru.pendings = s.cru.pendings := by simp [u, unpledge, mapRefund]
  have hf := removePending_frees (s := u) ⟨p, hu ▸ hp, rfl⟩
  have hj : (removePending p.serial u).jrn = u.jrn := rfl
  unfold Uses at h1 ⊢
  rw [hj]
  omega

/-- R125: the oldest pending debit not in flight is there to be evicted, since two orders cannot hold eight. -/
theorem exists_not_inFlight {st : Station} {s : State} (hfit : PendingsFit s.cru.pendings) (hfull : 8 ≤ s.cru.pendings.length)
    (hn : ∀ k, (s.exchange st).resolves k = false) : ∃ p ∈ s.cru.pendings, s.inFlight p.serial = false := by
  by_contra hall
  push Not at hall
  have hother : ∀ p ∈ s.cru.pendings, (s.exchange (otherStation st)).resolves p.serial = true := fun p hp => by
    have h := hall p hp
    have h0 := hn p.serial
    cases st <;> simp_all [State.inFlight, State.exchange, otherStation]
  have hsame : ∀ p ∈ s.cru.pendings, ∀ q ∈ s.cru.pendings, p.serial = q.serial := by
    intro p hp q hq
    have h1 := hother p hp
    have h2 := hother q hq
    unfold Exchange.resolves at h1 h2
    split at h1
    · simp only [Bool.and_eq_true, beq_iff_eq] at h1
      simp_all
    · cases h1
  obtain ⟨-, hnodup⟩ := hfit
  match hl : s.cru.pendings, hfull with
  | p :: q :: l, _ =>
    rw [hl] at hnodup hsame
    have : p.serial = q.serial := hsame p (by simp) q (by simp)
    simp [this] at hnodup

/-- R125: what an eviction does to the pending debits: one that no order has resolved goes. -/
theorem evictPending_of_full {st : Station} {s : State} (hfit : PendingsFit s.cru.pendings) (hfull : 8 ≤ s.cru.pendings.length)
    (hn : ∀ k, (s.exchange st).resolves k = false) :
    ∃ p ∈ s.cru.pendings, s.inFlight p.serial = false ∧ evictPending s = dropPending p none none .evicted s := by
  obtain ⟨q, hq, hqf⟩ := exists_not_inFlight hfit hfull hn
  obtain ⟨p, hp⟩ : ∃ p, s.cru.pendings.find? (fun p => !s.inFlight p.serial) = some p := by
    rw [← Option.isSome_iff_exists, List.find?_isSome]; exact ⟨q, hq, by simp [hqf]⟩
  refine ⟨p, List.mem_of_find?_eq_some hp, by simpa using List.find?_some hp, ?_⟩
  simp only [evictPending, hp, Option.some_or]

/-- What an exchange does with the pending debits where its order ends uncertain: the entry that describes the order joins others of
other cards. -/
structure Pends (st : Station) (o : Order) (s t : State) : Prop where
  uses     : s.BooksBacked → Uses 3 s t
  pendings : s.BooksBacked → ∃ l, t.cru.pendings = l ++ [o.pendingEntry s.today] ∧ l.length ≤ 7 ∧ PendingsFit l ∧
    (∀ p ∈ l, p.serial ≠ o.serial) ∧ Tracked (s.exchange (otherStation st)).order l

theorem resolves_of_none {x : Exchange} {o : Order} (ho : x.order = some o) (hr : o.resolution = none) (k : Nat) :
    x.resolves k = false := by simp [Exchange.resolves, ho, hr]

theorem inFlight_of_resolved {s : State} {st : Station} {y : Order} (hy : (s.exchange st).order = some y)
    (hr : y.resolution ≠ none) : s.inFlight y.serial = true := by
  have : (s.exchange st).resolves y.serial = true := by
    simp [Exchange.resolves, hy, Option.isSome_iff_ne_none.mpr hr]
  cases st <;> simp_all [State.inFlight, State.exchange]

theorem createPending_pends {st : Station} {o : Order} {s u : State} (ho : (s.exchange st).order = some o)
    (hr : o.resolution = none) (hc : ChangesOnly [.jrn, .evu] s u) (h1 : Uses 1 s u) : Pends st o s (createPending o u) := by
  have hcru : u.cru = s.cru := hc .cru (by decide)
  have hpay : u.pay = s.pay := hc .pay (by decide)
  have hsst : u.sst = s.sst := hc .sst (by decide)
  have htoday : u.today = s.today := by simp [State.today, hsst]
  set s1 := if Config.pendingEntries ≤ u.cru.pendings.length then evictPending u else u with hs1
  have hpend : (createPending o u).cru.pendings = s1.cru.pendings ++ [o.pendingEntry s.today] := by
    rw [← htoday]; simp [createPending, pledgeFor, mapRefund, hs1]
  -- the table with room for one more
  have room (hb : s.BooksBacked) : Uses 0 u s1 ∧ s1.cru.pendings.length ≤ 7 ∧ s1.cru.pendings.Sublist s.cru.pendings ∧
      Tracked (s.exchange (otherStation st)).order s1.cru.pendings := by
    obtain ⟨hfit, htr⟩ := hb.pendings st
    rw [hs1]
    by_cases hfull : Config.pendingEntries ≤ u.cru.pendings.length
    · rw [if_pos hfull]
      obtain ⟨p, hp, hfl, he⟩ := evictPending_of_full (st := st) (hcru ▸ hfit) hfull fun k => by
        rw [exchange_of_pay hpay]; exact resolves_of_none ho hr k
      have hd : (dropPending p none none .evicted u).cru.pendings = s.cru.pendings.filter (·.serial != p.serial) := by
        rw [dropPending_cru, hcru]
      rw [he, hd]
      refine ⟨dropPending_uses hp _ _ _, ?_, List.filter_sublist, htr.filter fun y hy hyr hk => ?_⟩
      · have : (s.cru.pendings.filter (·.serial != p.serial)).length < s.cru.pendings.length :=
          List.length_filter_lt_length_iff_exists.mpr ⟨p, hcru ▸ hp, by simp⟩
        have := hfit.1
        omega
      · have hy' : (u.exchange (otherStation st)).order = some y := by rw [exchange_of_pay hpay]; exact hy
        rw [← hk, inFlight_of_resolved hy' hyr] at hfl
        cases hfl
    · rw [if_neg hfull, hcru]
      rw [hcru] at hfull
      unfold Config.pendingEntries at hfull
      exact ⟨.of_same rfl rfl, by omega, List.Sublist.refl _, htr⟩
  refine ⟨fun hb => ?_, fun hb => ?_⟩
  · have h2 := (room hb).1
    have h3 : Uses 1 s1 (pledgeFor o (s1.withCru { s1.cru with pendings := s1.cru.pendings ++ [o.pendingEntry u.today] })) := by
      simp only [Uses, State.tableSlots, pledgeFor, mapRefund, State.withCru_cru, State.withCru_jrn, List.length_append,
        List.length_singleton, List.length_map]
      omega
    exact ((h1.seq h2).seq h3).seq (returnSlots_uses 1 _)
  · obtain ⟨-, hlen, hsub, htr⟩ := room hb
    refine ⟨s1.cru.pendings, hpend, hlen, (hb.pendings st).1.sublist hsub, fun p hp hs => ?_, htr⟩
    exact (((booksBacked_iff s).mp hb).2.2.1 st o ho).mpr ⟨p, hsub.subset hp, hs⟩ hr

theorem updatePending_pends {st : Station} {o : Order} {res : Resolution} {s u : State} (ho : (s.exchange st).order = some o)
    (hr : o.resolution = some res) (hc : ChangesOnly [.jrn, .evu] s u) (h1 : Uses 1 s u) :
    Pends st o s (updatePending o res u) := by
  have hcru : u.cru = s.cru := hc .cru (by decide)
  have hsst : u.sst = s.sst := hc .sst (by decide)
  have htoday : u.today = s.today := by simp [State.today, hsst]
  set s1 := settleRefund o.serial (tookFolded (some res) (u.cru.pendingOf o.serial)) res.remainder u with hs1
  set s2 := if 0 < res.remainder then recordRemainder o.serial res.remainder s1 else s1 with hs2
  have hp1 : s1.cru.pendings = s.cru.pendings := by rw [hs1, settleRefund_pendings, hcru]
  have hp2 : s2.cru.pendings = s.cru.pendings := by
    rw [hs2]; split
    · rw [recordRemainder_cru, hp1]
    · exact hp1
  have hpend : (updatePending o res u).cru.pendings =
      s.cru.pendings.filter (·.serial != o.serial) ++ [o.pendingEntry s.today] := by
    rw [← hp2, ← htoday]
    simp [updatePending, pledgeFor, mapRefund, removePending, hs2, hs1]
  have hhas (hb : s.BooksBacked) : ∃ p ∈ s.cru.pendings, p.serial = o.serial := hb.hasPending ho (by simp [hr])
  refine ⟨fun hb => ?_, fun hb => ⟨_, hpend, ?_, ?_, ?_, ?_⟩⟩
  · have hfree := removePending_frees (s := s2) (by rw [hp2]; exact hhas hb)
    set s3 := removePending o.serial s2
    have h3 : Uses 1 s3 (pledgeFor o (s3.withCru { s3.cru with pendings := s3.cru.pendings ++ [o.pendingEntry u.today] })) := by
      simp only [Uses, State.tableSlots, pledgeFor, mapRefund, State.withCru_cru, State.withCru_jrn, List.length_append,
        List.length_singleton, List.length_map]
      omega
    have h4 := h3.seq (returnSlots_uses (if 0 < res.remainder then 1 else 2) _)
    have h2 : Uses ((if 0 < res.remainder then 1 else 0)) s1 s2 := by
      rw [hs2]; split
      · exact recordRemainder_uses _ _ _
      · exact .of_same rfl rfl
    have h12 := (h1.seq (settleRefund_uses o.serial _ _ u)).seq h2
    have hj : s3.jrn = s2.jrn := rfl
    have hk : (if 0 < res.remainder then 1 else 0) + (if 0 < res.remainder then 1 else 2) ≤ 2 := by split <;> omega
    unfold Uses at h12 h4 ⊢
    rw [hj] at h4
    change (updatePending o res u).tableSlots + s2.jrn.reservations ≤
      s3.tableSlots + (updatePending o res u).jrn.reservations + (1 + if 0 < res.remainder then 1 else 2) at h4
    omega
  · have : (s.cru.pendings.filter (·.serial != o.serial)).length < s.cru.pendings.length := by
      obtain ⟨p, hp, hs⟩ := hhas hb
      exact List.length_filter_lt_length_iff_exists.mpr ⟨p, hp, by simp [hs]⟩
    have := (hb.pendings st).1.1
    omega
  · exact (hb.pendings st).1.sublist List.filter_sublist
  · intro p hp
    simpa using (List.mem_filter.mp hp).2
  · exact (hb.pendings st).2.filter fun y hy _ => hb.other_ne ho y hy

theorem recordUncertain_pends {st : Station} {o : Order} {s : State} (ho : (s.exchange st).order = some o) (d : Detail) :
    Pends st o s (recordUncertain o d s) := by
  have hc : ChangesOnly [.jrn, .evu] s (setEvent .debitUncertain (writeMoney (o.body .debitUncertain d) s)) :=
    (writeMoney_changes _ s).seq (setEvent_changes _ _)
  have h1 : Uses 1 s (setEvent .debitUncertain (writeMoney (o.body .debitUncertain d) s)) :=
    (writeMoney_uses _ s).seq (setEvent_uses _ _)
  unfold recordUncertain; dsimp only; split
  · next hr => exact createPending_pends ho hr hc h1
  · next res hr => exact updatePending_pends ho hr hc h1

theorem recordUncertain_steady (o : Order) (d : Detail) (s : State) : Steady s (recordUncertain o d s) := by
  have h1 := (writeMoney_steady (o.body .debitUncertain d) s).trans (setEvent_steady .debitUncertain _)
  unfold recordUncertain; dsimp only; split
  · exact h1.trans (createPending_steady o _)
  · exact h1.trans (updatePending_steady o _ _)

theorem recordUncertain_concludes {st : Station} {o : Order} {s : State} (ho : (s.exchange st).order = some o) (d : Detail) :
    Concludes st s (recordUncertain o d s) := by
  have hc := recordUncertain_changes o d s
  have hp := recordUncertain_pends ho d
  refine ⟨hc .pay (by decide), fun hb => (hp.uses hb).spends hc, fun hb => ?_, fun hb => ?_⟩
  · obtain ⟨l, hl, hlen, hfit, hne, -⟩ := hp.pendings hb
    rw [hl]; exact hfit.append hlen hne
  · obtain ⟨l, hl, -, -, -, htr⟩ := hp.pendings hb
    rw [hl]; exact htr.append fun y hy => hb.other_ne ho y hy

theorem releaseReserved_keeps (o : Order) (s : State) : Keeps s (releaseReserved o s) := by
  unfold releaseReserved; split
  · exact .ite (freeMachine_keeps _ s) (.refl s)
  · exact .refl s
  · exact .refl s

theorem endUncertain_upholds {st : Station} {o : Order} {s : State} (ho : (s.exchange st).order = some o) (d : Detail) :
    Upholds s (endUncertain st o d s) := by
  have hk := releaseReserved_keeps o (recordUncertain o d s)
  exact ((recordUncertain_concludes ho d).then hk.backed).upholds ho ((recordUncertain_steady o d s).trans hk.steady)
    ((recordUncertain_changes o d s).feeds.trans hk.feeds)

theorem convertExchange_upholds (st : Station) (s : State) : Upholds s (convertExchange st s) := by
  unfold convertExchange; split
  · exact .refl s
  · next o ho =>
    exact (recordUncertain_concludes ho .reset).upholds ho (recordUncertain_steady o _ s) (recordUncertain_changes o _ s).feeds

/-! ## FAILED, results and the timer -/

theorem endFailed_upholds {st : Station} {o : Order} {s : State} (ho : (s.exchange st).order = some o) :
    Upholds s (endFailed st o s) := by
  have hm : ∀ u, Steady u (mapRefund o.serial (fun e => if e.hold = some st then { e with hold := none } else e) u) ∧
      Uses 0 u (mapRefund o.serial (fun e => if e.hold = some st then { e with hold := none } else e) u) := fun u =>
    ⟨mapRefund_steady _ _ u fun e => by split <;> rfl, mapRefund_uses _ _ u⟩
  unfold endFailed; dsimp only
  set s1 := mapRefund o.serial (fun e => if e.hold = some st then { e with hold := none } else e)
    (returnSlots Config.exchangeReservations s)
  have hc : ChangesOnly [.cru, .jrn, .evu] s s1 := (returnSlots_changes _ s).seq (mapRefund_changes _ _ _)
  have hp : s1.cru.pendings = s.cru.pendings := by
    change (returnSlots Config.exchangeReservations s).cru.pendings = _
    rw [returnSlots_cru]
  have hu : Uses 3 s s1 := (returnSlots_uses 3 s).seq (hm _).2
  have hcon : Concludes st s s1 :=
    ⟨hc .pay (by decide), fun _ => hu.spends hc, fun hb => hp ▸ (hb.pendings st).1, fun hb => hp ▸ (hb.pendings st).2⟩
  have hk := releaseReserved_keeps o s1
  exact (hcon.then hk.backed).upholds ho (((returnSlots_steady _ s).trans (hm _).1).trans hk.steady) (hc.feeds.trans hk.feeds)

theorem endDone_upholds {st : Station} {o : Order} {s : State} (ho : (s.exchange st).order = some o) (c : Nat) :
    Upholds s (endDone st o c s) := by
  unfold endDone; split
  · split
    · exact doneNew_upholds ho
    · exact doneTopup_upholds ho
    · exact doneCredit_upholds ho
  · exact (endUncertain_upholds ho _).trans (sendDecline_upholds st _ _ _)

theorem takeResult_upholds (st : Station) (msg : ResultMsg) (s : State) : Upholds s (takeResult st msg s) := by
  unfold takeResult; dsimp only; split
  · exact setExchange_upholds st _ s rfl
  · next o ho =>
    split
    · exact setExchange_upholds st _ s rfl
    · split
      · exact endDone_upholds ho _
      · exact endUncertain_upholds ho _
      · exact endFailed_upholds ho

theorem resultExpiry_upholds (st : Station) (s : State) : Upholds s (resultExpiry st s) := by
  unfold resultExpiry; split
  · exact .refl s
  · next o ho => exact endUncertain_upholds ho _

/-! ## PURCHASE (R78 to R85) -/

/-- R85: what an exchange that opens has met: the station IDLE, the other card another, and the card's pending debit there exactly
where the order has resolved it. -/
structure MayOpen (st : Station) (serial : Nat) (resolved : Prop) (s : State) : Prop where
  idle    : (s.exchange st).order = none
  apart   : ∀ y, (s.exchange (otherStation st)).order = some y → y.serial ≠ serial
  tracked : resolved ↔ ∃ p ∈ s.cru.pendings, p.serial = serial

/-- R85: an order sent, with its three reservations taken before. -/
theorem sendOrder_upholds {st : Station} {o : Order} {s u : State} (h : MayOpen st o.serial (o.resolution ≠ none) s)
    (hs : Steady s u) (hf : Feeds s u) (hpay : u.pay = s.pay) (hpend : u.cru.pendings = s.cru.pendings)
    (hslots : u.slotsOwed + s.jrn.reservations + 3 ≤ s.slotsOwed + u.jrn.reservations) : Upholds s (sendOrder st o u) := by
  set u1 := if o.folded.isSome then mapRefund o.serial (fun e => { e with hold := some st }) u else u with hu1
  have hs1 : Steady u u1 := .ite (mapRefund_steady _ _ u fun _ => rfl) (.refl u)
  have hc1 : ChangesOnly [.cru] u u1 := .ite (mapRefund_changes _ _ u) (.refl _ u)
  have hp1 : u1.cru.pendings = u.cru.pendings := by rw [hu1]; split <;> rfl
  have ht1 : u1.tableSlots = u.tableSlots := by
    rw [hu1]; split
    · simp [State.tableSlots, mapRefund]
    · rfl
  have hx1 : ∀ su, u1.exchange su = s.exchange su := exchange_of_pay ((hc1 .pay (by decide)).trans hpay)
  let o' : Order := { o with number := wrapInc 255 (u1.exchange st).orderCounter }
  let x : Exchange := { u1.exchange st with orderCounter := wrapInc 255 (u1.exchange st).orderCounter, order := some o' }
  set t := u1.setExchange st x with ht
  have hct := setExchange_changes st x u1
  have key : Upholds s t := by
    have hxs : (t.exchange st).order = some o' := by simp [ht, x]
    have hxo : t.exchange (otherStation st) = s.exchange (otherStation st) := by
      rw [ht, State.exchange_setExchange, if_neg (by cases st <;> decide), hx1]
    have cards : t.CardsApart := by
      rw [cardsApart_iff t st, hxs, hxo]
      rintro a b ha hb
      obtain rfl := Option.some.inj ha
      exact (h.apart b hb).symm
    refine ⟨(hs.trans hs1).trans hct.steady, (hf.trans hc1.feeds).trans hct.feeds, fun _ => cards, fun hb => ?_⟩
    have hcru : t.cru = u1.cru := hct .cru (by decide)
    have hpt : t.cru.pendings = s.cru.pendings := by rw [hcru, hp1, hpend]
    obtain ⟨-, hfit, htr, hle⟩ := (booksBacked_iff s).mp hb
    rw [booksBacked_iff, hpt]
    refine ⟨cards, hfit, (forall_station st).mpr ⟨?_, ?_⟩, ?_⟩
    · rw [hxs]
      rintro y hy
      obtain rfl := Option.some.inj hy
      exact h.tracked
    · rw [hxo]; exact htr _
    · have hj : t.jrn = u.jrn := (hct .jrn (by decide)).trans (hc1 .jrn (by decide))
      have hm : t.msv = u.msv := (hct .msv (by decide)).trans (hc1 .msv (by decide))
      have hlen : t.orders.length = u.orders.length + 1 := by
        rw [orders_length t st, orders_length u st, hxs, hxo, exchange_of_pay hpay st, exchange_of_pay hpay, h.idle]
        simp; omega
      have htt : t.tableSlots = u.tableSlots := by rw [← ht1]; simp [State.tableSlots, hcru]
      rw [slotsOwed_eq, sessionCount_of_msv hm, htt, hlen, hj]
      rw [slotsOwed_eq u] at hslots
      omega
  exact key.trans (sendStation_changes st _ _).keeps.upholds

/-- R155: reservations taken. -/
theorem reserveSlots_slots {n : Nat} {s t : State} (h : reserveSlots n s = some t) :
    t.slotsOwed = s.slotsOwed ∧ t.jrn.reservations = s.jrn.reservations + n := by
  have hc := reserveSlots_changes h
  obtain ⟨-, rfl⟩ := reserveSlots_eq_some h
  refine ⟨?_, by simp⟩
  rw [slotsOwed_eq, slotsOwed_eq, sessionCount_of_msv (hc .msv (by decide))]
  simp [State.orders, State.tableSlots]

theorem openExchange_upholds {st : Station} {o : Order} {s : State} (b : Nat)
    (h : MayOpen st o.serial (o.resolution ≠ none) s) : Upholds s (openExchange st b o s) := by
  unfold openExchange; split
  · exact sendDecline_upholds st _ b s
  · next s1 hs1 =>
    have hc := reserveSlots_changes hs1
    obtain ⟨hso, hre⟩ := reserveSlots_slots hs1
    have hpay : s1.pay = s.pay := hc .pay (by decide)
    have hcru : s1.cru = s.cru := hc .cru (by decide)
    have h1 : Upholds s (sendOrder st o s1) :=
      sendOrder_upholds h (reserveSlots_steady hs1) hc.feeds hpay (by rw [hcru]) (by rw [hso, hre]; rfl)
    split
    · split
      · have hc2 := hc.seq (returnSlots_changes Config.exchangeReservations s1) (rs := [.jrn, .evu])
        have hk : Keeps s (returnSlots Config.exchangeReservations s1) :=
          ⟨(reserveSlots_steady hs1).trans (returnSlots_steady _ s1), hc2.feeds,
            .of_same (hc2 .pay (by decide)) (hc2 .cru (by decide)) (by rw [returnSlots_jrn]; dsimp only; omega)
              (.of_msv (hc2 .msv (by decide)))⟩
        exact hk.upholds.trans (sendDecline_upholds st _ b _)
      · next s2 hs2 =>
        have hk : Keeps s1 s2 := by
          unfold reserveMachine at hs2; split at hs2
          · cases hs2; exact mapRecord_keeps _ _ s1
          · cases hs2
        refine sendOrder_upholds h ((reserveSlots_steady hs1).trans hk.steady) (hc.feeds.trans hk.feeds)
          (hk.backed.pay.trans hpay) (hk.backed.pendings.trans (by rw [hcru])) ?_
        have := hk.backed.slots
        have h3 : Config.exchangeReservations = 3 := rfl
        omega
    · exact h1
    · exact h1

theorem foldedOrder_card {msg : PurchaseMsg} {m : Addr} {t : Bool} {c : Choice} {sold : Option Nat} {p pct : Nat} {r : Resolved}
    {o : Order} (h : foldedOrder msg m t c sold p pct r = some o) : o.serial = msg.serial.toNat ∧ o.resolution = r.resolution := by
  unfold foldedOrder at h; dsimp only at h
  split at h
  · cases h; exact ⟨rfl, rfl⟩
  · cases h; exact ⟨rfl, rfl⟩
  · cases h

theorem buyFrom_upholds {st : Station} {msg : PurchaseMsg} {r : Resolved} {s : State}
    (h : MayOpen st msg.serial.toNat (r.resolution ≠ none) s) : Upholds s (buyFrom st msg r s) := by
  unfold buyFrom; dsimp only
  split
  · exact sendDecline_upholds st _ _ s
  · exact sendDecline_upholds st _ _ s
  · split
    · exact sendDecline_upholds st _ _ s
    · split
      · exact sendDecline_upholds st _ _ s
      · split
        · exact sendDecline_upholds st _ _ s
        · next o ho =>
          obtain ⟨hs, hr⟩ := foldedOrder_card ho
          exact openExchange_upholds _ (by rw [hs, hr]; exact h)

theorem mem_of_pendingOf {c : Cru} {k : Nat} {p : PendingEntry} (h : c.pendingOf k = some p) : p ∈ c.pendings ∧ p.serial = k :=
  ⟨List.mem_of_find?_eq_some h, by simpa using List.find?_some h⟩

/-- R82: a resolution that a card image and a pending debit give is there. -/
theorem PendingEntry.resolve_some {p : PendingEntry} {b c w : Nat} {r : Resolved} (h : p.resolve b c w = some r) :
    r.resolution ≠ none := by
  unfold PendingEntry.resolve at h
  split at h
  · cases h; simp
  · split at h
    · cases h; simp
    · cases h

/-- Check 8 (R82): the state after it is backed, and the card's pending debit stands exactly where it is resolved. -/
theorem resolveCard_upholds {st : Station} {k : Nat} (b c : Nat) {s : State} (hi : (s.exchange st).order = none)
    (ha : ∀ y, (s.exchange (otherStation st)).order = some y → y.serial ≠ k) :
    Upholds s (resolveCard k b c s).2 ∧ MayOpen st k ((resolveCard k b c s).1.resolution ≠ none) (resolveCard k b c s).2 := by
  unfold resolveCard; split
  · next hn =>
    refine ⟨.refl s, hi, ha, ?_⟩
    have : ∀ p ∈ s.cru.pendings, p.serial ≠ k := by simpa [Cru.pendingOf] using hn
    simpa using this
  · next p hp =>
    obtain ⟨hmem, rfl⟩ := mem_of_pendingOf hp
    split
    · next r hr => exact ⟨.refl s, hi, ha, by simpa [p.resolve_some hr] using ⟨p, hmem, rfl⟩⟩
    · have hc := dropPending_changes p (some b) (some c) .none s
      have hx : ∀ su, (dropPending p (some b) (some c) .none s).exchange su = s.exchange su := exchange_of_pay (hc .pay (by decide))
      have hpe := dropPending_cru p (some b) (some c) .none s
      refine ⟨⟨dropPending_steady _ _ _ _ s, hc.feeds, ?_, fun hb => ?_⟩, ?_, ?_, ?_⟩
      · unfold State.CardsApart; rw [show (dropPending p (some b) (some c) .none s).pay = s.pay from hc .pay (by decide)]; exact id
      · obtain ⟨h1, hfit, htr, hle⟩ := (booksBacked_iff s).mp hb
        rw [booksBacked_iff, hpe]
        refine ⟨?_, hfit.sublist List.filter_sublist, (forall_station st).mpr ⟨?_, ?_⟩, ?_⟩
        · rw [cardsApart_iff _ st, hx, hx, hi]; exact fun _ _ hx _ => nomatch hx
        · rw [hx, hi]; exact fun _ hx => nomatch hx
        · rw [hx]; exact (htr _).filter fun y hy _ => ha y hy
        · have := (dropPending_uses hmem (some b) (some c) .none).spends hc
          dsimp only; omega
      · rw [hx]; exact hi
      · rw [hx]; exact ha
      · rw [hpe]; simp

theorem takePurchase_upholds (st : Station) (msg : PurchaseMsg) (s : State) : Upholds s (takePurchase st msg s) := by
  unfold takePurchase; dsimp only; split
  · exact (setExchange_upholds st { s.exchange st with conflicts := satInc 65535 (s.exchange st).conflicts } s rfl).trans
      (sendDecline_upholds st _ _ _)
  · next hi =>
    unfold evaluatePurchase; dsimp only
    set topup := (s.topupSession (machineOf msg.machine.toNat)).isSome
    set s1 := if reachesPayment topup s then verifyPrices s else s with hs1
    have h1 : Upholds s s1 := .ite (verifyPrices_upholds s) (.refl s)
    have hi1 : (s1.exchange st).order = none := by
      have : (s1.exchange st).order = (s.exchange st).order := by
        rw [hs1]; split
        · unfold verifyPrices; split
          · cases st <;> simp [State.exchange]
          · rfl
        · rfl
      rw [this]; simpa using hi
    split
    · exact h1.trans (sendDecline_upholds st _ _ _)
    · split
      · exact h1.trans (sendDecline_upholds st _ _ _)
      · next hcard =>
        have hfree : ∀ y, (s1.exchange (otherStation st)).order = some y → y.serial ≠ msg.serial.toNat := by
          intro y hy he
          unfold cardChecks at hcard; dsimp only at hcard
          split at hcard
          · cases hcard
          · split at hcard
            · cases hcard
            · rw [if_pos (by simp [Exchange.holdsCard, hy, he])] at hcard
              cases hcard
        obtain ⟨h2, hmay⟩ := resolveCard_upholds msg.balance.toNat msg.counter.toNat hi1 hfree
        exact (h1.trans h2).trans (buyFrom_upholds hmay)

end Sys2Proof.Machine
end

section
/-! PROOF. What the expiry check, the host requests, power and the resets keep (chapters 06, 09, 10 and 11). -/
namespace Sys2Proof.Machine

/-! ## The expiry check (R123) -/

/-- Of the entries that a check has still to come to, those whose serial has left the table. -/
def missing (table rest : List Nat) : Nat := (rest.filter fun k => !table.contains k).length

/-- A table holds what a check has still to come to, serial by serial, where it holds the serial at all. -/
def Covers (table rest : List Nat) : Prop := ∀ k ∈ table, rest.count k ≤ table.count k

/-- A serial that leaves the table leaves as many entries behind as it has. -/
theorem missing_filter_ne (k : Nat) (table rest : List Nat) (hk : k ∈ table) :
    missing (table.filter (· != k)) rest = missing table rest + rest.count k := by
  induction rest with
  | nil => rfl
  | cons x rest ih =>
    unfold missing at ih ⊢
    by_cases hx : x = k
    · subst hx; simp [hk] at ih ⊢; omega
    · by_cases hm : x ∈ table <;> simp [hx, hm] at ih ⊢ <;> omega

theorem length_filter_ne_add_count (k : Nat) (l : List Nat) : (l.filter (· != k)).length + l.count k = l.length := by
  induction l with
  | nil => rfl
  | cons x l ih => by_cases hx : x = k <;> simp [hx] <;> omega

theorem Covers.tail {k : Nat} {table rest : List Nat} (h : Covers table (k :: rest)) : Covers table rest := fun x hx => by
  have := h x hx
  rw [List.count_cons] at this
  omega

theorem Covers.filter {k : Nat} {table rest : List Nat} (h : Covers table rest) : Covers (table.filter (· != k)) rest := by
  intro x hx
  obtain ⟨hx1, hx2⟩ := List.mem_filter.mp hx
  rw [List.count_filter (p := fun y => y != k) hx2]
  exact h x hx1

/-- The serials of the refund table. -/
def State.refundSerials (s : State) : List Nat := s.cru.refunds.map (·.serial)

/-- R123: what the check of one entry does to the table and to the reservations. -/
theorem expireEntry_cases (today : Nat) (s : State) (e : RefundEntry) :
    (expireEntry today s e).cru.pendings = s.cru.pendings ∧
    (((expireEntry today s e).refundSerials = s.refundSerials ∧
        (expireEntry today s e).jrn.reservations = s.jrn.reservations) ∨
      ((expireEntry today s e).refundSerials = s.refundSerials.filter (· != e.serial) ∧
        (expireEntry today s e).jrn.reservations = s.jrn.reservations - 1)) := by
  have hser := e.dated_serial today
  unfold expireEntry; dsimp only; split
  · refine ⟨by simp [removeRefund], .inr ⟨?_, ?_⟩⟩
    · simp [State.refundSerials, removeRefund, hser, List.filter_map, Function.comp_def]
    · simp only [removeRefund, State.withCru_jrn, writeMoney_reservations]
  · refine ⟨rfl, .inl ⟨?_, rfl⟩⟩
    simp only [State.refundSerials, mapRefund, State.withCru_cru, List.map_map]
    refine List.map_congr_left fun x _ => ?_
    simp only [Function.comp]; split
    · exact x.dated_serial today
    · rfl

theorem expire_uses (today : Nat) (l : List RefundEntry) (s : State) (hc : Covers s.refundSerials (l.map (·.serial))) :
    Uses (missing s.refundSerials (l.map (·.serial))) s (l.foldl (expireEntry today) s) ∧
      (l.foldl (expireEntry today) s).cru.pendings = s.cru.pendings := by
  induction l generalizing s with
  | nil => exact ⟨Nat.le_add_right _ _, rfl⟩
  | cons e l ih =>
    obtain ⟨hp, hcase⟩ := expireEntry_cases today s e
    set s1 := expireEntry today s e with hs1
    have htab : ∀ u : State, u.tableSlots = u.refundSerials.length + u.cru.pendings.length := fun u => by
      simp [State.tableSlots, State.refundSerials]
    rw [List.foldl_cons, ← hs1]
    obtain ⟨hsame, hres⟩ | ⟨hgone, hres⟩ := hcase
    · obtain ⟨hu, hpe⟩ := ih s1 (by rw [hsame]; exact hc.tail)
      refine ⟨?_, hpe.trans hp⟩
      have hle : missing s.refundSerials (l.map (·.serial)) ≤ missing s.refundSerials ((e :: l).map (·.serial)) :=
        ((List.sublist_cons_self _ _).filter _).length_le
      unfold Uses at hu ⊢
      rw [htab s1, hsame, hp, hres] at hu
      rw [htab s]
      omega
    · obtain ⟨hu, hpe⟩ := ih s1 (by rw [hgone]; exact hc.tail.filter)
      refine ⟨?_, hpe.trans hp⟩
      unfold Uses at hu ⊢
      rw [htab s1, hgone, hp, hres] at hu
      rw [htab s]
      have hlen := length_filter_ne_add_count e.serial s.refundSerials
      by_cases hk : e.serial ∈ s.refundSerials
      · have hm := missing_filter_ne e.serial s.refundSerials (l.map (·.serial)) hk
        have hcount := hc e.serial hk
        have hone : missing s.refundSerials ((e :: l).map (·.serial)) = missing s.refundSerials (l.map (·.serial)) := by
          simp [missing, hk]
        rw [List.map_cons, List.count_cons_self] at hcount
        omega
      · have hf : s.refundSerials.filter (· != e.serial) = s.refundSerials :=
          List.filter_eq_self.mpr fun x hx => by
            have : x ≠ e.serial := fun h => hk (h ▸ hx)
            simpa using this
        have hone : missing s.refundSerials ((e :: l).map (·.serial)) = missing s.refundSerials (l.map (·.serial)) + 1 := by
          simp [missing, hk]
        rw [hf] at hu
        omega

/-- R123: the expiry check keeps everything: each record takes the reservation of the entry that goes. -/
theorem expiryCheck_keeps (s : State) : Keeps s (expiryCheck s) := by
  have hc := expiryCheck_changes s
  refine ⟨expiryCheck_steady s, hc.feeds, ?_⟩
  have key : Uses 0 s (expiryCheck s) ∧ (expiryCheck s).cru.pendings = s.cru.pendings := by
    unfold expiryCheck; split
    · exact ⟨.of_same rfl rfl, rfl⟩
    · next today _ =>
      have h := expire_uses today s.cru.refunds s fun _ _ => le_refl _
      have hm : missing s.refundSerials (s.cru.refunds.map (·.serial)) = 0 := by
        simp [missing, State.refundSerials]
      rwa [hm] at h
  exact ⟨hc .pay (by decide), key.2, by have := key.1.spends hc; omega⟩

/-! ## Settings that stand -/

/-- A change of SST that leaves the fill-slot limit upholds everything. -/
theorem withSst_keeps (x : Sst) (s : State) (h : x.working.limits.fillSlots = s.sst.working.limits.fillSlots := by rfl) :
    Keeps s (s.withSst x) := by
  have hc := withSst_changes x s
  refine ⟨hc.steady, ⟨fun hf => ?_, id⟩, hc.backed⟩
  unfold State.FillWithinLimit at hf ⊢
  rw [State.withSst_sst, h]; exact hf

/-- What an ordinary command leaves: everything is upheld, the settings stay in their ranges, and the room mode and the queue of
commands stand. -/
structure Sane (s t : State) : Prop where
  upholds : Upholds s t
  legal   : s.SettingsLegal → t.SettingsLegal
  mode    : t.sst.roomMode = s.sst.roomMode
  queued  : t.pending = s.pending

theorem Sane.refl (s : State) : Sane s s := ⟨.refl s, id, rfl, rfl⟩
theorem Sane.trans {s t u : State} (h : Sane s t) (k : Sane t u) : Sane s u :=
  ⟨h.upholds.trans k.upholds, k.legal ∘ h.legal, k.mode.trans h.mode, k.queued.trans h.queued⟩
theorem Sane.ite {s t u : State} {c : Prop} [Decidable c] (h : Sane s t) (k : Sane s u) : Sane s (if c then t else u) := by
  split <;> assumption

/-- An operation that leaves SST. -/
theorem Upholds.sane {s t : State} (h : Upholds s t) (hs : t.sst = s.sst) (hq : t.pending = s.pending := by rfl) : Sane s t :=
  ⟨h, by unfold State.SettingsLegal; rw [hs]; exact id, by rw [hs], hq⟩

theorem ChangesOnly.sane {ps : List Part} {s t : State} (hc : ChangesOnly ps s t) (h : Upholds s t)
    (hp : Part.sst ∉ ps ∧ Part.pending ∉ ps := by decide) : Sane s t := h.sane (hc .sst hp.1) (hc .pending hp.2)

theorem whenRunning_sane {f : State → State} (s : State) (h : Sane s (f s)) : Sane s (whenRunning f s) := .ite h (.refl s)
theorem whenDue_sane {due : State → Bool} {f : State → State} (s : State) (h : Sane s (f s)) : Sane s (whenDue due f s) :=
  .ite h (.refl s)

theorem finishSlot_sane (s : State) : Sane s (finishSlot s) := (finishSlot_changes s).sane (finishSlot_keeps s).upholds

theorem afterSlot_sane {f : State → State} (s : State) (h : ∀ u, Sane u (f u)) : Sane s (afterSlot f s) :=
  whenRunning_sane s ((finishSlot_sane s).trans (h _))

/-- A change of SST that leaves the working settings, the image and the copy, and the room mode. -/
theorem withSst_sane (x : Sst) (s : State) (hw : x.working = s.sst.working := by rfl) (hi : x.image = s.sst.image := by rfl)
    (hc : x.commit = s.sst.commit := by rfl) (hm : x.roomMode = s.sst.roomMode := by rfl) : Sane s (s.withSst x) :=
  ⟨(withSst_keeps x s (by rw [hw])).upholds, by unfold State.SettingsLegal; rw [State.withSst_sst, hw, hi, hc]; exact id, hm, rfl⟩

/-! ## The host link -/

theorem putReply_sane (r : Reply) (b : Bool) (s : State) : Sane s (putReply r b s) :=
  (putReply_changes r b s).sane (putReply_changes r b s).keeps.upholds

theorem linkOverrun_sane (s : State) : Sane s (linkOverrun s) :=
  (setEvent_changes .linkOverrun s).sane (setEvent_keeps _ s).upholds

theorem takeBadFrame_sane (s : State) : Sane s (takeBadFrame s) := by
  have h1 : Sane s (countLinkError s) := (withHli_changes _ s).sane (withHli_changes _ s).keeps.upholds
  unfold takeBadFrame; dsimp only; split
  · exact h1.trans (putReply_sane _ _ _)
  · exact h1.trans (linkOverrun_sane _)

theorem takeGoodFrame_sane (k : Byte) (p : List Byte) (s : State) : Sane s (takeGoodFrame k p s) := by
  unfold takeGoodFrame; split
  · exact takeBadFrame_sane s
  · split
    · exact linkOverrun_sane s
    · split
      · exact (withHli_changes _ s).sane (withHli_changes _ s).keeps.upholds
      · exact putReply_sane _ _ s

/-- R184, R185: what a served request leaves, by its service. -/
theorem serveWith_cases (b : Bool) (kind : Byte) (i : Instr) (f : Service) (s : State) :
    serveWith b kind i f s = s ∨ serveWith b kind i f s = linkOverrun s ∨
      serveWith b kind i f s = putReply ((f s).1.reply kind) b (f s).2 := by
  unfold serveWith; split
  · split
    · exact .inr (.inr rfl)
    · split
      · exact .inr (.inr rfl)
      · exact .inr (.inl rfl)
    · exact .inr (.inl rfl)
  · exact .inl rfl

theorem serveWith_sane {b : Bool} {kind : Byte} {i : Instr} {f : Service} {s : State} (h : Sane s (f s).2) :
    Sane s (serveWith b kind i f s) := by
  obtain e | e | e := serveWith_cases b kind i f s <;> rw [e]
  · exact .refl s
  · exact linkOverrun_sane s
  · exact h.trans (putReply_sane _ _ _)

/-! ## Settings edits (R174 to R179) -/

theorem settingsEdit_sane {f : Service} {s : State} (h : Sane s (f s).2) : Sane s (settingsEdit f s).2 := by
  unfold settingsEdit; split
  · exact .refl s
  · exact h

/-- An accepted edit: legal settings with the fill-slot limit as it stood. -/
theorem edited_sane (g : Settings) (s : State) (hl : s.sst.working.Legal → g.Legal)
    (hf : g.limits.fillSlots = s.sst.working.limits.fillSlots := by rfl) : Sane s (s.edited g) :=
  ⟨(withSst_keeps _ s hf).upholds, fun h => ⟨hl h.1, h.2⟩, rfl, rfl⟩

theorem clamp_le {lo hi x : Nat} (h : lo ≤ hi := by decide) : clamp lo hi x ≤ hi := by unfold clamp; omega
theorem le_clamp (lo hi x : Nat) : lo ≤ clamp lo hi x := by unfold clamp; omega

/-- R175: a program held lies in its ranges. -/
theorem ProgramForm.held_inRange {form : ProgramForm} {p : Program} (h : ProgramForm.held form = some p) : p.InRange := by
  unfold ProgramForm.held at h
  split at h
  · cases h
  · cases h
    exact ⟨by simp, clamp_le, clamp_le, clamp_le, ⟨le_clamp _ _ _, clamp_le⟩, clamp_le, clamp_le⟩
  · cases h
    exact ⟨by simp, clamp_le, clamp_le, clamp_le, clamp_le⟩

theorem setProgramAt_sane (i : Fin 16) (form : ProgramForm) (s : State) : Sane s (setProgramAt i form s).2 := by
  have hedit : Sane s (s.edited { s.sst.working with programs := s.sst.working.programs.set i.val (ProgramForm.held form) i.isLt }) := by
    refine edited_sane _ s fun ⟨hb, hs, hl, hlist, hbands, hprog⟩ => ⟨hb, hs, hl, hlist, hbands, fun j p hj => ?_⟩
    have hj' : (s.sst.working.programs.set i.val (ProgramForm.held form) i.isLt)[j.val] = some p := hj
    rw [Vector.getElem_set] at hj'
    split at hj'
    · exact ProgramForm.held_inRange hj'
    · exact hprog j p hj'
  unfold setProgramAt okMarked; dsimp only; split
  · exact .refl s
  · exact .ite (.refl s) hedit

theorem setProgram_sane (id : Byte) (form : ProgramForm) (s : State) : Sane s (setProgram id form s).2 := by
  refine settingsEdit_sane ?_
  split
  · exact setProgramAt_sane _ form s
  · exact .refl s

theorem TariffForm.held_inRange {form : TariffForm} {b : Band} (h : TariffForm.held form = some b) :
    b.start ≤ 1439 ∧ 50 ≤ b.percent ∧ b.percent ≤ 250 := by
  unfold TariffForm.held at h
  split at h
  · cases h
  · cases h; exact ⟨clamp_le, le_clamp _ _ _, clamp_le⟩

/-- R176: what a band set at an index leaves at each index. -/
theorem replaceBand_get {bands : Vector (Option Band) 6} {i j : Fin 6} {b : Option Band} {x : Band}
    (h : (replaceBand bands i b)[j] = some x) :
    (j = i ∧ b = some x) ∨ (j ≠ i ∧ bands[j] = some x ∧ ∀ y, b = some y → x.start ≠ y.start) := by
  have h' : (replaceBand bands i b)[j.val] = some x := h
  unfold replaceBand at h'; dsimp only at h'
  rw [Vector.getElem_set] at h'
  split at h'
  · next e => exact .inl ⟨Fin.ext e.symm, h'⟩
  · next e =>
    refine .inr ⟨fun k => e (congrArg Fin.val k).symm, ?_⟩
    split at h'
    · exact ⟨h', fun _ hy => nomatch hy⟩
    · next y =>
      rw [Vector.getElem_map] at h'
      split at h'
      · cases h'
      · next hne =>
        have hx : bands[j.val] = some x := h'
        refine ⟨hx, fun y' hy => ?_⟩
        obtain rfl := Option.some.inj hy
        simpa [hx] using hne

/-- R176: the bands stay in their ranges and their starts apart. -/
theorem replaceBand_apart {g : Settings} (h : g.BandsApart) (i : Fin 6) (form : TariffForm) :
    ({ g with bands := replaceBand g.bands i (TariffForm.held form) } : Settings).BandsApart := by
  obtain ⟨hrange, hapart⟩ := h
  constructor
  · intro j b hb
    obtain ⟨-, hb⟩ | ⟨-, hb, -⟩ := replaceBand_get hb
    · exact TariffForm.held_inRange hb
    · exact hrange j b hb
  · intro j k b c hb hc hbc
    obtain ⟨hj, hb⟩ | ⟨hj, hb, hbn⟩ := replaceBand_get hb <;> obtain ⟨hk, hc⟩ | ⟨hk, hc, hcn⟩ := replaceBand_get hc
    · rw [hj, hk]
    · exact absurd hbc.symm (hcn b hb)
    · exact absurd hbc (hbn c hc)
    · exact hapart j k b c hb hc hbc

theorem setTariff_sane (index : Byte) (form : TariffForm) (s : State) : Sane s (setTariff index form s).2 := by
  refine settingsEdit_sane ?_
  split
  · exact .refl s
  · next i _ =>
    split
    · exact .refl s
    · exact edited_sane _ s fun ⟨hb, hs, hl, hlist, hbands, hprog⟩ => ⟨hb, hs, hl, hlist, replaceBand_apart hbands i form, hprog⟩

theorem recomputeBudget_sane (s : State) : Sane s (recomputeBudget s) :=
  (recomputeBudget_changes s).sane (recomputeBudget_declares s).1.upholds

theorem review_sane (s : State) : Sane s (review s) := (review_changes s).sane (review_keeps s).upholds

theorem setBudget_sane (b : Word16) (p : Byte) (s : State) : Sane s (setBudget b p s).2 := by
  refine settingsEdit_sane ?_
  have hedit : Sane s (s.edited { s.sst.working with budget := clamp 100 8000 b.toNat, shed := clamp 30 100 p.toNat }) :=
    edited_sane _ s fun ⟨_, _, hrest⟩ => ⟨⟨le_clamp _ _ _, clamp_le⟩, ⟨le_clamp _ _ _, clamp_le⟩, hrest⟩
  exact .ite hedit (hedit.trans (recomputeBudget_sane _))

theorem LimitArgs.held_inRange (a : LimitArgs) : (LimitArgs.held a).InRange :=
  ⟨⟨le_clamp _ _ _, clamp_le⟩, ⟨le_clamp _ _ _, clamp_le⟩, ⟨le_clamp _ _ _, clamp_le⟩, ⟨le_clamp _ _ _, clamp_le⟩, clamp_le, clamp_le,
    ⟨le_clamp _ _ _, clamp_le⟩, ⟨le_clamp _ _ _, clamp_le⟩, ⟨le_clamp _ _ _, clamp_le⟩, ⟨le_clamp _ _ _, clamp_le⟩,
    Nat.le_of_lt_succ a.issuer.isLt⟩

theorem setLimits_sane (a : LimitArgs) (s : State) : Sane s (setLimits a s).2 := by
  refine settingsEdit_sane ?_
  dsimp only; split
  · exact .refl s
  · next hfill =>
    have hedit : Sane s (s.edited { s.sst.working with limits := LimitArgs.held a }) := by
      have hc := withSst_changes { s.sst with working := { s.sst.working with limits := LimitArgs.held a }, unsaved := true } s
      refine ⟨Keeps.upholds ⟨hc.steady, ⟨fun _ => ?_, id⟩, hc.backed⟩, ?_, rfl, rfl⟩
      · exact Nat.le_of_not_lt hfill
      · exact fun ⟨⟨hb, hs, _, hrest⟩, himage⟩ => ⟨⟨hb, hs, LimitArgs.held_inRange a, hrest⟩, himage⟩
    exact .ite hedit (hedit.trans (review_sane _))

theorem commitSettings_sane (s : State) : Sane s (commitSettings s).2 :=
  settingsEdit_sane ⟨(withSst_keeps _ s).upholds, fun h => ⟨h.1, h.2.1, fun g hg => by
    obtain rfl : s.sst.working = g := Option.some.inj hg
    exact h.1⟩, rfl, rfl⟩

theorem commitWriteEnd_sane (s : State) : Sane s (commitWriteEnd s) := by
  unfold commitWriteEnd; split
  · exact .refl s
  · next copy hcopy =>
    exact ⟨(withSst_keeps _ s).upholds, fun h => ⟨h.1, h.2.2 copy hcopy, fun _ hg => nomatch hg⟩, rfl, rfl⟩

theorem lockPrices_sane (s : State) : Sane s (lockPrices s).2 := settingsEdit_sane (.ite (.refl s) (withSst_sane _ s))

/-- An accepted edit of the screen: a list that fits where the old one did. -/
theorem screenEdited_sane (sc : Screen) (s : State)
    (h : s.sst.working.ListFits → sc.list.length ≤ 16 ∧ sc.list.Nodup) : Sane s (s.screenEdited sc) :=
  edited_sane _ s fun ⟨hb, hs, hl, hlist, hrest⟩ => ⟨hb, hs, hl, h hlist, hrest⟩

theorem setScreenMode_sane (mode : Byte) (s : State) : Sane s (setScreenMode mode s).2 := by
  refine settingsEdit_sane ?_
  split
  · exact .refl s
  · split
    · exact .refl s
    · exact .ite (.refl s) (screenEdited_sane _ s id)

theorem screenAdd_sane (serial : Serial32) (s : State) : Sane s (screenAdd serial s).2 := by
  refine settingsEdit_sane ?_
  dsimp only; split
  · exact .refl s
  · split
    · exact screenEdited_sane _ s id
    · next hnew =>
      split
      · exact .refl s
      · next hroom =>
        refine screenEdited_sane _ s fun ⟨_, hnodup⟩ => ⟨?_, ?_⟩
        · unfold Config.perfectSerials at hroom
          simp only [List.length_append, List.length_singleton]; omega
        · refine List.nodup_append.mpr ⟨hnodup, by simp, ?_⟩
          simp only [List.contains_eq_mem, decide_eq_true_eq] at hnew
          rintro x hx y hy
          obtain rfl := List.mem_singleton.mp hy
          rintro rfl
          exact hnew hx

theorem screenRemove_sane (serial : Serial32) (s : State) : Sane s (screenRemove serial s).2 := by
  refine settingsEdit_sane ?_
  split
  · exact .refl s
  · exact screenEdited_sane _ s fun ⟨hlen, hnodup⟩ => ⟨(List.length_filter_le _ _).trans hlen, hnodup.filter _⟩

theorem setHashBit_sane (index : Word16) (value : Byte) (s : State) : Sane s (setHashBit index value s).2 := by
  refine settingsEdit_sane ?_
  split
  · exact .refl s
  · split
    · exact .refl s
    · exact .ite (.refl s) (screenEdited_sane _ s id)

theorem clearHash_sane (s : State) : Sane s (clearHash s).2 := settingsEdit_sane (screenEdited_sane _ s id)

theorem expiryCheck_sane (s : State) : Sane s (expiryCheck s) := (expiryCheck_changes s).sane (expiryCheck_keeps s).upholds

theorem setClock_sane (d m : Word16) (s : State) : Sane s (setClock d m s).2 :=
  (withSst_sane { s.sst with clock := some ⟨d.toNat, min 1439 m.toNat, 0, false⟩ } s).trans (expiryCheck_sane _)

theorem rollDay_sane (s : State) : Sane s (rollDay s) := by
  unfold rollDay; split
  · exact .refl s
  · exact .ite ((withSst_sane _ s).trans (expiryCheck_sane _)) (.refl s)

/-! ## Machines, discovery and grants (R142 to R145, R47, R127) -/

theorem Keeps.sane {ps : List Part} {s t : State} (h : Keeps s t) (hc : ChangesOnly ps s t)
    (hp : Part.sst ∉ ps ∧ Part.pending ∉ ps := by decide) : Sane s t := hc.sane h.upholds hp

theorem hostAbort_sane (m : Addr) (c : FaultCause) (v : Severity) (b : Bool) (s : State) : Sane s (hostAbort m c v b s) :=
  ((setFaults_keeps m _ s).sane (setFaults_changes m _ s)).trans ((orderAbort_keeps m v b _).sane (orderAbort_changes m v b _))

theorem enterState_sane (m : Addr) (t : MState) (s : State) : Sane s (enterState m t s) :=
  (enterState_keeps m t s).sane (enterState_changes m t s)

theorem confirmOff_sane (m : Addr) (s : State) : Sane s (confirmOff m s) :=
  (((releaseGrant_keeps m s).sane (releaseGrant_changes m s)).trans ((mapRecord_keeps m _ _).sane (mapRecord_changes m _ _))).trans
    (enterState_sane m _ _)

theorem writeFree_sane (b : RecordBody) (s : State) : Sane s (writeFree b s) := (writeFree_keeps b s).sane (writeFree_changes b s)

theorem serviceOutDone_sane (m : Addr) (e : Ended) (s : State) : Sane s (serviceOutDone m e s).2 :=
  (writeFree_sane _ s).trans ((setEvent_keeps _ _).sane (setEvent_changes _ _))

theorem serviceOutOn_sane (m : Addr) (off : Bool) (s : State) : Sane s (serviceOutOn m off s).2 := by
  have confirm (u : State) (h : Sane s u) :
      Sane s (if (off && (s.record m).confirmable) = true then confirmOff m u else u) := .ite (h.trans (confirmOff_sane m u)) h
  have order : Sane s (setOpenMark m true (hostAbort m .hostOut .lockout true s)) :=
    (hostAbort_sane m _ _ _ s).trans ((setOpenMark_keeps m true _).sane (setOpenMark_changes m true _))
  have abort : Sane s (abortIn m .lockout false s) := (abortIn_keeps m _ _ s).sane (abortIn_changes m _ _ s)
  unfold serviceOutOn; dsimp only; split
  case h_1 | h_2 | h_3 => exact .refl s
  case h_4 | h_5 | h_6 | h_7 => exact (enterState_sane m _ s).trans (serviceOutDone_sane m _ _)
  case h_8 => exact (confirm _ abort).trans (serviceOutDone_sane m _ _)
  case h_9 | h_10 | h_11 | h_12 => exact (confirm _ order).trans (serviceOutDone_sane m _ _)

theorem serviceOut_sane (m off : Byte) (s : State) : Sane s (serviceOut m off s).2 := by
  unfold serviceOut; split
  · exact serviceOutOn_sane _ _ s
  · exact .refl s

theorem serviceReturn_sane (m : Byte) (s : State) : Sane s (serviceReturn m s).2 := by
  unfold serviceReturn; split
  · exact .refl s
  · next a _ =>
    split
    · exact .refl s
    · split
      · exact .refl s
      · exact (((setFaults_keeps a _ s).sane (setFaults_changes a _ s)).trans ((mapNode_keeps a _ _).sane (mapNode_changes a _ _))).trans
          ((enterState_sane a _ _).trans (writeFree_sane _ _))

theorem abortCycle_sane (m r : Byte) (s : State) : Sane s (abortCycle m r s).2 := by
  unfold abortCycle; split
  · next a b _ _ =>
    split
    · exact .refl s
    · split
      · exact .refl s
      · have h := hostAbort_sane a .hostAbort .stop b s
        exact (Sane.ite (h.trans ((setOpenMark_keeps a true _).sane (setOpenMark_changes a true _))) h).trans (writeFree_sane _ _)
  · exact .refl s

theorem startDiscovery_sane (c : DiscoveryCause) (s : State) : Sane s (startDiscovery c s) :=
  ((startDiscovery_steady c s).keeps_mbc (startDiscovery_changes c s)).sane (startDiscovery_changes c s)

theorem rediscover_sane (s : State) : Sane s (rediscover s).2 := by
  unfold rediscover; split
  · exact .refl s
  · exact startDiscovery_sane .host s

theorem refundGrant_sane (serial : Serial32) (amount : Word16) (s : State) : Sane s (refundGrant serial amount s).2 := by
  unfold refundGrant; split
  · exact .refl s
  · split
    · exact .refl s
    · next s1 hs1 =>
      have hc1 := reserveSlots_changes hs1
      have hc := hc1.seq (creditSerial_changes .grant serial.toNat amount.toNat 0 s1) (rs := [.cru, .jrn, .evu])
      obtain ⟨hso, hre⟩ := reserveSlots_slots hs1
      have hcru : s1.cru = s.cru := hc1 .cru (by decide)
      have hu := (creditSerial_uses .grant serial.toNat amount.toNat 0 s1).spends (creditSerial_changes _ _ _ _ s1)
      have h2 : Config.grantReservations = 2 := rfl
      refine hc.sane (Keeps.upholds ⟨(reserveSlots_steady hs1).trans (creditSerial_steady _ _ _ _ s1), hc.feeds,
        hc .pay (by decide), ?_, by omega⟩)
      rw [← hcru]; exact creditSerial_pendings _ _ _ _ s1

/-! ## The room mode (R165) -/

theorem closeRoom_keeps (s : State) : Keeps s (closeRoom s) :=
  (Keeps.foldl (fun s m => removeEntries_keeps m s) _ s).trans (.foldl (fun s m => disarmRefund_keeps m s) _ _)

theorem closeRoom_changes (s : State) : ChangesOnly sessionParts s (closeRoom s) :=
  ((ChangesOnly.foldl (fun s m => removeEntries_changes m s) _ s).seq
    (ChangesOnly.foldl (fun s m => disarmRefund_changes m s) _ _))

theorem setRoomMode_upholds (mode : Byte) (s : State) :
    Upholds s (setRoomMode mode s).2 ∧ (s.SettingsLegal → (setRoomMode mode s).2.SettingsLegal) := by
  unfold setRoomMode; split
  · exact ⟨.refl s, id⟩
  · next x _ =>
    split
    · exact ⟨.refl s, id⟩
    · have h1 : Upholds s (s.withSst { s.sst with roomMode := x }) := (withSst_keeps _ s).upholds
      have l1 : s.SettingsLegal → (s.withSst { s.sst with roomMode := x }).SettingsLegal := id
      have h2 := (closeRoom_keeps (s.withSst { s.sst with roomMode := x })).sane (closeRoom_changes _)
      dsimp only
      have key : Sane (s.withSst { s.sst with roomMode := x })
          (writeFree { kind := .mode, machine := 0, detail := .mode x }
            (if decide (x = .closed) = true then closeRoom (s.withSst { s.sst with roomMode := x })
              else s.withSst { s.sst with roomMode := x })) :=
        (Sane.ite h2 (.refl _)).trans (writeFree_sane _ _)
      exact ⟨h1.trans key.upholds, key.legal ∘ l1⟩

/-! ## The second (R178) -/

theorem secondElapses_sane (s : State) : Sane s (secondElapses s) := by
  have hm : Keeps s (s.withMsv (secondElapses s).msv) := by
    have hr : ∀ m, (s.withMsv (secondElapses s).msv).record m = (s.record m).tick (s.meterRuns m) := fun m => by
      simp [State.record, secondElapses]
    refine ⟨(withMsv_changes _ s).steady_msv fun h m z hz => ?_, (withMsv_changes _ s).feeds,
      .of_same rfl rfl rfl fun m => by rw [hr]; simp [MachineRecord.tick]⟩
    rw [hr] at hz
    obtain ⟨z0, hz0, rfl⟩ := Option.map_eq_some_iff.mp hz
    exact z0.tick_keepsSum _ _ (h m z0 hz0)
  set s1 := s.withMsv (secondElapses s).msv
  have hf : Keeps s1 (s1.withFba (secondElapses s).fba) := withFba_keeps _ s1
  set s2 := s1.withFba (secondElapses s).fba
  have hp : Upholds s2 (s2.withPay (secondElapses s).pay) :=
    .of_orders (withPay_changes _ s2) fun st => by
      cases st
      · change (s.pay.a.order.map _).map _ = s.pay.a.order.map _
        cases s.pay.a.order <;> rfl
      · change (s.pay.b.order.map _).map _ = s.pay.b.order.map _
        cases s.pay.b.order <;> rfl
  have hs : Sane (s2.withPay (secondElapses s).pay) ((s2.withPay (secondElapses s).pay).withSst (secondElapses s).sst) :=
    withSst_sane _ _
  have h1 : Sane s (s2.withPay (secondElapses s).pay) := Upholds.sane ((hm.upholds.trans hf.upholds).trans hp) rfl
  exact h1.trans hs

end Sys2Proof.Machine
end

section
/-! PROOF. What the resets keep (chapter 10 section 5), and what every command keeps: the obligations on invariants. -/
namespace Sys2Proof.Machine

/-! ## What every part of a reset keeps -/

/-- Between two states: the invariants that do not speak of the feeder are kept. -/
structure Carries (s t : State) : Prop where
  attn    : s.AttnRight → t.AttnRight
  journal : s.JournalFits → t.JournalFits
  money   : s.MoneyWhole → t.MoneyWhole
  refunds : s.RefundsFit → t.RefundsFit
  queue   : s.QueuePlaces → t.QueuePlaces
  cards   : s.CardsApart → t.CardsApart
  books   : s.BooksBacked → t.BooksBacked
  legal   : s.SettingsLegal → t.SettingsLegal

theorem Carries.trans {s t u : State} (h : Carries s t) (k : Carries t u) : Carries s u :=
  ⟨k.attn ∘ h.attn, k.journal ∘ h.journal, k.money ∘ h.money, k.refunds ∘ h.refunds, k.queue ∘ h.queue, k.cards ∘ h.cards,
    k.books ∘ h.books, k.legal ∘ h.legal⟩

theorem Upholds.carries {s t : State} (h : Upholds s t) (hl : s.SettingsLegal → t.SettingsLegal) : Carries s t :=
  ⟨h.steady.attn, h.steady.journal, h.steady.money, h.steady.refunds, h.steady.queue, h.cards, h.books, hl⟩

theorem Sane.carries {s t : State} (h : Sane s t) : Carries s t := h.upholds.carries h.legal

theorem Carries.refl (s : State) : Carries s s := (Sane.refl s).carries
theorem Carries.ite {s t u : State} {c : Prop} [Decidable c] (h : Carries s t) (k : Carries s u) : Carries s (if c then t else u) := by
  split <;> assumption

/-- Every invariant is kept. -/
structure KeepsAll (s t : State) : Prop where
  carries : Carries s t
  feeds   : Feeds s t

theorem Sane.keepsAll {s t : State} (h : Sane s t) : KeepsAll s t := ⟨h.carries, h.upholds.feeds⟩
theorem KeepsAll.refl (s : State) : KeepsAll s s := (Sane.refl s).keepsAll
theorem KeepsAll.trans {s t u : State} (h : KeepsAll s t) (k : KeepsAll t u) : KeepsAll s u :=
  ⟨h.carries.trans k.carries, h.feeds.trans k.feeds⟩

/-- A change of blocks that no invariant but the feeder's is about. -/
theorem ChangesOnly.carries {ps : List Part} {s t : State} (hc : ChangesOnly ps s t)
    (hp : (Part.evu ∉ ps ∧ Part.jrn ∉ ps ∧ Part.cru ∉ ps ∧ Part.msv ∉ ps ∧ Part.mbc ∉ ps) ∧ Part.pay ∉ ps ∧ Part.sst ∉ ps := by decide) :
    Carries s t := by
  have hst := hc.steady hp.1
  have hb := hc.backed ⟨hp.2.1, hp.1.2.2.1, hp.1.2.1, hp.1.2.2.2.1⟩
  refine ⟨hst.attn, hst.journal, hst.money, hst.refunds, hst.queue, hb.cards, hb.books, ?_⟩
  unfold State.SettingsLegal; rw [show t.sst = s.sst from hc .sst hp.2.2]; exact id

/-- A change of SST beside parts that stand carries where the settings stay legal. -/
theorem withSst_carries (x : Sst) (s : State)
    (h : s.SettingsLegal → x.working.Legal ∧ x.image.Legal ∧ ∀ g, x.commit = some g → g.Legal) : Carries s (s.withSst x) := by
  have hc := withSst_changes x s
  exact ⟨hc.steady.attn, hc.steady.journal, hc.steady.money, hc.steady.refunds, hc.steady.queue, hc.backed.cards, hc.backed.books, h⟩

/-! ## The fill slots (R56, R73) -/

theorem toList_eq_map_at {α : Type} (v : PerMachine α) : v.toArray.toList = allMachines.map v.at := by
  refine List.ext_getElem (by simp [allMachines]) fun i h1 h2 => ?_
  have hi : i < 24 := by simpa using h1
  have hm : ∀ j : Fin 24, allMachines[j.val]'(by simp [allMachines]) = j := by decide
  simp only [List.getElem_map, hm ⟨i, hi⟩]
  rfl

/-- R56: the fill count by machine. -/
theorem fillCount_eq (s : State) : s.fba.fillCount = (allMachines.filter fun m => (s.grant m).fill).length := by
  unfold Fba.fillCount
  rw [toList_eq_map_at, List.filter_map, List.length_map]
  rfl

theorem trimOne_regrants (m : Addr) (s : State) : Regrants s (trimOne s m) := by
  unfold trimOne; split
  · exact changeGrant_regrants m _ false s (fun h => nomatch h)
  · exact setGrant_regrants m _ s (fun h => nomatch h)

theorem trimOne_fillCount (m : Addr) (s : State) : (trimOne s m).fba.fillCount + (s.grant m).fill.toNat = s.fba.fillCount := by
  unfold trimOne; split
  · exact changeGrant_fillCount m _ false s
  · exact fillCount_setGrant m _ s

theorem trimOne_apart {m n : Addr} (h : n ≠ m) (s : State) : Apart m s (trimOne s n) := by
  unfold trimOne; split
  · exact apart_changeGrant h _ _ s
  · exact apart_mapGrant h _ s

theorem foldl_trimOne_regrants (l : List Addr) (s : State) : Regrants s (l.foldl trimOne s) := by
  induction l generalizing s with
  | nil => exact .refl s
  | cons m l ih => exact (trimOne_regrants m s).trans (ih _)

/-- Trimming machines that hold fill takes one slot back for each. -/
theorem foldl_trimOne_fillCount (l : List Addr) (s : State) (hn : l.Nodup) (hf : ∀ m ∈ l, (s.grant m).fill = true) :
    (l.foldl trimOne s).fba.fillCount + l.length = s.fba.fillCount := by
  induction l generalizing s with
  | nil => rfl
  | cons n l ih =>
    obtain ⟨hn1, hn2⟩ := List.nodup_cons.mp hn
    have hrest : ∀ m ∈ l, ((trimOne s n).grant m).fill = true := fun m hm => by
      have hne : n ≠ m := by rintro rfl; exact hn1 hm
      rw [(trimOne_apart hne s).grant]
      exact hf m (List.mem_cons_of_mem n hm)
    have h1 := ih (trimOne s n) hn2 hrest
    have h2 := trimOne_fillCount n s
    rw [hf n List.mem_cons_self, Bool.toNat_true] at h2
    rw [List.foldl_cons, List.length_cons]
    omega

theorem trimFill_regrants (s : State) : Regrants s (trimFill s) := foldl_trimOne_regrants _ s

/-- R73, R56: after the trim the fill count is within the limit, whatever it was. -/
theorem trimFill_fillWithinLimit (s : State) : (trimFill s).FillWithinLimit := by
  have hsst : (trimFill s).sst = s.sst := (trimFill_regrants s).changes .sst (by decide)
  have hcount : (trimFill s).fba.fillCount + (trimmed s.fillLimit s.fba).length = s.fba.fillCount := by
    refine foldl_trimOne_fillCount _ s ((allMachines_nodup.filter _).sublist (List.drop_sublist _ _)) fun m hm => ?_
    exact (List.mem_filter.mp (List.mem_of_mem_drop hm)).2
  have hlen : (trimmed s.fillLimit s.fba).length = s.fba.fillCount - s.fillLimit := by
    rw [fillCount_eq]
    exact List.length_drop
  unfold State.FillWithinLimit
  rw [hsst]
  unfold State.fillLimit at *
  omega

theorem trimFill_carries (s : State) : Carries s (trimFill s) := by
  have h := trimFill_regrants s
  have hst := h.steady
  refine ⟨hst.attn, hst.journal, hst.money, hst.refunds, hst.queue, h.changes.backed.cards, h.changes.backed.books, ?_⟩
  unfold State.SettingsLegal; rw [show (trimFill s).sst = s.sst from h.changes .sst (by decide)]; exact id

/-! ## The beginning of a reset (R180, R181) -/

theorem factory_legal : Settings.factory.Legal := by
  refine ⟨⟨by decide, by decide⟩, ⟨by decide, by decide⟩, ?_, ⟨by decide, List.nodup_nil⟩, ⟨?_, ?_⟩, ?_⟩
  · unfold Limits.InRange; decide
  · intro i b hb; simp [Settings.factory] at hb
  · intro i j b c hb; simp [Settings.factory] at hb
  · intro i p hp; simp [Settings.factory] at hp

theorem cleared_attnRight {s : State} (h : s.evu = .cleared) : s.AttnRight := by
  rw [attnRight_iff_calls, h]; rfl

theorem quietLink_carries (k : ResetKind) (s : State) : Carries s (quietLink k s) := by
  have h1 : Carries s (s.withHli { s.hli with buffer := none, linkErrors := 0 }) := (withHli_changes _ s).carries
  have h2 : ∀ u : State, Carries u (u.withEvu .cleared) := fun u => ⟨fun _ => cleared_attnRight rfl, id, id, id, id, id, id, id⟩
  exact (h1.trans (h2 _)).trans (withSst_carries _ _ id)

theorem atReset_session (r : MachineRecord) : r.atReset.session = r.session.map Session.atReset := by
  unfold MachineRecord.atReset; dsimp only; split <;> rfl

theorem fresh_queuePlaces {s : State} {nodes : PerMachine NodeEntry} (h : s.mbc = .fresh nodes) : s.QueuePlaces := by
  intro m c; rw [h]; simp [Mbc.fresh]

theorem keepRetained_exchange (st : Station) (s : State) : ((keepRetained s).exchange st).order = (s.exchange st).order := by
  cases st <;> rfl

theorem keepRetained_record (m : Addr) (s : State) : (keepRetained s).record m = (s.record m).atReset := by
  simp [State.record, keepRetained]

theorem keepRetained_carries (s : State) : Carries s (keepRetained s) := by
  have hses : SameSessions s (keepRetained s) := fun m => by
    rw [keepRetained_record, atReset_session, Option.isSome_map]
  have howed : (keepRetained s).slotsOwed = s.slotsOwed := by
    unfold State.slotsOwed
    simp only [hses _]
    rfl
  have hmoney : s.MoneyWhole → (keepRetained s).MoneyWhole := fun h m z hz => by
    rw [keepRetained_record, atReset_session] at hz
    obtain ⟨z0, hz0, rfl⟩ := Option.map_eq_some_iff.mp hz
    exact h m z0 hz0
  refine ⟨id, id, hmoney, id, fun _ => fresh_queuePlaces rfl, id, ?_, id⟩
  rintro ⟨h1, h2, h3, h4, h5⟩
  refine ⟨h1, h2, h3, fun st o ho => h4 st o ?_, ?_⟩
  · rwa [keepRetained_exchange] at ho
  · rw [howed]; exact h5

theorem clearRetained_carries (s : State) : Carries s (clearRetained s) := by
  have hrec : ∀ m, ((clearRetained s).record m).session = none := fun m => by
    simp [State.record, clearRetained, PerMachine.at, MachineRecord.cleared]
  have hord : ∀ st, ((clearRetained s).exchange st).order = none := fun st => by cases st <;> rfl
  have hcards : (clearRetained s).CardsApart := fun x y hx => nomatch hx
  refine ⟨id, fun _ => Nat.zero_le _, fun _ m z hz => ?_, fun _ => ⟨Nat.zero_le _, List.nodup_nil⟩, fun _ => fresh_queuePlaces rfl,
    fun _ => hcards, fun _ => ⟨hcards, Nat.zero_le _, List.nodup_nil, fun st o ho => ?_, ?_⟩, id⟩
  · rw [hrec] at hz; cases hz
  · rw [hord] at ho; cases ho
  · unfold State.slotsOwed
    simp only [hrec]
    exact Nat.le_refl 0

theorem halted_carries (b : Bool) (s : State) : Carries s (s.withPay { s.pay with halted := b }) :=
  Upholds.carries (.of_orders (withPay_changes _ s) fun st => by cases st <;> rfl) id

theorem serviceStrap_carries (b : Bool) (s : State) : Carries s (serviceStrap b s) := by
  unfold serviceStrap; split
  · exact (withSst_carries { s.sst with lock := false, lockCode := none } s id).trans (halted_carries false _)
  · exact .refl s

theorem loadSettings_carries (s : State) : Carries s (loadSettings s) :=
  withSst_carries _ s fun ⟨_, hi, _⟩ => ⟨by dsimp only; split; exacts [hi, factory_legal], hi, fun _ h => nomatch h⟩

theorem verifyLoaded_carries (s : State) : Carries s (verifyLoaded s) := .ite (halted_carries true s) (.refl s)

/-- R181: a warm reset that begins keeps every invariant; its trim keeps the fill slots within the limit just loaded. -/
theorem beginWarm_keepsAll (k : ResetKind) (s : State) : KeepsAll s (beginWarm k s) := by
  have h1 : Carries s (keepRetained (quietLink k s)) := (quietLink_carries k s).trans (keepRetained_carries _)
  set s2 := verifyLoaded (loadSettings (keepRetained (quietLink k s)))
  have h2 : Carries s s2 := h1.trans ((loadSettings_carries _).trans (verifyLoaded_carries _))
  refine ⟨(h2.trans (trimFill_carries s2)).trans (withPhase_changes _ _).carries, fun _ => ?_, fun _ hr => nomatch hr⟩
  exact trimFill_fillWithinLimit s2

theorem losePower_keepsAll (s : State) : KeepsAll s (losePower s) := by
  have h1 : Carries s ((s.withPhase .off).withHli { s.hli with buffer := none }) :=
    ((withPhase_changes _ s).carries).trans (withHli_changes _ _).carries
  exact ⟨⟨fun _ => cleared_attnRight rfl, h1.journal, h1.money, h1.refunds, h1.queue, h1.cards, h1.books, h1.legal⟩,
    id, fun _ hr => nomatch hr⟩

/-! ## The end of a reset (R181) -/

theorem restop_changes (m : Addr) (s : State) : ChangesOnly [.mbc] s (restop m s) := .ite (queueControl_changes m _ s) (.refl _ s)

theorem restop_keeps (m : Addr) (s : State) : Keeps s (restop m s) := .ite (queueControl_keeps m _ s) (.refl s)

theorem lossEvents_changes (b c : Bool) (s : State) : ChangesOnly [.evu] s (lossEvents b c s) :=
  ((setEventIf_changes _ _ s).seq (setEventIf_changes _ _ _) (rs := [.evu])).seq (setEventIf_changes _ _ _)

theorem journalEvents_changes (s : State) : ChangesOnly [.evu] s (journalEvents s) :=
  ((setEventIf_changes _ _ s).seq (setEventIf_changes _ _ _) (rs := [.evu])).seq (setEventIf_changes _ _ _)

theorem lossEvents_keeps (b c : Bool) (s : State) : Keeps s (lossEvents b c s) :=
  ((setEventIf_keeps _ _ s).trans (setEventIf_keeps _ _ _)).trans (setEventIf_keeps _ _ _)

theorem journalEvents_keeps (s : State) : Keeps s (journalEvents s) :=
  ((setEventIf_keeps _ _ s).trans (setEventIf_keeps _ _ _)).trans (setEventIf_keeps _ _ _)

theorem takeDemand_declares (s : State) : Keeps s (takeDemand s) ∧ (takeDemand s).fba.Declared := by
  have h0 := withFba_keeps { s.fba with demand := s.fba.line, debounce := 0 } s
  have h := recomputeBudget_declares (s.withFba { s.fba with demand := s.fba.line, debounce := 0 })
  unfold takeDemand
  exact ⟨(h0.trans h.1).trans (setEventIf_keeps _ _ _), by rw [setEventIf_fba]; exact h.2⟩

theorem takeDemand_changes (s : State) : ChangesOnly [.msv, .mbc, .fba, .evu] s (takeDemand s) :=
  ((withFba_changes _ s).seq (recomputeBudget_changes _) (rs := [.msv, .mbc, .fba, .evu])).seq (setEventIf_changes _ _ _)

theorem forMachines_restop_changes (s : State) : ChangesOnly [.mbc] s (forMachines restop s) := .forMachines restop_changes s

theorem convertExchange_changes (st : Station) (s : State) :
    ChangesOnly [.msv, .pay, .cru, .flm, .jrn, .evu] s (convertExchange st s) := by
  unfold convertExchange; split
  · exact .refl _ s
  · exact (recordUncertain_changes _ _ s).seq (idleExchange_changes st _)

/-- What a reset's end does between taking the demand and running again: STOP(abort), the exchanges and the events. -/
def settleReset (b c : Bool) (s : State) : State :=
  lossEvents b c (journalEvents (convertExchange .b (convertExchange .a (forMachines restop s))))

/-- The part runs again: the recovery window is open, and the baud rate is the one just read. -/
def resume (fast : Bool) (s : State) : State :=
  let s1 := s.withMsv { s.msv with recoveryWindow := some Config.recoverySeconds }
  (s1.withHli { s1.hli with fast := fast }).withPhase .running

theorem finishReset_eq (b c fast : Bool) (s : State) : finishReset b c fast s = resume fast (settleReset b c (takeDemand s)) := by
  simp only [finishReset, settleReset, resume]

theorem settleReset_changes (b c : Bool) (s : State) :
    ChangesOnly [.msv, .mbc, .pay, .cru, .flm, .jrn, .evu] s (settleReset b c s) := by
  have h1 := (forMachines_restop_changes s).seq (convertExchange_changes .a _) (rs := [.msv, .mbc, .pay, .cru, .flm, .jrn, .evu])
  have h2 := (h1.seq (convertExchange_changes .b _) (rs := [.msv, .mbc, .pay, .cru, .flm, .jrn, .evu])).seq
    (journalEvents_changes _) (rs := [.msv, .mbc, .pay, .cru, .flm, .jrn, .evu])
  exact h2.seq (lossEvents_changes b c _)

theorem settleReset_sane (b c : Bool) (s : State) : Sane s (settleReset b c s) :=
  (settleReset_changes b c s).sane
    ((((Keeps.forMachines restop_keeps s).upholds.trans (convertExchange_upholds .a _)).trans
      (convertExchange_upholds .b _)).trans ((journalEvents_keeps _).trans (lossEvents_keeps b c _)).upholds)

theorem resume_changes (fast : Bool) (s : State) : ChangesOnly [.phase, .msv, .hli] s (resume fast s) :=
  ((withMsv_changes _ s).seq (withHli_changes _ _) (rs := [.msv, .hli])).seq (withPhase_changes _ _)

/-- The part may run again where the budget is declared. -/
theorem resume_sane (fast : Bool) {s : State} (h : s.fba.Declared) : Sane s (resume fast s) := by
  have h1 : Keeps s (s.withMsv { s.msv with recoveryWindow := some Config.recoverySeconds }) := withMsv_records_keeps _ s rfl
  set s1 := s.withMsv { s.msv with recoveryWindow := some Config.recoverySeconds }
  have h2 := withHli_changes { s.hli with fast := fast } s1
  have h3 := withPhase_changes .running (s1.withHli { s.hli with fast := fast })
  have h4 : Upholds (s1.withHli { s.hli with fast := fast }) (resume fast s) :=
    ⟨h3.steady, ⟨id, fun _ _ => h⟩, h3.backed.cards, h3.backed.books⟩
  exact (resume_changes fast s).sane ((h1.trans h2.keeps).upholds.trans h4)

/-- A reset's end leaves what it finds of the feeder's books once the demand is taken. -/
theorem settleReset_declared (b c : Bool) (s : State) : (settleReset b c (takeDemand s)).fba.Declared := by
  rw [show (settleReset b c (takeDemand s)).fba = (takeDemand s).fba from settleReset_changes b c _ .fba (by decide)]
  exact (takeDemand_declares s).2

theorem finishReset_declared (b c fast : Bool) (s : State) : (finishReset b c fast s).fba.Declared := by
  rw [finishReset_eq, show (resume fast (settleReset b c (takeDemand s))).fba = (settleReset b c (takeDemand s)).fba from
    resume_changes fast _ .fba (by decide)]
  exact settleReset_declared b c s

/-- R181: the end of a reset is an ordinary step: it keeps every invariant and clears no flag. -/
theorem finishReset_sane (b c fast : Bool) (s : State) : Sane s (finishReset b c fast s) := by
  rw [finishReset_eq]
  exact (((takeDemand_declares s).1.sane (takeDemand_changes s)).trans (settleReset_sane b c _)).trans
    (resume_sane fast (settleReset_declared b c s))

theorem endWarm_sane (fast : Bool) (s : State) : Sane s (endWarm fast s) := by
  unfold endWarm; split
  · have h := withResetHeld_changes false s
    exact (h.sane h.keeps.upholds).trans (finishReset_sane _ _ _ _)
  · exact .refl s
  · exact .refl s

/-- R180: a cold reset keeps every invariant, from whatever state it finds. -/
theorem coldReset_keepsAll (ok strap image fast : Bool) (s : State) : KeepsAll s (coldReset ok strap image fast s) := by
  unfold coldReset
  extract_lets _ s0 s1 lost s2 s3
  have h0 : Carries s s0 := (withSst_carries { s.sst with imageCheck := s.sst.imageCheck && image } s id).trans (quietLink_carries _ _)
  have h1 : Carries s s1 := h0.trans (.ite (keepRetained_carries s0) (clearRetained_carries s0))
  have hload : Carries s (verifyLoaded (loadSettings (serviceStrap strap s1))) :=
    ((h1.trans (serviceStrap_carries strap s1)).trans (loadSettings_carries _)).trans (verifyLoaded_carries _)
  have h2 : Carries s s2 := hload.trans (trimFill_carries _)
  have hfill : s2.FillWithinLimit := trimFill_fillWithinLimit _
  have hout := (withResetHeld_changes false s2).seq (withOut_changes { lineA := none, lineB := none, beacon := none } _)
    (rs := [.resetHeld, .out])
  have h3 : Sane s2 s3 := (hout.sane hout.keeps.upholds).trans (finishReset_sane (!ok) lost fast _)
  have h4 : Sane s3 (startDiscovery .startUp s3) := startDiscovery_sane .startUp s3
  refine ⟨(h2.trans h3.carries).trans h4.carries, fun _ => h4.upholds.feeds.fill (h3.upholds.feeds.fill hfill), fun _ => ?_⟩
  exact h4.upholds.feeds.budget fun _ => finishReset_declared (!ok) lost fast _

end Sys2Proof.Machine
end

section
/-! PROOF. What every command keeps: the obligations on invariants, on what is lost, and on the queue of commands. -/
namespace Sys2Proof.Machine

/-! ## Every ordinary command -/

/-- The commands that may not clear a flag, take a record out of the journal or change the room mode, nor begin a reset. -/
def ordinary : Instr → Bool
  | .coldReset _ _ _ _ | .resetInputAsserted | .replySent | .powerFailure | .readEvents _ | .journalRelease _ | .setRoomMode _ => false
  | _ => true

theorem setEventMask_sane (masks : BitVec 24) (enables : Byte) (s : State) : Sane s (setEventMask masks enables s).2 := by
  unfold setEventMask; split
  · have hc := withEvu_changes (s.evu.setMasks (masks.setWidth 19) (enables.getLsbD 0) (enables.getLsbD 1)) s
    exact hc.sane ⟨⟨fun _ => attnRight_of_findAttn rfl, fun _ => id, List.prefix_rfl, id, id, id, id⟩, hc.feeds, hc.backed.cards,
      hc.backed.books⟩
  · exact .refl s

theorem completeScan_sane (s : State) : Sane s (completeScan s) :=
  have hc := withMbc_changes { s.mbc with scanComplete := true } s
  ((hc.steady_mbc id).keeps_mbc hc).sane hc

theorem assignUnanswered_sane (s : State) : Sane s (assignUnanswered s) :=
  ((assignUnanswered_steady s).keeps_mbc (assignUnanswered_changes s)).sane (assignUnanswered_changes s)

theorem closePeriod_sane (s : State) : Sane s (closePeriod s) :=
  ((closePeriod_steady s).keeps_mbc (closePeriod_changes s)).sane (closePeriod_changes s)

theorem demandLine_sane (d : Demand) (s : State) : Sane s (demandLine d s) := by
  unfold demandLine; dsimp only
  exact .ite (.refl s) (.ite ((withFba_keeps _ s).sane (withFba_changes _ s)) ((withFba_keeps _ s).sane (withFba_changes _ s)))

/-- A fault that is due is an ordinary step. -/
theorem takeFault_sane (m : Addr) (k : FaultKind) (p : Bool) (s : State) : Sane s (takeFault m k p s) :=
  (takeFault_keeps m k p s).sane (takeFault_changes m k p s)

theorem excessIfDue_sane (m : Addr) (p : Bool) (s : State) : Sane s (excessIfDue m p s) :=
  whenDue_sane s ((reportExcess_keeps m p s).sane (reportExcess_changes m p s))

theorem disarmRefund_sane (m : Addr) (s : State) : Sane s (disarmRefund m s) :=
  (disarmRefund_keeps m s).sane (disarmRefund_changes m s)

/-- Every ordinary command is taken and keeps every invariant, every flag, every record and the room mode. -/
theorem exec_ordinary (c : Instr) (s : State) (hc : ordinary c = true) : ∃ t, exec c s = .next t ∧ Sane s t := by
  cases c
  case coldReset | resetInputAsserted | replySent | powerFailure | readEvents | journalRelease | setRoomMode => cases hc
  case warmResetEnd fast => exact ⟨_, rfl, endWarm_sane fast s⟩
  case goodFrame k p => exact ⟨_, rfl, whenRunning_sane s (takeGoodFrame_sane k p s)⟩
  case badFrame | frameGap => exact ⟨_, rfl, whenRunning_sane s (takeBadFrame_sane s)⟩
  case getStatus | getNodes | getQueue | getCredits | getPending | getMachine | getFault | journalRead | reset =>
    exact ⟨_, rfl, serveWith_sane (.refl s)⟩
  case setEventMask a b => exact ⟨_, rfl, serveWith_sane (setEventMask_sane a b s)⟩
  case setClock d m => exact ⟨_, rfl, serveWith_sane (setClock_sane d m s)⟩
  case setProgram i form => exact ⟨_, rfl, serveWith_sane (setProgram_sane i form s)⟩
  case setTariff i form => exact ⟨_, rfl, serveWith_sane (setTariff_sane i form s)⟩
  case setBudget b p => exact ⟨_, rfl, serveWith_sane (setBudget_sane b p s)⟩
  case setLimits a => exact ⟨_, rfl, serveWith_sane (setLimits_sane a s)⟩
  case commitSettings => exact ⟨_, rfl, serveWith_sane (commitSettings_sane s)⟩
  case commitWriteEnd => exact ⟨_, rfl, whenRunning_sane s (commitWriteEnd_sane s)⟩
  case lockPrices => exact ⟨_, rfl, serveWith_sane (lockPrices_sane s)⟩
  case setScreenMode x => exact ⟨_, rfl, serveWith_sane (setScreenMode_sane x s)⟩
  case screenAdd x => exact ⟨_, rfl, serveWith_sane (screenAdd_sane x s)⟩
  case screenRemove x => exact ⟨_, rfl, serveWith_sane (screenRemove_sane x s)⟩
  case setHashBit i v => exact ⟨_, rfl, serveWith_sane (setHashBit_sane i v s)⟩
  case clearHash => exact ⟨_, rfl, serveWith_sane (clearHash_sane s)⟩
  case serviceOut m b => exact ⟨_, rfl, serveWith_sane (serviceOut_sane m b s)⟩
  case serviceReturn m => exact ⟨_, rfl, serveWith_sane (serviceReturn_sane m s)⟩
  case abortCycle m b => exact ⟨_, rfl, serveWith_sane (abortCycle_sane m b s)⟩
  case rediscover => exact ⟨_, rfl, serveWith_sane (rediscover_sane s)⟩
  case refundGrant k a => exact ⟨_, rfl, serveWith_sane (refundGrant_sane k a s)⟩
  case purchase st msg =>
    exact ⟨_, rfl, whenRunning_sane s (.ite ((takePurchase_changes st msg s).sane (takePurchase_upholds st msg s))
      ((discardMessage_changes st s).sane (discardMessage_upholds st s)))⟩
  case result st msg =>
    exact ⟨_, rfl, whenRunning_sane s (.ite ((takeResult_changes st msg s).sane (takeResult_upholds st msg s))
      ((discardMessage_changes st s).sane (discardMessage_upholds st s)))⟩
  case cancel => exact ⟨_, rfl, .refl s⟩
  case stationMessageDiscarded st =>
    exact ⟨_, rfl, whenRunning_sane s ((discardMessage_changes st s).sane (discardMessage_upholds st s))⟩
  case resultTimerExpiry st =>
    exact ⟨_, rfl, whenRunning_sane s (whenDue_sane s ((resultExpiry_changes st s).sane (resultExpiry_upholds st s)))⟩
  case beacon => exact ⟨_, rfl, afterSlot_sane s fun u => (sendBeacon_keeps u).sane (sendBeacon_changes u)⟩
  case validReport m r =>
    refine ⟨_, rfl, afterSlot_sane s fun u => ?_⟩
    split
    · exact (takeValid_keeps m _ u).sane (takeValid_changes m _ u)
    · exact (takeMalformed_keeps m u).sane (takeMalformed_changes m u)
  case malformedReport m => exact ⟨_, rfl, afterSlot_sane s fun u => (takeMalformed_keeps m u).sane (takeMalformed_changes m u)⟩
  case checkError m => exact ⟨_, rfl, afterSlot_sane s fun u => (takeCheckError_keeps m u).sane (takeCheckError_changes m u)⟩
  case emptySlot m => exact ⟨_, rfl, afterSlot_sane s fun u => (mapNode_keeps m _ u).sane (mapNode_changes m _ u)⟩
  case periodClose => exact ⟨_, rfl, afterSlot_sane s closePeriod_sane⟩
  case silenceNotice m =>
    exact ⟨_, rfl, whenRunning_sane s (whenDue_sane s ((silenceNotice_keeps m s).sane
      ((mapNode_changes m _ s).seq (giveSilence_changes m _) (rs := sessionParts))))⟩
  case nodeStale m => exact ⟨_, rfl, whenRunning_sane s (whenDue_sane s ((reportStale_keeps m s).sane (reportStale_changes m s)))⟩
  case addressClash m => exact ⟨_, rfl, whenRunning_sane s (whenDue_sane s ((takeClash_keeps m s).sane (takeClash_changes m s)))⟩
  case cmdLost m cls =>
    exact ⟨_, rfl, whenRunning_sane s (whenDue_sane s ((loseCommand_keeps m cls s).sane (loseCommand_changes m cls s)))⟩
  case answerWindowClose => exact ⟨_, rfl, whenRunning_sane s (whenDue_sane s (assignUnanswered_sane s))⟩
  case firstSlotScanComplete => exact ⟨_, rfl, whenRunning_sane s (whenDue_sane s (completeScan_sane s))⟩
  case startWindowExpiry m | startWaitExpiry m => exact ⟨_, rfl, whenRunning_sane s (whenDue_sane s (disarmRefund_sane m s))⟩
  case cycleOverrun m | nodeSilent m | heldTooLong m => exact ⟨_, rfl, whenRunning_sane s (whenDue_sane s (takeFault_sane m _ _ s))⟩
  case blockTimerExpiry m =>
    exact ⟨_, rfl, whenRunning_sane s (whenDue_sane s ((blockExpiry_keeps m s).sane (blockExpiry_changes m s)))⟩
  case unloadTimerExpiry m => exact ⟨_, rfl, whenRunning_sane s (whenDue_sane s (enterState_sane m _ s))⟩
  case recoveryWindowEnd =>
    exact ⟨_, rfl, whenRunning_sane s (whenDue_sane s ((endWindow_keeps s).sane (endWindow_changes s)))⟩
  case demandLineChange d => exact ⟨_, rfl, demandLine_sane d s⟩
  case debounceTimerExpiry => exact ⟨_, rfl, whenRunning_sane s (whenDue_sane s ((takeLine_keeps s).sane (takeLine_changes s)))⟩
  case drawExcess m | drawExcessPersisting m => exact ⟨_, rfl, whenRunning_sane s (excessIfDue_sane m _ s)⟩
  case dayRollover => exact ⟨_, rfl, whenRunning_sane s (rollDay_sane s)⟩
  case clockSecond => exact ⟨_, rfl, whenRunning_sane s (secondElapses_sane s)⟩

/-! ## Every command -/

/-- The commands that may take records out of the journal. -/
def takesRecords : Instr → Bool
  | .journalRelease _ | .coldReset _ _ _ _ => true
  | _ => false

/-- The commands that may clear an event flag. -/
def clearsFlags : Instr → Bool
  | .readEvents _ | .coldReset _ _ _ _ | .resetInputAsserted | .replySent | .powerFailure => true
  | _ => false

/-- The commands that may change the room mode. -/
def setsMode : Instr → Bool
  | .setRoomMode _ | .coldReset _ _ _ _ => true
  | _ => false

/-- What a command leaves: every invariant, the queue of commands, and what it may not take. -/
structure Passes (c : Instr) (s t : State) : Prop where
  keeps   : KeepsAll s t
  queued  : t.pending = s.pending
  records : takesRecords c = false → s.jrn.records <+: t.jrn.records
  flags   : clearsFlags c = false → ∀ f, s.evu.isSet f = true → t.evu.isSet f = true
  mode    : setsMode c = false → t.sst.roomMode = s.sst.roomMode

theorem Sane.passes {s t : State} (h : Sane s t) (c : Instr) : Passes c s t :=
  ⟨h.keepsAll, h.queued, fun _ => h.upholds.steady.records, fun _ => h.upholds.steady.flags, fun _ => h.mode⟩

theorem Passes.trans {c : Instr} {s t u : State} (h : Passes c s t) (k : Passes c t u) : Passes c s u :=
  ⟨h.keeps.trans k.keeps, k.queued.trans h.queued, fun e => (h.records e).trans (k.records e),
    fun e f hf => k.flags e f (h.flags e f hf), fun e => (k.mode e).trans (h.mode e)⟩

theorem serveWith_passes {c : Instr} {b : Bool} {kind : Byte} {i : Instr} {f : Service} {s : State} (h : Passes c s (f s).2) :
    Passes c s (serveWith b kind i f s) := by
  obtain e | e | e := serveWith_cases b kind i f s <;> rw [e]
  · exact (Sane.refl s).passes c
  · exact (linkOverrun_sane s).passes c
  · exact h.trans ((putReply_sane _ _ _).passes c)

/-- A reset's beginning takes no records and leaves the room mode. -/
theorem beginWarm_stands (k : ResetKind) (s : State) :
    (beginWarm k s).pending = s.pending ∧ (beginWarm k s).jrn = s.jrn ∧ (beginWarm k s).sst.roomMode = s.sst.roomMode := by
  have hv : ∀ u : State, ChangesOnly [.pay] u (verifyLoaded u) := fun u => .ite (withPay_changes _ u) (.refl _ u)
  have hc := (hv (loadSettings (keepRetained (quietLink k s)))).seq (trimFill_regrants _).changes (rs := [.pay, .mbc, .fba])
  refine ⟨hc .pending (by decide), hc .jrn (by decide), ?_⟩
  rw [show (beginWarm k s).sst = (loadSettings (keepRetained (quietLink k s))).sst from hc .sst (by decide)]
  rfl

theorem beginWarm_passes {c : Instr} (k : ResetKind) (s : State) (hc : clearsFlags c = true) : Passes c s (beginWarm k s) := by
  obtain ⟨hq, hj, hm⟩ := beginWarm_stands k s
  exact ⟨beginWarm_keepsAll k s, hq, fun _ => by rw [hj], fun e => (nomatch hc.symm.trans e), fun _ => hm⟩

theorem assertReset_passes (s : State) : Passes .resetInputAsserted s (assertReset s) := by
  have held (u : State) : Sane u (u.withResetHeld true) :=
    (withResetHeld_changes true u).sane (withResetHeld_changes true u).keeps.upholds
  unfold assertReset; split
  · exact (beginWarm_passes _ s rfl).trans ((held _).passes _)
  · exact (held s).passes _
  · exact (Sane.refl s).passes _

theorem replySent_passes (s : State) : Passes .replySent s (replySent s) := by
  unfold replySent; split
  · have hc := withHli_changes { s.hli with buffer := none } s
    have h1 : Passes .replySent s (s.withHli { s.hli with buffer := none }) := (hc.sane hc.keeps.upholds).passes _
    dsimp only; split
    · exact h1.trans (beginWarm_passes _ _ rfl)
    · exact h1
  · exact (Sane.refl s).passes _

theorem readEvents_passes (x : Byte) (s : State) : Passes (.readEvents x) s (readEvents x s).2 := by
  unfold readEvents; split
  · exact (Sane.refl s).passes _
  · next c _ =>
    have hr : (s.withEvu (if c then s.evu.clearAll else s.evu.findAttn)).AttnRight := by
      cases c <;> exact attnRight_of_findAttn rfl
    have hc := withEvu_changes (if c then s.evu.clearAll else s.evu.findAttn) s
    exact ⟨⟨⟨fun _ => hr, id, id, id, id, id, id, id⟩, hc.feeds⟩, rfl, fun _ => List.prefix_rfl, fun e => (nomatch e), fun _ => rfl⟩

theorem journalRelease_passes (q : Word16) (s : State) : Passes (.journalRelease q) s (journalRelease q s).2 := by
  unfold journalRelease; split
  · exact (Sane.refl s).passes _
  · next n _ =>
    have hc := releaseRecords_changes n s
    have hj := releaseRecords_jrn n s
    have hattn : s.AttnRight → (releaseRecords n s).AttnRight := by
      unfold releaseRecords withJournal; dsimp only; split
      · exact id
      · split
        · exact id
        · exact (setEvent_steady _ _).attn
        · exact (setEvent_steady _ _).attn
    have hb : Backed s (releaseRecords n s) :=
      .of_same (hc .pay (by decide)) (hc .cru (by decide)) (by rw [hj]) (.of_msv (hc .msv (by decide)))
    have hsst : (releaseRecords n s).sst = s.sst := hc .sst (by decide)
    have hfit : s.JournalFits → (releaseRecords n s).JournalFits := by
      unfold State.JournalFits
      rw [hj]
      dsimp only
      rw [List.length_drop]
      omega
    exact ⟨⟨⟨hattn, hfit, hc.money (by decide), hc.refunds (by decide), hc.queue (by decide), hb.cards, hb.books,
      by unfold State.SettingsLegal; rw [hsst]; exact id⟩, hc.feeds⟩, hc .pending (by decide), fun e => (nomatch e),
      fun _ _ hf => withJournal_keeps_isSet _ hf, fun _ => by rw [hsst]⟩

theorem setRoomMode_passes (x : Byte) (s : State) : Passes (.setRoomMode x) s (setRoomMode x s).2 := by
  obtain ⟨hu, hl⟩ := setRoomMode_upholds x s
  refine ⟨⟨hu.carries hl, hu.feeds⟩, ?_, fun _ => hu.steady.records, fun _ => hu.steady.flags, fun e => (nomatch e)⟩
  unfold setRoomMode; split
  · rfl
  · split
    · rfl
    · dsimp only
      rw [show ∀ b (u : State), (writeFree b u).pending = u.pending from fun b u => writeFree_changes b u .pending (by decide)]
      split
      · exact closeRoom_changes _ .pending (by decide)
      · rfl

theorem losePower_passes (s : State) : Passes .powerFailure s (losePower s) :=
  ⟨losePower_keepsAll s, rfl, fun _ => List.prefix_rfl, fun e => (nomatch e), fun _ => rfl⟩

theorem startDiscovery_pending (c : DiscoveryCause) (s : State) : (startDiscovery c s).pending = s.pending :=
  startDiscovery_changes c s .pending (by decide)

theorem coldReset_pending (a b c d : Bool) (s : State) : (coldReset a b c d s).pending = s.pending := by
  have hv : ∀ u : State, (verifyLoaded u).pending = u.pending := fun u => by unfold verifyLoaded; split <;> rfl
  have hs : ∀ u : State, (serviceStrap b u).pending = u.pending := fun u => by unfold serviceStrap; split <;> rfl
  have ht : ∀ u : State, (trimFill u).pending = u.pending := fun u => (trimFill_regrants u).changes .pending (by decide)
  unfold coldReset
  rw [startDiscovery_pending, (finishReset_sane _ _ _ _).queued, State.withOut_pending, State.withResetHeld_pending, ht, hv]
  refine (hs _).trans ?_
  split <;> rfl

theorem coldReset_passes (a b c d : Bool) (s : State) : Passes (.coldReset a b c d) s (coldReset a b c d s) :=
  ⟨coldReset_keepsAll a b c d s, coldReset_pending a b c d s, fun e => (nomatch e), fun e => (nomatch e), fun e => (nomatch e)⟩

/-- Every command is taken; it keeps every invariant and the queue of commands, and takes only what it may. -/
theorem exec_passes (c : Instr) (s : State) : ∃ t, exec c s = .next t ∧ Passes c s t := by
  have slot (u : State) : Passes c u (whenRunning finishSlot u) := (whenRunning_sane u (finishSlot_sane u)).passes c
  cases hc : ordinary c
  · cases c
    case coldReset a b e d => exact ⟨_, rfl, (slot s).trans (coldReset_passes a b e d _)⟩
    case resetInputAsserted => exact ⟨_, rfl, (slot s).trans (assertReset_passes _)⟩
    case powerFailure => exact ⟨_, rfl, (slot s).trans (losePower_passes _)⟩
    case readEvents x => exact ⟨_, rfl, serveWith_passes (readEvents_passes x s)⟩
    case journalRelease q => exact ⟨_, rfl, serveWith_passes (journalRelease_passes q s)⟩
    case setRoomMode x => exact ⟨_, rfl, serveWith_passes (setRoomMode_passes x s)⟩
    case replySent =>
      refine ⟨_, rfl, ?_⟩
      unfold whenRunning; split
      · exact ((whenDue_sane s (finishSlot_sane s)).passes _).trans (replySent_passes _)
      · exact (Sane.refl s).passes _
    all_goals cases hc
  · obtain ⟨t, ht, h⟩ := exec_ordinary c s hc
    exact ⟨t, ht, h.passes c⟩

theorem withPending_changes (x : List Instr) (s : State) : ChangesOnly [.pending] s (s.withPending x) := by
  intro p hp; cases p <;> first | rfl | simp at hp

/-- Every step keeps every invariant. -/
theorem step_keepsAll {s t : State} (h : step s = .next t) : KeepsAll s t := by
  unfold step at h; split at h
  · cases h; exact .refl s
  · next c rest _ =>
    obtain ⟨u, hu, hp⟩ := exec_passes c (s.withPending rest)
    obtain rfl : u = t := by cases hu.symm.trans h; rfl
    have hc := withPending_changes rest s
    exact KeepsAll.trans ⟨hc.carries, hc.feeds⟩ hp.keeps

/-! ## The obligations -/

/-- Settles O50: every step keeps every invariant (`step_keepsAll`), ATTN among them. -/
theorem attnStaysRight : Obligations.AttnStaysRight := fun _ _ h hs => (step_keepsAll hs).carries.attn h

/-- Settles O51: every step keeps every invariant, the journal's bound among them. -/
theorem journalStaysWithin : Obligations.JournalStaysWithin := fun _ _ h hs => (step_keepsAll hs).carries.journal h

/-- Settles O52: every step keeps every invariant, the sessions' sums, the refund table and the stations' cards among them. -/
theorem moneyStaysWhole : Obligations.MoneyStaysWhole :=
  ⟨fun _ _ h hs => (step_keepsAll hs).carries.money h, fun _ _ h hs => (step_keepsAll hs).carries.refunds h,
    fun _ _ h hs => (step_keepsAll hs).carries.cards h⟩

/-- Settles O53: every step keeps every invariant, the books behind the reservations among them. -/
theorem booksStayBacked : Obligations.BooksStayBacked := fun _ _ h hs => (step_keepsAll hs).carries.books h

/-- Settles O54: every step keeps every invariant, the places of the bus queue among them. -/
theorem queueKeepsPlaces : Obligations.QueueKeepsPlaces := fun _ _ h hs => (step_keepsAll hs).carries.queue h

/-- Settles O55: every step keeps every invariant, the fill-slot limit among them. -/
theorem fillStaysWithinLimit : Obligations.FillStaysWithinLimit := fun _ _ h hs => (step_keepsAll hs).feeds.fill h

/-- Settles O56: every step keeps every invariant, the declared budget among them. -/
theorem budgetStaysDeclared : Obligations.BudgetStaysDeclared := fun _ _ h hs => (step_keepsAll hs).feeds.budget h

/-- Settles O57: every step keeps every invariant, the ranges of the settings among them. -/
theorem settingsStayLegal : Obligations.SettingsStayLegal := fun _ _ h hs => (step_keepsAll hs).carries.legal h

/-- Settles O59: what each command may take stands in `takesRecords`, `clearsFlags` and `setsMode`; every other command passes it
on (`exec_passes`). -/
theorem nothingIsLostUnasked : Obligations.NothingIsLostUnasked := by
  intro c s t ht
  obtain ⟨u, hu, hp⟩ := exec_passes c s
  obtain rfl : u = t := by cases hu.symm.trans ht; rfl
  refine ⟨fun h1 h2 => hp.records ?_, fun h1 h2 h3 h4 h5 => hp.flags ?_, fun h1 h2 => hp.mode ?_⟩
  · cases c
    case journalRelease q => exact absurd rfl (h1 q)
    case coldReset a b d e => exact absurd rfl (h2 a b d e)
    all_goals rfl
  · cases c
    case readEvents x => exact absurd rfl (h1 x)
    case coldReset a b d e => exact absurd rfl (h2 a b d e)
    case resetInputAsserted => exact absurd rfl h3
    case replySent => exact absurd rfl h4
    case powerFailure => exact absurd rfl h5
    all_goals rfl
  · cases c
    case setRoomMode x => exact absurd rfl (h1 x)
    case coldReset a b d e => exact absurd rfl (h2 a b d e)
    all_goals rfl

/-- Settles O1: by the definition of a step, and what every command leaves of the queue (`exec_passes`). -/
theorem stepTakesTheFront : Obligations.StepTakesTheFront := by
  refine ⟨fun c rest s h => ?_, fun s h => ?_, fun c s => ?_⟩
  · unfold step; rw [h]; rfl
  · unfold step; rw [h]
  · obtain ⟨t, ht, hp⟩ := exec_passes c s
    exact ⟨t, ht, hp.queued⟩

/-- Settles O58: the reset state has no session, order, table entry, record or grant, its queue holds one ASSIGN, and its settings are
the factory defaults. -/
theorem invariantsAtReset : Obligations.InvariantsAtReset := by
  have hrec : ∀ m, (State.reset.record m).session = none := fun m => by
    simp [State.record, State.reset, PerMachine.at, MachineRecord.cleared]
  have hord : ∀ st, (State.reset.exchange st).order = none := fun st => by cases st <;> rfl
  have hcards : State.reset.CardsApart := fun x y hx => nomatch hx
  refine ⟨(attnRight_iff_calls _).mpr (by decide), by unfold State.JournalFits; decide, fun m z hz => ?_, ⟨by decide, List.nodup_nil⟩,
    hcards, fun m c => ?_, by unfold State.FillWithinLimit; decide, ⟨factory_legal, factory_legal, fun _ h => nomatch h⟩,
    ⟨hcards, by decide, List.nodup_nil, fun st o ho => ?_, ?_⟩, fun _ => .inl (by decide)⟩
  · rw [hrec] at hz; cases hz
  · exact (List.length_filter_le _ _).trans (by decide)
  · rw [hord] at ho; cases ho
  · unfold State.slotsOwed; simp only [hrec]; decide

end Sys2Proof.Machine
end

section
/-! PROOF. What a served request answers and leaves: the reads, the event masks, the paged requests and the frames of the link
(chapters 08, 09 and 11). -/
namespace Sys2Proof.Machine

/-! ## Answers, machine numbers and option bytes -/

/-- R185: a request answered without an effect. -/
theorem onlyReplies_answer {f : Service} {s : State} {kind k : Byte} {status : Status} {data : List Byte}
    (h : f s = (⟨status, none, none, data⟩, s)) (hk : replyKind kind = k := by rfl) :
    OnlyReplies s (answerRequest kind false f s) k status data := by
  subst hk
  rw [answerRequest, h]
  exact ⟨holds_putReply rfl _, putReply_changes _ _ s⟩

/-- R185: a request answered with an effect that leaves HLI alone. -/
theorem replies_answer {f : Service} {s t : State} {kind k : Byte} {status : Status} {data : List Byte}
    (h : f s = (⟨status, none, none, data⟩, t)) (hh : t.hli = s.hli := by rfl) (hk : replyKind kind = k := by rfl) :
    Replies s (answerRequest kind false f s) k status data := by
  subst hk
  rw [answerRequest, h]
  exact holds_putReply hh _

/-- R185: a request refused without an effect. -/
theorem refuses_answer {f : Service} {s : State} {kind k : Byte} {why : RefusedReason} {data : List Byte}
    (h : f s = (.refused why data, s)) (hk : replyKind kind = k := by rfl) :
    Refuses s (answerRequest kind false f s) k why data ∧ ChangesOnly [.hli] s (answerRequest kind false f s) := by
  subst hk
  rw [answerRequest, h]
  exact ⟨holds_putReply rfl _, putReply_changes _ _ s⟩

/-- R185: what an answered request leaves but for HLI is what its block leaves. -/
theorem answerRequest_eq {f : Service} {s t : State} {a : Answer} {kind : Byte} (h : f s = (a, t)) :
    answerRequest kind false f s = putReply (a.reply kind) false t := by rw [answerRequest, h]

theorem machineOf_addrNumber (m : Addr) : machineOf (addrNumber m) = some m := by
  have := m.isLt
  unfold machineOf addrNumber
  rw [dif_pos (by omega)]
  rfl

theorem machineOf_eq_some {n : Nat} {m : Addr} (h : addrNumber m = n) : machineOf n = some m := h ▸ machineOf_addrNumber m

theorem machineOf_eq_none {n : Byte} (h : n = 0#8 ∨ 24 < n.toNat) : machineOf n.toNat = none := by
  unfold machineOf
  rw [dif_neg]
  rintro ⟨h1, h2⟩
  obtain rfl | h := h
  · exact absurd h1 (by decide)
  · omega

/-- Section 11.3: an option byte is taken exactly where it is 0 or 1. -/
theorem flagOf_of_le {b : Byte} (h : b.toNat ≤ 1) : flagOf b = some (b == 1#8) :=
  flagOf_of_bit (by
    rcases (show b.toNat = 0 ∨ b.toNat = 1 by omega) with h | h
    · exact .inl (BitVec.eq_of_toNat_eq h)
    · exact .inr (BitVec.eq_of_toNat_eq h))

/-! ## The reads of a machine, of its faults and of the journal -/

/-- Settles O9: the three requests are read-only, so that each answers from the state as it stands. -/
theorem machineAndJournalReads : Obligations.MachineAndJournalReads := by
  refine ⟨fun n s => ⟨fun hs => ⟨_, rfl, ?_⟩, fun hs => ⟨_, rfl, ?_⟩⟩, fun count s hs => ⟨_, rfl, ?_⟩⟩
  · rw [serve_of_serves hs]
    refine ⟨fun m hm => onlyReplies_answer ?_, fun hn => onlyReplies_answer ?_⟩
    · simp only [getMachine, readOnly, machineOf_eq_some hm]; rfl
    · simp only [getMachine, readOnly, machineOf_eq_none hn]; rfl
  · rw [serve_of_serves hs]
    refine ⟨fun m hm => onlyReplies_answer ?_, fun hn => onlyReplies_answer ?_⟩
    · simp only [getFault, readOnly, machineOf_eq_some hm]; rfl
    · simp only [getFault, readOnly, machineOf_eq_none hn]; rfl
  · rw [serve_of_serves hs]
    refine ⟨_, _, (List.take_append_drop (clamp 1 4 count.toNat) _).symm, ?_, onlyReplies_answer rfl⟩
    rw [List.length_take]; rfl

/-! ## The event masks (R170, R171) -/

theorem setEventMask_taken {masks : BitVec 24} {enables : Byte} (h : masks.toNat < 2 ^ 19 ∧ enables.toNat < 4) (s : State) :
    setEventMask masks enables s =
      let e := s.evu.setMasks (masks.setWidth 19) (enables.getLsbD 0) (enables.getLsbD 1)
      (.ok (flagBytes e.masks ++ enableByte e ++ flagBytes e.flags ++ markByte e.attn), s.withEvu e) := if_pos h

theorem setEventMask_turned {masks : BitVec 24} {enables : Byte} (h : ¬(masks.toNat < 2 ^ 19 ∧ enables.toNat < 4)) (s : State) :
    setEventMask masks enables s = (.badArg [], s) := if_neg h

/-- R171: the bytes of READ EVENTS for either option, by the masks and enables that stand. -/
theorem readEvents_bytes {b : Byte} (h : b.toNat ≤ 1) (s : State) :
    (readEvents b s).1 = .ok (flagBytes s.evu.flags ++ flagBytes s.evu.masks ++ enableByte s.evu
      ++ markByte (s.evu.afterImage (b == 1#8)).attn) ∧
    (readEvents b s).2 = s.withEvu (s.evu.afterImage (b == 1#8)) := by
  rw [readEvents_of_flagOf (flagOf_of_le h)]
  exact ⟨rfl, rfl⟩

theorem EventFlag.index_lt (f : EventFlag) : f.index < 19 := by cases f <;> decide

/-- Settles O11: by whether every position set names a flag or a class; ATTN is found again with the masks. -/
theorem setEventMaskReplacesAll : Obligations.SetEventMaskReplacesAll := by
  refine ⟨fun masks enables s hs => ⟨_, rfl, ?_⟩, fun clear s hs hc => ⟨_, rfl, ?_⟩⟩
  · rw [serve_of_serves hs]
    refine ⟨fun h => ?_, fun h => onlyReplies_answer (setEventMask_turned (by omega) s)⟩
    have he := setEventMask_taken h s
    rw [answerRequest_eq he]
    refine ⟨fun f => ?_, rfl, rfl, rfl, attnRight_of_findAttn rfl, holds_putReply rfl _,
      (withEvu_changes _ s).seq (putReply_changes _ _ _)⟩
    simp [Evu.setMasks, Evu.findAttn, f.index_lt]
  · rw [serve_of_serves hs]
    obtain ⟨ha, ht⟩ := readEvents_bytes hc s
    rw [answerRequest, ha, ht]
    exact holds_putReply rfl _

/-! ## Pages (R186) -/

theorem paginate_ne_nil (cur : List Byte) (items : List (List Byte)) : paginate cur items ≠ [] := by
  induction items generalizing cur with
  | nil => simp [paginate]
  | cons x rest ih => unfold paginate; split <;> simp [ih]

theorem paginate_flatten (cur : List Byte) (items : List (List Byte)) : (paginate cur items).flatten = cur ++ items.flatten := by
  induction items generalizing cur with
  | nil => simp [paginate]
  | cons x rest ih => unfold paginate; split <;> simp [ih]

theorem paginate_room {cur : List Byte} {items : List (List Byte)} (hc : cur.length ≤ 247) (h : ∀ x ∈ items, x.length ≤ 247) :
    ∀ p ∈ paginate cur items, p.length ≤ 247 := by
  induction items generalizing cur with
  | nil => simpa [paginate] using hc
  | cons x rest ih =>
    obtain ⟨hx, hrest⟩ := List.forall_mem_cons.mp h
    unfold paginate; split
    · next hfits => exact ih (by simpa [pageRoom, Config.maxPayload] using hfits) hrest
    · exact List.forall_mem_cons.mpr ⟨hc, ih hx hrest⟩

/-- R186: the pages hold whole items: the page being filled holds some already, the rest of the items are dealt out in order. -/
theorem paginate_groups (first : List (List Byte)) (items : List (List Byte)) :
    ∃ groups : List (List (List Byte)), groups.flatten = first ++ items ∧ paginate first.flatten items = groups.map List.flatten := by
  induction items generalizing first with
  | nil => exact ⟨[first], by simp, rfl⟩
  | cons x rest ih =>
    unfold paginate; split
    · obtain ⟨groups, hg, hp⟩ := ih (first ++ [x])
      exact ⟨groups, by simpa using hg, by simpa using hp⟩
    · obtain ⟨groups, hg, hp⟩ := ih [x]
      exact ⟨first :: groups, by simpa using hg, by simpa using hp⟩

/-- R186: what a paged request answers. -/
theorem paged_answer {f : State → Answer} {s : State} {kind k : Byte} {page : Option Byte} {items : List (List Byte)}
    (hf : f s = .paged page items) (hk : replyKind kind = k) :
    let t := answerRequest kind false (readOnly f) s
    ChangesOnly [.hli] s t ∧
    (∀ n data, n = (page.map (·.toNat)).getD 0 → (paginate [] items)[n]? = some data →
      Holds s t ⟨k, .ok, none, some (n, (paginate [] items).length), data⟩) ∧
    ((paginate [] items).length ≤ (page.map (·.toNat)).getD 0 → OnlyReplies s t k .badArg []) := by
  subst hk
  refine ⟨putReply_changes _ _ s, fun n data hn hd => ?_, fun h => onlyReplies_answer ?_⟩
  · subst hn
    have ha : readOnly f s = (⟨.ok, none, some ((page.map (·.toNat)).getD 0, (paginate [] items).length), data⟩, s) := by
      simp only [readOnly, hf, Answer.paged, hd]
    rw [answerRequest_eq ha]
    exact holds_putReply rfl _
  · simp only [readOnly, hf, Answer.paged, List.getElem?_eq_none h]
    rfl

/-- Settles O8: each of the five gives the page of its items; the pages are dealt out by induction on the items. -/
theorem pagedRequests : Obligations.PagedRequests := by
  refine ⟨fun i items kind page s hi hs => ?_, fun items h => ⟨by simp [paginate_flatten], paginate_ne_nil _ _,
    paginate_room (by simp) h, by simpa using paginate_groups [] items⟩⟩
  obtain ⟨rfl, rfl, rfl⟩ | ⟨rfl, rfl, rfl⟩ | ⟨rfl, rfl, rfl⟩ | ⟨rfl, rfl, rfl⟩ | ⟨rfl, rfl, rfl⟩ := hi
  all_goals
    refine ⟨_, rfl, ?_⟩
    rw [serve_of_serves hs]
    exact paged_answer rfl rfl

/-! ## Frames (R183, R184) -/

theorem whenRunning_of_running {f : State → State} {s : State} (h : s.phase = .running) : whenRunning f s = f s := by
  simp [whenRunning, State.isRunning, h]

theorem whenDue_of_due {due : State → Bool} {f : State → State} {s : State} (h : due s = true) : whenDue due f s = f s := by
  simp [whenDue, h]

theorem whenDue_of_not_due {due : State → Bool} {f : State → State} {s : State} (h : due s = false) : whenDue due f s = s := by
  simp [whenDue, h]

/-- R174: the form byte of a settings request is none of those listed. -/
theorem unknownForm_iff {kind : Byte} {payload : List Byte} : unknownForm kind payload = true ↔
    ∃ (x form : Byte) (rest : List Byte), payload = x :: form :: rest ∧
      ((kind.toNat = 14 ∧ 2 < form.toNat) ∨ (kind.toNat = 15 ∧ 1 < form.toNat)) := by
  unfold unknownForm
  split
  · next x form rest hk => simp [hk]
  · next x form rest hk => simp [hk]
  · next h14 h15 =>
    refine iff_of_false (by simp) ?_
    rintro ⟨x, form, rest, rfl, ⟨hk, -⟩ | ⟨hk, -⟩⟩
    · exact h14 x form rest hk rfl
    · exact h15 x form rest hk rfl

theorem settingsKind_iff {kind : Byte} : settingsKind kind = true ↔ 14 ≤ kind.toNat ∧ kind.toNat ≤ 24 := by
  simp [settingsKind]

/-- R183, R184: a good frame within the length that meets an empty buffer and spells a request. -/
theorem takeGoodFrame_spelled {kind : Byte} {payload : List Byte} {s : State} {r : Instr} (hl : payload.length ≤ 250)
    (hb : s.hli.buffer = none) (hr : decodeRequest kind payload = some r) :
    takeGoodFrame kind payload s = s.withHli { s.hli with buffer := some (.request r) } := by
  unfold takeGoodFrame
  rw [if_neg (by simpa [Config.maxPayload] using hl), hb, hr]

/-- R183: one that spells none is answered. -/
theorem takeGoodFrame_unspelled {kind : Byte} {payload : List Byte} {s : State} (hl : payload.length ≤ 250)
    (hb : s.hli.buffer = none) (hr : decodeRequest kind payload = none) :
    takeGoodFrame kind payload s = putReply ((unspelled kind payload s.sst).reply kind) false s := by
  unfold takeGoodFrame
  rw [if_neg (by simpa [Config.maxPayload] using hl), hb, hr]

theorem takeGoodFrame_full {kind : Byte} {payload : List Byte} {s : State} (hl : payload.length ≤ 250) (hb : s.hli.buffer ≠ none) :
    takeGoodFrame kind payload s = linkOverrun s := by
  obtain ⟨b, hb⟩ := Option.ne_none_iff_exists'.mp hb
  unfold takeGoodFrame
  rw [if_neg (by simpa [Config.maxPayload] using hl), hb]

/-- R183: the answer to a frame that spells no request, as it goes into the buffer. -/
theorem onlyReplies_unspelled {kind : Byte} {payload : List Byte} {s : State} {status : Status} {data : List Byte}
    (h : unspelled kind payload s.sst = ⟨status, none, none, data⟩) :
    OnlyReplies s (putReply ((unspelled kind payload s.sst).reply kind) false s) (replyKind kind) status data := by
  rw [h]
  exact ⟨holds_putReply rfl _, putReply_changes _ _ s⟩

theorem unspelled_of_other {kind : Byte} (payload : List Byte) (t : Sst) (h : kind.toNat < 14 ∨ 24 < kind.toNat) :
    unspelled kind payload t = .badArg [] := if_neg (by rw [settingsKind_iff]; omega)

theorem unspelled_of_settings {kind : Byte} (payload : List Byte) (t : Sst) (h : 14 ≤ kind.toNat ∧ kind.toNat ≤ 24) :
    unspelled kind payload t = if t.commit.isSome && unknownForm kind payload then .busy t.marks else .badArg t.marks :=
  if_pos (settingsKind_iff.mpr h)

/-- A counter that stands at its greatest value. -/
theorem satInc_eq_min (top n : Nat) : satInc top n = min top (n + 1) := by unfold satInc; split <;> omega

theorem badFrame_taken (s : State) :
    (takeBadFrame s).hli.linkErrors = min 65535 (s.hli.linkErrors + 1) ∧ (takeBadFrame s).hli.fast = s.hli.fast ∧
    (s.hli.buffer = none → (takeBadFrame s).hli.buffer = some (.reply ⟨0xFF#8, .badFrame, none, none, []⟩ false) ∧
      ChangesOnly [.hli] s (takeBadFrame s)) ∧
    (s.hli.buffer ≠ none → (takeBadFrame s).hli.buffer = s.hli.buffer ∧ (takeBadFrame s).evu = s.evu.set .linkOverrun ∧
      ChangesOnly [.hli, .evu] s (takeBadFrame s)) := by
  have hc := withHli_changes { s.hli with linkErrors := satInc 65535 s.hli.linkErrors } s
  cases hb : s.hli.buffer with
  | none =>
    have ht : takeBadFrame s = putReply badFrameReply false (countLinkError s) := by simp only [takeBadFrame, hb]
    rw [ht]
    exact ⟨satInc_eq_min .., rfl, fun _ => ⟨rfl, hc.seq (putReply_changes _ _ _)⟩, fun h => absurd rfl h⟩
  | some b =>
    have ht : takeBadFrame s = linkOverrun (countLinkError s) := by simp only [takeBadFrame, hb]
    rw [ht]
    exact ⟨satInc_eq_min .., rfl, fun h => absurd h (by simp), fun _ => ⟨hb, rfl, hc.seq (setEvent_changes _ _)⟩⟩

/-- Settles O7: by what the buffer holds; a frame that spells no request is answered by its kind, its form byte and the commit. -/
theorem framesTaken : Obligations.FramesTaken := by
  refine ⟨fun kind payload s hrun hl => ⟨_, rfl, ?_⟩, ?_, ?_, ?_⟩
  · rw [whenRunning_of_running hrun]
    refine ⟨fun hb => ?_, fun hb => ?_⟩
    · refine ⟨fun r hr => ?_, fun hr hk => ?_, fun hr h1 h2 => ?_⟩
      · rw [takeGoodFrame_spelled hl hb hr]; exact ⟨rfl, withHli_changes _ s⟩
      · rw [takeGoodFrame_unspelled hl hb hr]; exact onlyReplies_unspelled (unspelled_of_other payload s.sst hk)
      · have hu := unspelled_of_settings payload s.sst ⟨h1, h2⟩
        rw [takeGoodFrame_unspelled hl hb hr]
        refine ⟨fun ⟨hc, hf⟩ => onlyReplies_unspelled (hu.trans ?_), fun h => onlyReplies_unspelled (hu.trans ?_)⟩
        · rw [if_pos (by rw [Bool.and_eq_true]; exact ⟨Option.isSome_iff_ne_none.mpr hc, unknownForm_iff.mpr hf⟩)]; rfl
        · rw [if_neg]
          · rfl
          · rw [Bool.and_eq_true]
            rintro ⟨hc, hf⟩
            exact h.elim (Option.isSome_iff_ne_none.mp hc) fun hn => hn (unknownForm_iff.mp hf)
    · rw [takeGoodFrame_full hl hb]
      exact ⟨rfl, setEvent_changes _ s⟩
  · rintro c s (rfl | rfl) hrun
    all_goals
      refine ⟨_, rfl, ?_⟩
      rw [whenRunning_of_running hrun]
      exact badFrame_taken s
  · intro s r hrun hb
    refine ⟨_, rfl, ?_⟩
    rw [whenRunning_of_running hrun, whenDue_of_not_due (by simp [Hli.resets, hb])]
    simp only [replySent, hb]
    exact ⟨rfl, withHli_changes _ s⟩
  · rintro s (hb | ⟨i, hb⟩)
    all_goals
      refine congrArg Host.Outcome.next ?_
      unfold whenRunning
      split
      · dsimp only; rw [whenDue_of_not_due (by simp [Hli.resets, hb])]; simp [replySent, hb]
      · rfl

end Sys2Proof.Machine
end

section
/-! PROOF. The settings edits, the commit and the price lock (chapters 06 and 10), and SERVICE RETURN. -/
namespace Sys2Proof.Machine

/-! ## What every settings edit shares (R174) -/

theorem settingsEdit_free {f : Service} {s : State} (h : s.sst.commit = none) : settingsEdit f s = f s := by
  simp [settingsEdit, h]

/-- R174: while a commit is in progress an edit is BUSY and changes nothing. -/
theorem settingsEdit_busy (f : Service) {s : State} (h : s.sst.commit ≠ none) : settingsEdit f s = (.busy s.sst.marks, s) := by
  simp [settingsEdit, Option.isSome_iff_ne_none.mpr h]

theorem edited_changes (g : Settings) (s : State) : ChangesOnly [.sst] s (s.edited g) := withSst_changes _ s

/-- R174: the state once a screen edit has been answered. -/
theorem screenIs_edited (sc : Screen) (s : State) (r : Reply) (b : Bool) : ScreenIs s (putReply r b (s.screenEdited sc)) sc :=
  ⟨rfl, (edited_changes _ s).seq (putReply_changes _ _ _)⟩

/-! ## Commit and price lock (R177, R179) -/

/-- R174: the dispatcher serves every settings request as a settings edit, under a kind of its own. -/
theorem exec_settingsRequest {i : Instr} {kind : Byte} (hi : SettingsRequest i kind) (s : State) :
    ∃ k f, replyKind k = kind ∧ exec i s = .next (serve k i (settingsEdit f) s) := by
  cases i
  case setProgram id form => cases hi; exact ⟨0x0E#8, _, rfl, rfl⟩
  case setTariff index form => cases hi; exact ⟨0x0F#8, _, rfl, rfl⟩
  case setBudget b p => cases hi; exact ⟨0x10#8, _, rfl, rfl⟩
  case setLimits a => cases hi; exact ⟨0x11#8, _, rfl, rfl⟩
  case commitSettings => cases hi; exact ⟨0x12#8, _, rfl, rfl⟩
  case lockPrices => cases hi; exact ⟨0x13#8, _, rfl, rfl⟩
  case setScreenMode x => cases hi; exact ⟨0x14#8, _, rfl, rfl⟩
  case screenAdd k => cases hi; exact ⟨0x15#8, _, rfl, rfl⟩
  case screenRemove k => cases hi; exact ⟨0x16#8, _, rfl, rfl⟩
  case setHashBit j v => cases hi; exact ⟨0x17#8, _, rfl, rfl⟩
  case clearHash => cases hi; exact ⟨0x18#8, _, rfl, rfl⟩
  all_goals exact hi.elim

theorem commitSettings_free {s : State} (h : s.sst.commit = none) :
    commitSettings s = okMarked [] (s.withSst { s.sst with imageMarked := false, commit := some s.sst.working }) :=
  settingsEdit_free h

theorem lockPrices_free {s : State} (h : s.sst.commit = none) :
    lockPrices s = okMarked (markByte true)
      (if s.sst.lock then s else s.withSst { s.sst with lock := true, lockCode := some s.sst.working.priceCode }) :=
  settingsEdit_free h

/-- Settles O17: every settings request is a `settingsEdit`, BUSY while a commit is in progress; the rest follows each request. -/
theorem commitAndLock : Obligations.CommitAndLock := by
  refine ⟨fun i kind s hi hs hc => ?_, fun s hs hc => ⟨_, rfl, ?_⟩, fun s g hrun hg => ⟨_, rfl, ?_⟩, fun s hc => ?_,
    fun s hs hc => ⟨_, rfl, ?_⟩⟩
  · obtain ⟨k, f, hk, he⟩ := exec_settingsRequest hi s
    refine ⟨_, he, ?_⟩
    rw [serve_of_serves hs]
    exact onlyReplies_answer (settingsEdit_busy _ hc) hk
  · rw [serve_of_serves hs, answerRequest_eq (commitSettings_free hc)]
    exact ⟨rfl, holds_putReply rfl _, (withSst_changes _ s).seq (putReply_changes _ _ _)⟩
  · rw [whenRunning_of_running hrun]
    simp only [commitWriteEnd, hg]
    exact ⟨rfl, withSst_changes _ s⟩
  · refine congrArg Host.Outcome.next ?_
    unfold whenRunning
    simp [commitWriteEnd, hc]
  · rw [serve_of_serves hs, answerRequest_eq (lockPrices_free hc)]
    cases hl : s.sst.lock with
    | false =>
      simp only [Bool.false_eq_true, if_false]
      refine ⟨fun _ => ⟨rfl, ?_⟩, fun h => absurd h (by simp), holds_putReply rfl _,
        (withSst_changes _ s).seq (putReply_changes _ _ _)⟩
      simp [Sst.priceMismatch, putReply]
    | true =>
      simp only [if_true]
      exact ⟨fun h => absurd h (by simp), fun _ => rfl, holds_putReply rfl _, (putReply_changes _ _ s).up⟩

/-! ## The screen (R115 to R117) -/

theorem screenModeOf_code (x : ScreenMode) : screenModeOf x.code = some x := by cases x <;> rfl

theorem screenModeOf_none {n : Nat} (h : 2 < n) : screenModeOf n = none := by
  unfold screenModeOf; split <;> first | omega | rfl

/-- R117: a bit of the hash set once one bit has been given a value. -/
theorem withHashBit_getLsbD (h : BitVec 512) (i : Nat) (v : Bool) (j : Nat) (hj : j < 512) :
    (withHashBit h i v).getLsbD j = if j = i then v else h.getLsbD j := by
  have hbit : (1#512 <<< i).getLsbD j = decide (j = i) := by
    rw [BitVec.getLsbD_shiftLeft, BitVec.getLsbD_one]
    by_cases hji : j = i
    · subst hji; simp [hj]
    · by_cases hlt : j < i
      · simp [hji, hlt]
      · have : j - i ≠ 0 := by omega
        simp [hji, this]
  unfold withHashBit
  by_cases hji : j = i
  · subst hji
    cases v <;> simp only [Bool.false_eq_true, if_false, if_true, BitVec.getLsbD_or, BitVec.getLsbD_and, BitVec.getLsbD_not,
      hbit, decide_true] <;> simp
  · cases v <;> simp only [Bool.false_eq_true, if_false, if_true, BitVec.getLsbD_or, BitVec.getLsbD_and, BitVec.getLsbD_not,
      hbit, hji, decide_false] <;> simp [hj]

/-- R115: SET SCREEN MODE by what it asks for. -/
theorem setScreenMode_answers {mode : Byte} {s : State} (hs : s.Serves (.setScreenMode mode)) (hc : s.sst.commit = none) :
    ∃ t, exec (.setScreenMode mode) s = .next t ∧
      (2 < mode.toNat → OnlyReplies s t 0x94#8 .badArg s.sst.marks) ∧
      ∀ x : ScreenMode, x.code = mode.toNat →
        (s.pay.a.order ≠ none ∨ s.pay.b.order ≠ none → OnlyReplies s t 0x94#8 .busy s.sst.marks) ∧
        (s.pay.a.order = none → s.pay.b.order = none →
          (x = s.sst.working.screen.mode → ChangesOnly [.hli] s t) ∧
          (x ≠ s.sst.working.screen.mode → ScreenIs s t { s.sst.working.screen with mode := x }) ∧
          Replies s t 0x94#8 .ok (nat8 x.code ++ t.sst.marks)) := by
  refine ⟨_, rfl, ?_⟩
  rw [serve_of_serves hs]
  refine ⟨fun h => onlyReplies_answer ((settingsEdit_free hc).trans ?_), fun x hx => ?_⟩
  · simp only [screenModeOf_none h]; rfl
  · have hm : screenModeOf mode.toNat = some x := hx ▸ screenModeOf_code x
    refine ⟨fun h => onlyReplies_answer ((settingsEdit_free hc).trans ?_), fun ha hb => ?_⟩
    · have h' : (s.pay.a.order.isSome || s.pay.b.order.isSome) = true := by
        simpa [Option.isSome_iff_ne_none, Bool.or_eq_true] using h
      simp only [hm, h', if_true]; rfl
    · have he : setScreenMode mode s = okMarked (nat8 x.code)
          (if x = s.sst.working.screen.mode then s else s.screenEdited { s.sst.working.screen with mode := x }) := by
        refine (settingsEdit_free hc).trans ?_
        simp only [hm, ha, hb]; rfl
      rw [answerRequest_eq he]
      by_cases hx : x = s.sst.working.screen.mode
      · rw [if_pos hx]
        exact ⟨fun _ => putReply_changes _ _ s, fun h => absurd hx h, holds_putReply rfl _⟩
      · rw [if_neg hx]
        exact ⟨fun h => absurd h hx, fun _ => screenIs_edited _ s _ _, holds_putReply rfl _⟩

/-- R116: the list is answered once it is the working list. -/
theorem listAnswer_answers (kind : Byte) (l : List Nat) (s : State) {f : Service} (hf : f s = listAnswer l s) :
    ScreenIs s (answerRequest kind false f s) { s.sst.working.screen with list := l } ∧
    Replies s (answerRequest kind false f s) (replyKind kind) .ok (nat8 l.length ++ (answerRequest kind false f s).sst.marks) := by
  rw [answerRequest_eq hf]
  exact ⟨screenIs_edited _ s _ _, holds_putReply rfl _⟩

/-- R116: SCREEN ADD by what it finds. -/
theorem screenAdd_answers {k : Serial32} {s : State} (hs : s.Serves (.screenAdd k)) (hc : s.sst.commit = none) :
    ∃ t, exec (.screenAdd k) s = .next t ∧
      let list := s.sst.working.screen.list
      (k = 0#32 → OnlyReplies s t 0x95#8 .badArg s.sst.marks) ∧
      (k ≠ 0#32 → k.toNat ∉ list → 16 ≤ list.length → Refuses s t 0x95#8 .listFull s.sst.marks ∧ ChangesOnly [.hli] s t) ∧
      (k ≠ 0#32 → (k.toNat ∈ list ∨ list.length < 16) →
        ∃ l, l = (if k.toNat ∈ list then list else list ++ [k.toNat]) ∧
          ScreenIs s t { s.sst.working.screen with list := l } ∧ Replies s t 0x95#8 .ok (nat8 l.length ++ t.sst.marks)) := by
  refine ⟨_, rfl, ?_⟩
  rw [serve_of_serves hs]
  have hf := settingsEdit_free (f := fun s =>
    let list := s.sst.working.screen.list
    if k = 0#32 then badSetting s
    else if list.contains k.toNat then listAnswer list s
    else if Config.perfectSerials ≤ list.length then (.refused .listFull s.sst.marks, s)
    else listAnswer (list ++ [k.toNat]) s) hc
  change screenAdd k s = _ at hf
  simp only [List.contains_iff_mem] at hf
  refine ⟨fun hk => onlyReplies_answer (hf.trans (if_pos hk)), fun hk hm hl => refuses_answer ?_, fun hk h => ⟨_, rfl, ?_⟩⟩
  · rw [hf, if_neg hk, if_neg hm, if_pos (show Config.perfectSerials ≤ _ from hl)]
  · by_cases hm : k.toNat ∈ s.sst.working.screen.list
    · rw [if_pos hm]
      exact listAnswer_answers 0x15#8 _ s (by rw [hf, if_neg hk, if_pos hm])
    · rw [if_neg hm]
      exact listAnswer_answers 0x15#8 _ s (by
        rw [hf, if_neg hk, if_neg hm, if_neg (by simpa [Config.perfectSerials] using h.resolve_left hm)])

/-- R117: SET HASH BIT by what it finds. -/
theorem setHashBit_answers {index : Word16} {value : Byte} {s : State} (hs : s.Serves (.setHashBit index value))
    (hc : s.sst.commit = none) :
    ∃ t, exec (.setHashBit index value) s = .next t ∧
      (511 < index.toNat ∨ 1 < value.toNat → OnlyReplies s t 0x97#8 .badArg s.sst.marks) ∧
      (index.toNat ≤ 511 → value.toNat ≤ 1 →
        (∀ j, j < 512 → t.sst.working.screen.hash.getLsbD j =
          if j = index.toNat then value == 1#8 else s.sst.working.screen.hash.getLsbD j) ∧
        ((value == 1#8) = s.sst.working.screen.hash.getLsbD index.toNat → ChangesOnly [.hli] s t) ∧
        ((value == 1#8) ≠ s.sst.working.screen.hash.getLsbD index.toNat →
          ScreenIs s t { s.sst.working.screen with hash := t.sst.working.screen.hash }) ∧
        Replies s t 0x97#8 .ok (markByte (value == 1#8) ++ t.sst.marks)) := by
  refine ⟨_, rfl, ?_⟩
  rw [serve_of_serves hs]
  refine ⟨fun h => onlyReplies_answer ((settingsEdit_free hc).trans ?_), fun hi hv => ?_⟩
  · by_cases hv : 1 < value.toNat
    · simp only [flagOf_eq_none hv]; rfl
    · simp only [flagOf_of_le (Nat.le_of_not_lt hv), if_pos (h.resolve_right hv)]; rfl
  · have he : setHashBit index value s = okMarked (markByte (value == 1#8))
        (if s.sst.working.screen.hash.getLsbD index.toNat = (value == 1#8) then s
         else s.screenEdited { s.sst.working.screen with
           hash := withHashBit s.sst.working.screen.hash index.toNat (value == 1#8) }) := by
      refine (settingsEdit_free hc).trans ?_
      simp only [flagOf_of_le hv, if_neg (Nat.not_lt.mpr hi)]
    rw [answerRequest_eq he]
    by_cases hx : s.sst.working.screen.hash.getLsbD index.toNat = (value == 1#8)
    · rw [if_pos hx]
      refine ⟨fun j _ => ?_, fun _ => putReply_changes _ _ s, fun h => absurd hx.symm h, holds_putReply rfl _⟩
      split
      · next h => subst h; exact hx
      · rfl
    · rw [if_neg hx]
      exact ⟨fun j hj => withHashBit_getLsbD _ _ _ j hj, fun h => absurd h.symm hx, fun _ => screenIs_edited _ s _ _,
        holds_putReply rfl _⟩

/-- Settles O18: each edit by its argument and by what the screen holds. -/
theorem screenEdits : Obligations.ScreenEdits := by
  refine ⟨⟨fun mode s hs hc => setScreenMode_answers hs hc, fun k s hs hc => screenAdd_answers hs hc,
    fun k s hs hc => ⟨_, rfl, ?_⟩⟩, fun index value s hs hc => setHashBit_answers hs hc, fun s hs hc => ⟨_, rfl, ?_⟩⟩
  · rw [serve_of_serves hs]
    refine ⟨fun hk => onlyReplies_answer ((settingsEdit_free hc).trans (if_pos hk)), fun hk => ⟨_, rfl, ?_⟩⟩
    exact listAnswer_answers 0x16#8 _ s ((settingsEdit_free hc).trans (if_neg hk))
  · have he : clearHash s = okMarked [] (s.screenEdited { s.sst.working.screen with hash := 0#512 }) := settingsEdit_free hc
    rw [serve_of_serves hs, answerRequest_eq he]
    exact ⟨screenIs_edited _ s _ _, holds_putReply rfl _⟩

/-! ## Programs and bands (R175, R176) -/

theorem identifier_eq_some {top : Nat} {b : Byte} {i : Fin top} (h : i.val + 1 = b.toNat) : identifier top b = some i := by
  have := i.isLt
  unfold identifier
  rw [dif_pos (by omega)]
  exact congrArg some (Fin.ext (by simp; omega))

theorem identifier_eq_none {top : Nat} {b : Byte} (h : b = 0#8 ∨ top < b.toNat) : identifier top b = none := by
  unfold identifier
  rw [dif_neg]
  rintro ⟨h1, h2⟩
  obtain rfl | h := h
  · exact absurd h1 (by decide)
  · omega

/-- R175, R187: the bytes of a program that is held. -/
theorem programBytes_some (p : Program) : programBytes (some p) =
    [1#8] ++ nat8 (kindCode p.body.figures.kind) ++ nat8 p.name.length ++ p.name ++ (match p.body with
      | .washer base warm hot planned drawBase drawHeat => natBytes16 base ++ natBytes16 warm ++ natBytes16 hot
          ++ nat8 planned ++ natBytes16 drawBase ++ natBytes16 drawHeat
      | .dryer rate air low high => natBytes16 rate ++ natBytes16 air ++ natBytes16 low ++ natBytes16 high) := by
  obtain ⟨body, name⟩ := p
  cases body <;> simp [programBytes, optBytes, Program.bytes, ProgramBody.bytes]

/-- R175: SET PROGRAM within the sixteen. -/
theorem setProgram_at {id : Byte} {form : ProgramForm} {s : State} {i : Fin 16} (hc : s.sst.commit = none)
    (hi : i.val + 1 = id.toNat) : setProgram id form s = setProgramAt i form s := by
  refine (settingsEdit_free hc).trans ?_
  simp only [identifier_eq_some hi]

theorem setProgramAt_locked {form : ProgramForm} {s : State} {i : Fin 16} (hl : s.sst.lock = true)
    (hp : priceFields (ProgramForm.held form) ≠ priceFields s.sst.working.programs[i]) :
    setProgramAt i form s = (.locked s.sst.marks, s) := if_pos (by simpa [hl] using hp)

theorem setProgramAt_taken {form : ProgramForm} {s : State} {i : Fin 16}
    (h : s.sst.lock = false ∨ priceFields (ProgramForm.held form) = priceFields s.sst.working.programs[i]) :
    setProgramAt i form s = okMarked (nat8 (i.val + 1) ++ programBytes (ProgramForm.held form))
      (if ProgramForm.held form = none ∧ s.sst.working.programs[i] = none then s
       else s.edited { s.sst.working with programs := s.sst.working.programs.set i.val (ProgramForm.held form) i.isLt }) :=
  if_neg (by obtain h | h := h <;> simp [h])

/-- R175: SET PROGRAM by its identifier and the price lock. -/
theorem setProgram_answers {id : Byte} {form : ProgramForm} {s : State} (hs : s.Serves (.setProgram id form))
    (hc : s.sst.commit = none) : ∃ t, exec (.setProgram id form) s = .next t ∧
    (id = 0#8 ∨ 16 < id.toNat → OnlyReplies s t 0x8E#8 .badArg s.sst.marks) ∧
    ∀ i : Fin 16, i.val + 1 = id.toNat →
      (s.sst.lock = true ∧ priceFields (ProgramForm.held form) ≠ priceFields s.sst.working.programs[i] →
        OnlyReplies s t 0x8E#8 .locked s.sst.marks) ∧
      (s.sst.lock = false ∨ priceFields (ProgramForm.held form) = priceFields s.sst.working.programs[i] →
        (ProgramForm.held form = none → s.sst.working.programs[i] = none → ChangesOnly [.hli] s t) ∧
        t.sst.working.programs[i] = ProgramForm.held form ∧
        (∀ j : Fin 16, j ≠ i → t.sst.working.programs[j] = s.sst.working.programs[j]) ∧
        (ProgramForm.held form ≠ none ∨ s.sst.working.programs[i] ≠ none →
          t.sst =
            { s.sst with working := { s.sst.working with programs := t.sst.working.programs }, unsaved := true }) ∧
        Replies s t 0x8E#8 .ok (nat8 id.toNat ++ programBytes (ProgramForm.held form) ++ t.sst.marks) ∧
        ChangesOnly [.sst, .hli] s t) := by
  refine ⟨_, rfl, ?_⟩
  rw [serve_of_serves hs]
  refine ⟨fun h => onlyReplies_answer ((settingsEdit_free hc).trans ?_), fun i hi => ⟨fun h => onlyReplies_answer ?_, fun h => ?_⟩⟩
  · simp only [identifier_eq_none h]; rfl
  · rw [setProgram_at hc hi, setProgramAt_locked h.1 h.2]; rfl
  · rw [answerRequest_eq ((setProgram_at hc hi).trans (setProgramAt_taken h)), ← hi]
    by_cases hn : ProgramForm.held form = none ∧ s.sst.working.programs[i] = none
    · rw [if_pos hn]
      exact ⟨fun _ _ => putReply_changes _ _ s, hn.2.trans hn.1.symm, fun _ _ => rfl,
        fun h => absurd hn (by rintro ⟨h1, h2⟩; exact h.elim (· h1) (· h2)), holds_putReply rfl _, (putReply_changes _ _ s).up⟩
    · rw [if_neg hn]
      refine ⟨fun h1 h2 => absurd ⟨h1, h2⟩ hn, ?_, fun j hj => ?_, fun _ => rfl, holds_putReply rfl _,
        (edited_changes _ s).seq (putReply_changes _ _ _)⟩
      · simp [putReply, State.edited]
      · have : i.val ≠ j.val := fun h => hj (Fin.ext h.symm)
        simp [putReply, State.edited, this]

/-- R176: a band once one has been set at an index. -/
theorem replaceBand_getElem (bands : Vector (Option Band) 6) (i j : Fin 6) (b : Option Band) :
    (replaceBand bands i b)[j] = if j = i then b
      else if b.any (fun b => bands[j].any fun c => c.start == b.start) then none else bands[j] := by
  by_cases hji : j = i
  · subst hji; simp [replaceBand]
  · have : i.val ≠ j.val := fun h => hji (Fin.ext h.symm)
    cases b <;> simp [replaceBand, this, hji]

/-- R176: SET TARIFF by its index and the price lock. -/
theorem setTariff_answers {index : Byte} {form : TariffForm} {s : State} (hs : s.Serves (.setTariff index form))
    (hc : s.sst.commit = none) : ∃ t, exec (.setTariff index form) s = .next t ∧
    (index = 0#8 ∨ 6 < index.toNat → OnlyReplies s t 0x8F#8 .badArg s.sst.marks) ∧
    ∀ i : Fin 6, i.val + 1 = index.toNat →
      (s.sst.lock = true → OnlyReplies s t 0x8F#8 .locked s.sst.marks) ∧
      (s.sst.lock = false →
        t.sst.working.bands[i] = TariffForm.held form ∧
        (∀ j : Fin 6, j ≠ i → t.sst.working.bands[j] =
          if (TariffForm.held form).any (fun b => s.sst.working.bands[j].any fun c => c.start == b.start) then none
          else s.sst.working.bands[j]) ∧
        t.sst = { s.sst with working := { s.sst.working with bands := t.sst.working.bands }, unsaved := true } ∧
        Replies s t 0x8F#8 .ok ((t.sst.working.bands.toArray.toList.map bandBytes).flatten ++ t.sst.marks) ∧
        ChangesOnly [.sst, .hli] s t) := by
  refine ⟨_, rfl, ?_⟩
  rw [serve_of_serves hs]
  refine ⟨fun h => onlyReplies_answer ((settingsEdit_free hc).trans ?_), fun i hi => ⟨fun hl => onlyReplies_answer
    ((settingsEdit_free hc).trans ?_), fun hl => ?_⟩⟩
  · simp only [identifier_eq_none h]; rfl
  · simp only [identifier_eq_some hi, hl, if_true]; rfl
  · have he : setTariff index form s =
        okMarked ((replaceBand s.sst.working.bands i (TariffForm.held form)).toArray.toList.map bandBytes).flatten
          (s.edited { s.sst.working with bands := replaceBand s.sst.working.bands i (TariffForm.held form) }) := by
      refine (settingsEdit_free hc).trans ?_
      simp only [identifier_eq_some hi, hl, Bool.false_eq_true, if_false]
    rw [answerRequest_eq he]
    refine ⟨(replaceBand_getElem _ i i _).trans (if_pos rfl), fun j hj => (replaceBand_getElem _ i j _).trans (if_neg hj), rfl,
      holds_putReply rfl _, (edited_changes _ s).seq (putReply_changes _ _ _)⟩

/-- Settles O15: the two edits by their identifier, the lock and what is held; the bytes of a program follow its kind. -/
theorem priceEdits : Obligations.PriceEdits := by
  refine ⟨fun id form s hs hc => ?_, fun index form s hs hc => setTariff_answers hs hc⟩
  obtain ⟨t, ht, hbad, hgood⟩ := setProgram_answers hs hc
  refine ⟨t, ht, hbad, fun i hi => ⟨(hgood i hi).1, fun h => ?_⟩⟩
  obtain ⟨hnone, hset, hother, hsst, hreply, hch⟩ := (hgood i hi).2 h
  exact ⟨hnone, hset, hother, hsst, hreply, fun p hp => hp ▸ programBytes_some p, hch⟩

end Sys2Proof.Machine
end

section
/-! PROOF. Rules of the shared operations: what an operation on some parts leaves of the others, of one machine's entries and of
the books; what the journal takes; what a review of the admission queue may do to a record. -/
namespace Sys2Proof.Machine

/-! ## What a change of some parts leaves -/

/-- A part that is not among those changed is the same. -/
theorem ChangesOnly.at {ps : List Part} {s t : State} (h : ChangesOnly ps s t) (p : Part) (hp : ps.contains p = false := by rfl) :
    p.same s t := h p (by simpa using hp)

theorem ChangesOnly.record {ps : List Part} {s t : State} (h : ChangesOnly ps s t) (m : Addr)
    (hp : ps.contains .msv = false := by rfl) : t.record m = s.record m := by rw [State.record, h.at .msv hp]; rfl

theorem ChangesOnly.node {ps : List Part} {s t : State} (h : ChangesOnly ps s t) (m : Addr)
    (hp : ps.contains .mbc = false := by rfl) : t.node m = s.node m := by rw [State.node, h.at .mbc hp]; rfl

theorem ChangesOnly.grant {ps : List Part} {s t : State} (h : ChangesOnly ps s t) (m : Addr)
    (hp : ps.contains .fba = false := by rfl) : t.grant m = s.grant m := by rw [State.grant, h.at .fba hp]; rfl

theorem ChangesOnly.faults {ps : List Part} {s t : State} (h : ChangesOnly ps s t) (m : Addr)
    (hp : ps.contains .flm = false := by rfl) : t.faults m = s.faults m := by rw [State.faults, h.at .flm hp]; rfl

/-- An entry put twice stands as put last. -/
theorem PerMachine.put_put {α : Type} (v : PerMachine α) (m : Addr) (x y : α) : (v.put m x).put m y = v.put m y := by
  simp [PerMachine.put]

theorem ChangesOnly.stamp {ps : List Part} {s t : State} (h : ChangesOnly ps s t)
    (hp : ps.contains .sst = false := by rfl) : t.stamp = s.stamp := by rw [State.stamp, h.at .sst hp]; rfl

/-! ## The journal (R153) -/

theorem TookFree.of_jrn {s t : State} {b : RecordBody} (h : t.jrn = (writeFree b s).jrn) : TookFree s t b := by
  rw [writeFree_jrn] at h
  refine ⟨fun hf => h.trans (if_neg (by omega)), fun hf => h.trans ((if_pos hf).trans ?_)⟩
  rw [satInc_eq_min]

/-- R153: a record asked for by a state of the same journal and clock. -/
theorem TookFree.of_same {s u t : State} {b : RecordBody} (hj : u.jrn = s.jrn) (hs : u.stamp = s.stamp)
    (h : t.jrn = (writeFree b u).jrn) : TookFree s t b := by
  have k := TookFree.of_jrn h
  unfold TookFree at k ⊢
  rwa [hj, hs] at k

/-! ## What a review of the queue may do to a record (R59) -/

/-- R51, R52: what FBA takes from the DEMAND line and the settings; no grant changes it. -/
def Fba.given (f : Fba) : Nat × Demand × Demand × Nat := (f.beff, f.line, f.demand, f.debounce)

/-- A change of the feeder that leaves the START group and what FBA is given. -/
def KeepsStarts (s t : State) : Prop := t.fba.starts = s.fba.starts ∧ t.fba.given = s.fba.given

theorem KeepsStarts.refl (s : State) : KeepsStarts s s := ⟨rfl, rfl⟩
theorem KeepsStarts.trans {s t u : State} (h : KeepsStarts s t) (k : KeepsStarts t u) : KeepsStarts s u :=
  ⟨k.1.trans h.1, k.2.trans h.2⟩
theorem KeepsStarts.ite {s t u : State} {c : Prop} [Decidable c] (h : KeepsStarts s t) (k : KeepsStarts s u) :
    KeepsStarts s (if c then t else u) := by
  split <;> assumption

theorem keepsStarts_queueGrant (m : Addr) (l : Level) (f : Bool) (s : State) : KeepsStarts s (queueGrant m l f s) := by
  unfold queueGrant; split
  · have h : (queueCommand m (.grant l f) .fba (s.setGrant m { s.grant m with pending := true })).fba =
        (s.setGrant m { s.grant m with pending := true }).fba := (queueCommand_changes m _ _ _).at .fba
    exact ⟨by rw [h]; rfl, by rw [h]; rfl⟩
  · exact .refl s

theorem keepsStarts_changeGrant (m : Addr) (l : Level) (f : Bool) (s : State) : KeepsStarts s (changeGrant m l f s) :=
  .trans (t := mapGrant m (·.regrant l f) s) ⟨rfl, rfl⟩ (keepsStarts_queueGrant m l f _)

theorem keepsStarts_setRaise (m : Addr) (l : Level) (f : Bool) (s : State) : KeepsStarts s (setRaise m l f s) :=
  .ite ⟨rfl, rfl⟩ ⟨rfl, rfl⟩

theorem keepsStarts_ensureRaise (m : Addr) (l : Level) (f : Bool) (s : State) : KeepsStarts s (ensureRaise m l f s) :=
  .ite (.refl s) ⟨rfl, rfl⟩

theorem keepsStarts_removeRaise (m : Addr) (s : State) : KeepsStarts s (removeRaise m s) := ⟨rfl, rfl⟩

theorem keepsStarts_compareWanted (m : Addr) (s : State) : KeepsStarts s (compareWanted m s) := by
  unfold compareWanted; dsimp only; split
  · split
    · exact .ite (.trans (.ite (.refl s) (keepsStarts_changeGrant m _ _ s)) (keepsStarts_setRaise m _ _ _))
        (.trans (.ite (.refl s) (keepsStarts_changeGrant m _ _ s)) (keepsStarts_removeRaise m _))
    · exact .refl s
  · exact .refl s

theorem keepsStarts_shedStep (u l : Level) (s : State) : KeepsStarts s (shedStep u l s) := by
  unfold shedStep
  generalize s.fba.startList.reverse = ms
  induction ms generalizing s with
  | nil => exact .refl s
  | cons m ms ih =>
    exact .trans (.ite ((keepsStarts_changeGrant _ _ _ s).trans (keepsStarts_ensureRaise _ _ _ _)) (.refl s)) (ih _)

/-- R13, R59: a record may enter RUNNING where its machine has a START entry; no machine gets one; what FBA is given stands. -/
structure MayStart (s t : State) : Prop where
  starts : ∀ m, t.fba.hasStart m = true → s.fba.hasStart m = true
  states : ∀ m, (t.record m).state = (s.record m).state ∨ (s.fba.hasStart m = true ∧ (t.record m).state = .running)
  given  : t.fba.given = s.fba.given

theorem MayStart.refl (s : State) : MayStart s s := ⟨fun _ => id, fun _ => .inl rfl, rfl⟩

theorem MayStart.trans {s t u : State} (h : MayStart s t) (k : MayStart t u) : MayStart s u :=
  ⟨fun m hu => h.starts m (k.starts m hu), fun m => by
    obtain k2 | ⟨k2, k3⟩ := k.states m
    · rw [k2]; exact h.states m
    · exact .inr ⟨h.starts m k2, k3⟩, k.given.trans h.given⟩

theorem KeepsStarts.mayStart {ps : List Part} {s t : State} (h : KeepsStarts s t) (hc : ChangesOnly ps s t)
    (hp : ps.contains .msv = false := by rfl) : MayStart s t :=
  ⟨fun m hm => by rwa [Fba.hasStart, h.1] at hm, fun m => .inl (by rw [hc.record m hp]), h.2⟩

theorem hasStart_filter {l : List AdmEntry} {n m : Addr} (h : (l.filter (·.machine != n)).any (·.machine == m) = true) :
    l.any (·.machine == m) = true := by
  obtain ⟨e, he, hm⟩ := List.any_eq_true.mp h
  exact List.any_eq_true.mpr ⟨e, List.mem_of_mem_filter he, hm⟩

/-- R13: the record of a machine whose START is granted; the others stand. -/
theorem startRuns_record (m : Addr) (e : GrantEntry) (l : Level) (f : Bool) (s : State) (k : Addr) :
    (startRuns m e l f s).record k =
      if m = k then { s.record m with
        state := .running
        session := (s.record m).session.map fun z => z.started s.stamp s.sst.working.limits.guardMargin } else s.record k := by
  have h := (startGranted_changes m e s).seq (queueGrant_changes m l f _) (rs := [.mbc, .fba])
  have hsst : (queueGrant m l f (startGranted m e s)).sst = s.sst := h.at .sst
  unfold startRuns enterRunning
  rw [State.record_setRecord, h.record m, h.stamp, hsst, h.record k]

theorem startRuns_starts (m : Addr) (e : GrantEntry) (l : Level) (f : Bool) (s : State) :
    (startRuns m e l f s).fba.starts = s.fba.starts.filter (·.machine != m) ∧
    (startRuns m e l f s).fba.given = s.fba.given :=
  keepsStarts_queueGrant m l f (startGranted m e s)

/-- R61, R63: a grant table entry once a dryer's START is granted at a level. -/
def GrantEntry.startedDryer (e : GrantEntry) (d : LevelDraws) (level target : Level) : GrantEntry :=
  { ({ e with draws := some d } : GrantEntry).regrant level false with held := level == .air && decide (level.rank < target.rank) }

theorem grantDryerStart_eq (m : Addr) (d : LevelDraws) (level target : Level) (s : State) :
    grantDryerStart m d level target s =
      if level.rank < target.rank then
        addRaise m target false (startRuns m ((s.grant m).startedDryer d level target) level false s)
      else startRuns m ((s.grant m).startedDryer d level target) level false s := rfl

/-- R13: a granted START enters RUNNING; its machine has the entry that goes. -/
theorem startRuns_mayStart {m : Addr} {e : GrantEntry} {l : Level} {f : Bool} {s : State} (hs : s.fba.hasStart m = true) :
    MayStart s (startRuns m e l f s) := by
  refine ⟨fun k h => ?_, fun k => ?_, (startRuns_starts m e l f s).2⟩
  · rw [Fba.hasStart, (startRuns_starts m e l f s).1] at h
    exact hasStart_filter h
  · rw [startRuns_record]
    by_cases hk : m = k
    · subst hk; rw [if_pos rfl]; exact .inr ⟨hs, rfl⟩
    · rw [if_neg hk]; exact .inl rfl

theorem grantRaise_mayStart {e : AdmEntry} {s t : State} (h : grantRaise e s = some t) : MayStart s t := by
  unfold grantRaise at h; dsimp only at h; split at h
  · cases h
    exact ((keepsStarts_removeRaise e.machine s).trans (keepsStarts_changeGrant _ _ _ _)).mayStart
      ((removeRaise_changes e.machine s).seq (changeGrant_changes e.machine _ _ _) (rs := [.mbc, .fba]))
  · cases h

theorem grantStart_mayStart {e : AdmEntry} {s t : State} (h : grantStart e s = some t) (hs : s.fba.hasStart e.machine = true) :
    MayStart s t := by
  unfold grantStart at h; split at h
  · cases h
  · split at h
    · split at h
      · cases h
        rw [grantWasherStart_eq]
        exact (startRuns_mayStart hs).trans ((keepsStarts_compareWanted _ _).mayStart (compareWanted_changes _ _))
      · cases h
    · split at h
      · cases h
        rw [grantDryerStart_eq]
        split
        · exact (startRuns_mayStart hs).trans (KeepsStarts.mayStart ⟨rfl, rfl⟩ (addRaise_changes _ _ _ _))
        · exact startRuns_mayStart hs
      · cases h

theorem grantHead_mayStart {s t : State} (h : grantHead s = some t) : MayStart s t := by
  unfold grantHead at h; split at h
  · exact grantRaise_mayStart h
  · next e l _ hl => exact grantStart_mayStart h (by simp [Fba.hasStart, hl])
  · cases h

theorem grantHeads_mayStart (n : Nat) (s : State) : MayStart s (grantHeads n s) := by
  induction n generalizing s with
  | zero => exact .refl s
  | succ n ih =>
    unfold grantHeads; split
    · exact .refl s
    · next t ht => exact (grantHead_mayStart ht).trans (ih t)

theorem review_mayStart (s : State) : MayStart s (review s) := by
  refine .trans (t := clearOverBudget s) (KeepsStarts.mayStart (.ite ⟨rfl, rfl⟩ (.refl s)) (clearOverBudget_changes s)) ?_
  unfold review reexamine; split
  · exact .refl _
  · exact grantHeads_mayStart _ _

theorem budgetCheck_mayStart (s : State) : MayStart s (budgetCheck s) := by
  have hc := ((shedStep_changes .high .low s).seq (shedStep_changes .low .air _) (rs := [.mbc, .fba])).seq
    (shedStep_changes .heat .base _) (rs := [.mbc, .fba])
  have hk := ((keepsStarts_shedStep .high .low s).trans (keepsStarts_shedStep .low .air _)).trans
    (keepsStarts_shedStep .heat .base _)
  refine .trans (hk.mayStart hc) ?_
  unfold budgetCheck; dsimp only; split
  · exact review_mayStart _
  · refine KeepsStarts.mayStart ?_ ((withFba_changes _ _).seq (setEventIf_changes _ _ _) (rs := [.fba, .evu]))
    constructor <;> simp [Fba.given]

theorem checkOrReview_mayStart (s : State) : MayStart s (checkOrReview s) := by
  unfold checkOrReview; split
  · exact budgetCheck_mayStart s
  · exact review_mayStart s

/-- R52: the recomputation takes B_eff from the demand state and the settings; the rest of what FBA is given stands. -/
theorem recomputeBudget_given (s : State) :
    (recomputeBudget s).fba.given = (s.effectiveBudget, s.fba.line, s.fba.demand, s.fba.debounce) :=
  (checkOrReview_mayStart _).given

theorem recomputeBudget_states (s : State) (m : Addr) :
    ((recomputeBudget s).record m).state = (s.record m).state ∨
      (s.fba.hasStart m = true ∧ ((recomputeBudget s).record m).state = .running) :=
  (checkOrReview_mayStart (s.withFba { s.fba with beff := s.effectiveBudget })).states m

/-! ## Budget and limits (R52, R56, R174) -/

/-- R52: the state in which SET BUDGET has both figures taken. -/
def State.withFigures (s : State) (b p : Nat) : State := s.edited { s.sst.working with budget := b, shed := p }

theorem withFigures_effectiveBudget (s : State) (b p : Nat) :
    (s.withFigures b p).effectiveBudget = if s.fba.demand = .shed then b * p / 100 else b := by
  unfold State.effectiveBudget
  cases h : s.fba.demand <;> simp [State.withFigures, State.edited, h]

theorem setBudget_free {b : Word16} {p : Byte} {s : State} (h : s.sst.commit = none) :
    setBudget b p s =
      let s1 := s.withFigures (clamp 100 8000 b.toNat) (clamp 30 100 p.toNat)
      let s2 := if clamp 100 8000 b.toNat = s.sst.working.budget ∧ clamp 30 100 p.toNat = s.sst.working.shed then s1
        else recomputeBudget s1
      okMarked (natBytes16 (clamp 100 8000 b.toNat) ++ nat8 (clamp 30 100 p.toNat) ++ natBytes16 s2.fba.beff) s2 :=
  settingsEdit_free h

theorem setBudget_answers {b : Word16} {p : Byte} {s : State} (hs : s.Serves (.setBudget b p)) (hc : s.sst.commit = none) :
    ∃ t, exec (.setBudget b p) s = .next t ∧
      let b := clamp 100 8000 b.toNat
      let p := clamp 30 100 p.toNat
      t.sst = { s.sst with working := { s.sst.working with budget := b, shed := p }, unsaved := true } ∧
      (b = s.sst.working.budget ∧ p = s.sst.working.shed → ChangesOnly [.sst, .hli] s t) ∧
      (b ≠ s.sst.working.budget ∨ p ≠ s.sst.working.shed →
        t.fba.beff = (if s.fba.demand = .shed then b * p / 100 else b) ∧
        (t.fba.committed ≤ t.fba.beff ∨ t.fba.overBudget = true) ∧
        (∀ m, (t.record m).state = (s.record m).state ∨ (s.fba.hasStart m = true ∧ (t.record m).state = .running))) ∧
      Replies s t 0x90#8 .ok (natBytes16 b ++ nat8 p ++ natBytes16 t.fba.beff ++ t.sst.marks) ∧
      ChangesOnly [.msv, .mbc, .fba, .evu, .sst, .hli] s t := by
  refine ⟨_, rfl, ?_⟩
  rw [serve_of_serves hs, answerRequest_eq (setBudget_free hc)]
  dsimp only
  generalize hb : clamp 100 8000 b.toNat = b
  generalize hp : clamp 30 100 p.toNat = p
  have he : ChangesOnly [.sst] s (s.withFigures b p) := edited_changes _ s
  by_cases hx : b = s.sst.working.budget ∧ p = s.sst.working.shed
  · rw [if_pos hx]
    exact ⟨rfl, fun _ => he.seq (putReply_changes _ _ _),
      fun h => absurd hx (by rintro ⟨h1, h2⟩; exact h.elim (· h1) (· h2)), holds_putReply rfl _,
      he.seq (putReply_changes _ _ _)⟩
  · rw [if_neg hx]
    have hr := recomputeBudget_changes (s.withFigures b p)
    have hgiven := recomputeBudget_given (s.withFigures b p)
    rw [withFigures_effectiveBudget] at hgiven
    refine ⟨hr.at .sst, fun h => absurd h hx, fun _ => ⟨congrArg Prod.fst hgiven, (recomputeBudget_declares _).2, fun m => ?_⟩,
      holds_putReply (hr.at .hli) _, (he.seq hr).seq (putReply_changes _ _ _) (qs := [.hli])
        (ps := [.sst, .msv, .mbc, .fba, .evu])⟩
    exact recomputeBudget_states (s.withFigures b p) m

theorem setLimits_answers {a : LimitArgs} {s : State} (hs : s.Serves (.setLimits a)) (hc : s.sst.commit = none) :
    ∃ t, exec (.setLimits a) s = .next t ∧
      let l := LimitArgs.held a
      (l.fillSlots < s.fba.fillCount → OnlyReplies s t 0x91#8 .busy s.sst.marks) ∧
      (s.fba.fillCount ≤ l.fillSlots →
        t.sst = { s.sst with working := { s.sst.working with limits := l }, unsaved := true } ∧
        Replies s t 0x91#8 .ok (l.bytes ++ t.sst.marks) ∧
        (l.fillSlots = s.sst.working.limits.fillSlots → ChangesOnly [.sst, .hli] s t) ∧
        ChangesOnly [.msv, .mbc, .fba, .sst, .hli] s t) := by
  refine ⟨_, rfl, ?_⟩
  rw [serve_of_serves hs]
  refine ⟨fun h => onlyReplies_answer ((settingsEdit_free hc).trans (if_pos h)), fun h => ?_⟩
  have hf : setLimits a s = okMarked (LimitArgs.held a).bytes
      (if (LimitArgs.held a).fillSlots = s.sst.working.limits.fillSlots then
        s.edited { s.sst.working with limits := LimitArgs.held a }
      else review (s.edited { s.sst.working with limits := LimitArgs.held a })) :=
    (settingsEdit_free hc).trans (if_neg (Nat.not_lt.mpr h))
  rw [answerRequest_eq hf]
  have he := edited_changes { s.sst.working with limits := LimitArgs.held a } s
  by_cases hx : (LimitArgs.held a).fillSlots = s.sst.working.limits.fillSlots
  · rw [if_pos hx]
    exact ⟨rfl, holds_putReply rfl _, fun _ => he.seq (putReply_changes _ _ _), he.seq (putReply_changes _ _ _)⟩
  · rw [if_neg hx]
    have hr := review_changes (s.edited { s.sst.working with limits := LimitArgs.held a })
    exact ⟨hr.at .sst, holds_putReply (hr.at .hli) _, fun h => absurd h hx,
      (he.seq hr (rs := [.sst, .msv, .mbc, .fba])).seq (putReply_changes _ _ _)⟩

/-- Settles O16: both edits take clamped figures; a changed figure has B_eff recomputed, a changed fill-slot limit a review. -/
theorem budgetAndLimitsEdits : Obligations.BudgetAndLimitsEdits := by
  refine ⟨fun budget percent s hs hc => setBudget_answers hs hc, fun a s hs hc => ?_⟩
  obtain ⟨t, ht, hbusy, hok⟩ := setLimits_answers hs hc
  exact ⟨t, ht, LimitArgs.held_inRange a, hbusy, hok⟩

/-! ## SERVICE RETURN (R144) -/

/-- R144: the five steps: the fault record cleared, the fault code forgotten, and the state entered; the record follows. -/
def State.returned (s : State) (m : Addr) : State :=
  let s1 := s.setFaults m { s.faults m with stopCount := 0, openMark := false }
  let s2 := mapNode m (fun n => { n with lastFault := none }) s1
  enterState m (if (s.node m).heard then .idle else .offline) s2

/-- R144: a machine out of service whose address does not clash returns. -/
theorem serviceReturn_taken {n : Byte} {m : Addr} {s : State} (hm : addrNumber m = n.toNat)
    (ho : (s.record m).state = .outOfService) (hc : (s.node m).clash = false) :
    serviceReturn n s =
      (.ok (nat8 ((writeFree (serviceBody m .returned none) (s.returned m)).record m).state.code),
        writeFree (serviceBody m .returned none) (s.returned m)) := by
  unfold serviceReturn
  simp only [machineOf_eq_some hm, ho, ne_eq, not_true, if_false, hc, Bool.false_eq_true]
  rfl

/-- The state in which a machine returns from service. -/
def State.returnsTo (s : State) (m : Addr) : MState :=
  if (s.node m).heard = true ∧ (s.record m).silent = false then .idle else .offline

theorem returned_landing (s : State) (m : Addr) :
    (s.record m).landing (if (s.node m).heard then .idle else .offline) = s.returnsTo m := by
  unfold State.returnsTo MachineRecord.landing
  cases (s.node m).heard <;> cases (s.record m).silent <;> rfl

theorem returned_eq (s : State) (m : Addr) :
    s.returned m = setOpenMark m false (mapRecord m (fun r => { r with state := s.returnsTo m, unloadTimer := 0 })
      (mapNode m (fun n => { n with lastFault := none })
        (s.setFaults m { s.faults m with stopCount := 0, openMark := false }))) := by
  have hl : (((mapNode m (fun n => { n with lastFault := none })
      (s.setFaults m { s.faults m with stopCount := 0, openMark := false })).record m).landing
        (if (s.node m).heard then .idle else .offline)) = s.returnsTo m := returned_landing s m
  unfold State.returned enterState
  dsimp only
  rw [hl]
  have : s.returnsTo m = .idle ∨ s.returnsTo m = .offline := by unfold State.returnsTo; split <;> simp
  rw [if_pos this]
  have hd : s.returnsTo m ≠ .done := by rintro h; rw [h] at this; simp at this
  simp only [hd, if_false]

/-- Settles O20: by the record's state and the clash mark. -/
theorem serviceReturnActs : Obligations.ServiceReturnActs := by
  intro n s hs
  refine ⟨_, rfl, ?_⟩
  rw [serve_of_serves hs]
  refine ⟨fun hn => onlyReplies_answer ?_, fun m hm => ⟨fun ho => refuses_answer ?_, fun ho hc => refuses_answer ?_,
    fun ho hc => ⟨s.returnsTo m, rfl, ?_⟩⟩⟩
  · unfold serviceReturn; simp only [machineOf_eq_none hn]; rfl
  · unfold serviceReturn; simp only [machineOf_eq_some hm, ne_eq, ho, not_false_eq_true, if_true]
  · unfold serviceReturn; simp only [machineOf_eq_some hm, ho, ne_eq, not_true, if_false, hc, if_true]
  · rw [answerRequest_eq (serviceReturn_taken hm ho hc)]
    have hw := writeFree_changes (serviceBody m .returned none) (s.returned m)
    have hr := returned_eq s m
    have hrec : ((s.returned m).record m).state = s.returnsTo m := by rw [hr]; simp [mapRecord, setOpenMark]
    rw [show ((writeFree (serviceBody m .returned none) (s.returned m)).record m).state = s.returnsTo m by
      rw [hw.record m, hrec]]
    refine ⟨(hw.at .msv).trans ?_, (hw.at .mbc).trans ?_, (hw.at .flm).trans ?_, .of_same (u := s.returned m) ?_ ?_ rfl,
      holds_putReply ((hw.at .hli).trans ?_) _, ?_⟩
    · rw [hr]; rfl
    · rw [hr]; rfl
    · rw [hr]
      exact (PerMachine.put_put _ _ _ _).trans (by simp [mapRecord, mapNode, State.faults, State.setFaults])
    · rw [hr]; rfl
    · rw [hr]; rfl
    · rw [hr]; rfl
    · refine (ChangesOnly.seq (ps := [.msv, .mbc, .flm]) ?_ hw (rs := [.msv, .mbc, .flm, .jrn, .evu])).seq (putReply_changes _ _ _)
      exact ((setFaults_changes m _ s).seq (mapNode_changes m _ _) (rs := [.mbc, .flm])).seq (enterState_changes m _ _)

end Sys2Proof.Machine
end

section
/-! PROOF. The wires read back what they carry: requests, slot reports, station messages and frames (chapter 11). -/
namespace Sys2Proof

/-! ## Fields of several bytes (section 11.1) -/

theorem word16_bytes (w : Word16) : word16 (w.extractLsb' 8 8) (w.extractLsb' 0 8) = w := by
  unfold word16
  rw [BitVec.extractLsb'_append_extractLsb'_eq_extractLsb' (by omega)]
  simp

theorem word24_bytes (w : BitVec 24) : word24 (w.extractLsb' 16 8) (w.extractLsb' 8 8) (w.extractLsb' 0 8) = w := by
  unfold word24
  rw [BitVec.extractLsb'_append_extractLsb'_eq_extractLsb' (by omega),
    BitVec.extractLsb'_append_extractLsb'_eq_extractLsb' (by omega)]
  simp

theorem word32_bytes (w : BitVec 32) :
    word32 (w.extractLsb' 24 8) (w.extractLsb' 16 8) (w.extractLsb' 8 8) (w.extractLsb' 0 8) = w := by
  unfold word32
  rw [BitVec.extractLsb'_append_extractLsb'_eq_extractLsb' (by omega),
    BitVec.extractLsb'_append_extractLsb'_eq_extractLsb' (by omega),
    BitVec.extractLsb'_append_extractLsb'_eq_extractLsb' (by omega)]
  simp

/-! ## Requests (R187) -/

/-- R187: a name that fits one frame is read back from its length byte and its characters. -/
theorem nameArg_encoded (f : List Byte → Instr) {name : List Byte} (h : name.length ≤ 250) :
    nameArg f (BitVec.ofNat 8 name.length :: name) = some (f name) := by
  have hn : name.length = (BitVec.ofNat 8 name.length).toNat := by simp; omega
  exact if_pos hn

theorem programArg_encoded (id : Byte) {form : ProgramForm} (h : form.fits = true) :
    programArg (id :: encodeProgram form) = some (.setProgram id form) := by
  cases form with
  | removal => rfl
  | washer base warm hot planned dBase dHeat name =>
    have hn : name.length ≤ 250 := by simp [ProgramForm.fits] at h; omega
    have hread : programArg (id :: encodeProgram (.washer base warm hot planned dBase dHeat name)) =
        nameArg (fun name => .setProgram id
          (.washer (word16 (base.extractLsb' 8 8) (base.extractLsb' 0 8)) (word16 (warm.extractLsb' 8 8) (warm.extractLsb' 0 8))
            (word16 (hot.extractLsb' 8 8) (hot.extractLsb' 0 8)) planned (word16 (dBase.extractLsb' 8 8) (dBase.extractLsb' 0 8))
            (word16 (dHeat.extractLsb' 8 8) (dHeat.extractLsb' 0 8)) name)) (BitVec.ofNat 8 name.length :: name) := rfl
    rw [hread, nameArg_encoded _ hn]
    simp only [word16_bytes]
  | dryer rate air low high name =>
    have hn : name.length ≤ 250 := by simp [ProgramForm.fits] at h; omega
    have hread : programArg (id :: encodeProgram (.dryer rate air low high name)) =
        nameArg (fun name => .setProgram id
          (.dryer (word16 (rate.extractLsb' 8 8) (rate.extractLsb' 0 8)) (word16 (air.extractLsb' 8 8) (air.extractLsb' 0 8))
            (word16 (low.extractLsb' 8 8) (low.extractLsb' 0 8)) (word16 (high.extractLsb' 8 8) (high.extractLsb' 0 8)) name))
          (BitVec.ofNat 8 name.length :: name) := rfl
    rw [hread, nameArg_encoded _ hn]
    simp only [word16_bytes]

/-- R183, R187: a well-formed request is read back with every argument. -/
theorem decodeRequest_encoded {i : Instr} {k : Byte} {p : List Byte} (hw : i.wellFormed = true)
    (he : encodeRequest i = some (k, p)) : decodeRequest k p = some i := by
  cases i
  case setProgram id form => cases he; exact programArg_encoded id hw
  case setTariff index form => cases form <;> cases he <;> simp [decodeRequest, tariffArg, bytes16, word16_bytes]
  case getStatus page => cases page <;> cases he <;> rfl
  case getNodes page => cases page <;> cases he <;> rfl
  case getQueue page => cases page <;> cases he <;> rfl
  case getCredits page => cases page <;> cases he <;> rfl
  case getPending page => cases page <;> cases he <;> rfl
  case setEventMask masks enables => cases he; simp [decodeRequest, bytes24, word24_bytes]
  case journalRelease q => cases he; simp [decodeRequest, wordArg, bytes16, word16_bytes]
  case setClock d m => cases he; simp [decodeRequest, bytes16, word16_bytes]
  case setBudget b pct => cases he; simp [decodeRequest, bytes16, word16_bytes]
  case setLimits l => cases he; simp [decodeRequest, limitsArg, bytes16, word16_bytes]
  case screenAdd serial => cases he; simp [decodeRequest, serialArg, bytes32, word32_bytes]
  case screenRemove serial => cases he; simp [decodeRequest, serialArg, bytes32, word32_bytes]
  case setHashBit index v => cases he; simp [decodeRequest, bytes16, word16_bytes]
  case refundGrant serial amount => cases he; simp [decodeRequest, bytes32, bytes16, word32_bytes, word16_bytes]
  all_goals first | (cases he; rfl) | cases he

/-! ## Slot reports (R31, R32) -/

theorem nodeStateOf_isSome (n : Nat) : (nodeStateOf n).isSome = decide (n ≤ 6) := by
  rcases n with _ | _ | _ | _ | _ | _ | _ | n <;> simp [nodeStateOf]

theorem levelOf_isSome (k : Kind) (n : Nat) : (levelOf k n).isSome = decide (n ≤ if k = .dryer then 2 else 1) := by
  cases k with
  | washer => rcases n with _ | _ | n <;> simp [levelOf]
  | dryer => rcases n with _ | _ | _ | n <;> simp [levelOf]

theorem nodeStateOf_eq_fault {n : Nat} {x : NodeState} (h : nodeStateOf n = some x) : x = .nFault ↔ n = 6 := by
  unfold nodeStateOf at h; split at h <;> cases h <;> simp

theorem nodeFaultOf_isSome (x : NodeState) (n : Nat) :
    (nodeFaultOf x n).isSome = if x = .nFault then decide (1 ≤ n) && decide (n ≤ 5) else n == 0 := by
  cases x with
  | nFault => rcases n with _ | _ | _ | _ | _ | _ | n <;> simp [nodeFaultOf]
  | _ => cases n <;> simp [nodeFaultOf]

/-- R31, R32: the kind that a report's flags give. -/
def SlotReport.kind (r : SlotReport) : Kind := if r.flags.getLsbD 1 then .dryer else .washer

/-- R31, R32: a report is read where its state, its levels and its fault code have names, the address is the slot's, no unused flag
is set and no dryer asks for fill. -/
theorem decodeReport_isSome_iff (slot : Addr) (r : SlotReport) : (decodeReport slot r).isSome = true ↔
    ∃ x, nodeStateOf r.nodeState.toNat = some x ∧ (levelOf r.kind r.actual.toNat).isSome = true ∧
      (levelOf r.kind r.wanted.toNat).isSome = true ∧ (nodeFaultOf x r.fault.toNat).isSome = true ∧
      (r.address.toNat = addrNumber slot ∧ r.flags.toNat < 16 ∧
        (r.kind = .dryer → r.flags.getLsbD 2 = false ∧ r.flags.getLsbD 3 = false)) := by
  unfold decodeReport SlotReport.kind
  dsimp only
  split
  · next hx hy hz =>
    simp only [hx, hy, hz, Option.some.injEq, exists_eq_left', Option.isSome_some, true_and]
    split
    · next hf =>
      simp only [hf, Option.isSome_some, true_and]
      split <;> simp_all
    · next hf => simp [hf]
  · next hnone =>
    refine iff_of_false (by simp) ?_
    rintro ⟨x, hx, hy, hz, -⟩
    obtain ⟨y, hy⟩ := Option.isSome_iff_exists.mp hy
    obtain ⟨z, hz⟩ := Option.isSome_iff_exists.mp hz
    exact hnone x y z hx hy hz

/-- R31, R32: a slot report is read exactly where its contents are in range and its address is the slot's. -/
theorem decodeReport_isSome (slot : Addr) (r : SlotReport) : (decodeReport slot r).isSome = r.inRange slot := by
  rw [Bool.eq_iff_iff, decodeReport_isSome_iff]
  have hlevels : ((levelOf r.kind r.actual.toNat).isSome = true ∧ (levelOf r.kind r.wanted.toNat).isSome = true ∧
      (r.kind = .dryer → r.flags.getLsbD 2 = false ∧ r.flags.getLsbD 3 = false)) ↔
      (if r.flags.getLsbD 1 then r.actual.toNat ≤ 2 && r.wanted.toNat ≤ 2 && !r.flags.getLsbD 2 && !r.flags.getLsbD 3
        else r.actual.toNat ≤ 1 && r.wanted.toNat ≤ 1) = true := by
    simp only [levelOf_isSome, SlotReport.kind]
    cases r.flags.getLsbD 1 <;> simp [and_assoc]
  have hstate : (∃ x, nodeStateOf r.nodeState.toNat = some x ∧ (nodeFaultOf x r.fault.toNat).isSome = true) ↔
      r.nodeState.toNat ≤ 6 ∧
        (if r.nodeState.toNat = 6 then 1 ≤ r.fault.toNat && r.fault.toNat ≤ 5 else r.fault.toNat == 0) = true := by
    have hs := nodeStateOf_isSome r.nodeState.toNat
    cases hx : nodeStateOf r.nodeState.toNat with
    | none => rw [hx] at hs; simp at hs; simp; omega
    | some x =>
      rw [hx] at hs
      simp only [Option.isSome_some, Eq.comm (a := true), decide_eq_true_eq] at hs
      simp only [Option.some.injEq, exists_eq_left', nodeFaultOf_isSome, nodeStateOf_eq_fault hx, hs, true_and]
  have hrange : r.inRange slot = true ↔ r.address.toNat = addrNumber slot ∧ r.nodeState.toNat ≤ 6 ∧ r.flags.toNat < 16 ∧
      (if r.flags.getLsbD 1 then r.actual.toNat ≤ 2 && r.wanted.toNat ≤ 2 && !r.flags.getLsbD 2 && !r.flags.getLsbD 3
        else r.actual.toNat ≤ 1 && r.wanted.toNat ≤ 1) = true ∧
      (if r.nodeState.toNat = 6 then 1 ≤ r.fault.toNat && r.fault.toNat ≤ 5 else r.fault.toNat == 0) = true := by
    simp only [SlotReport.inRange, Bool.and_eq_true, beq_iff_eq, decide_eq_true_eq, and_assoc]
  rw [hrange]
  constructor
  · rintro ⟨x, hx, hy, hz, hf, ha, hfl, hd⟩
    obtain ⟨h6, hf⟩ := hstate.mp ⟨x, hx, hf⟩
    exact ⟨ha, h6, hfl, hlevels.mp ⟨hy, hz, hd⟩, hf⟩
  · rintro ⟨ha, h6, hfl, hl, hf⟩
    obtain ⟨x, hx, hf⟩ := hstate.mpr ⟨h6, hf⟩
    obtain ⟨hy, hz, hd⟩ := hlevels.mpr hl
    exact ⟨x, hx, hy, hz, hf, ha, hfl, hd⟩

/-- R31: the bytes of a report bring the outcome of its slot. -/
theorem slotCommand_slotBytes (slot : Addr) (r : SlotReport) :
    slotCommand slot (slotBytes r) = if r.inRange slot then .validReport slot r else .malformedReport slot := by
  obtain ⟨a, n, f, x, w, k, c, l, e⟩ := r
  exact if_pos rfl

/-! ## Station messages (R75) -/

/-- R75: a PURCHASE as its bytes give it back. -/
def PurchaseMsg.reread (m : PurchaseMsg) : PurchaseMsg :=
  { serial := word32 (m.serial.extractLsb' 24 8) (m.serial.extractLsb' 16 8) (m.serial.extractLsb' 8 8) (m.serial.extractLsb' 0 8)
    issuer := word16 (m.issuer.extractLsb' 8 8) (m.issuer.extractLsb' 0 8)
    balance := word24 (m.balance.extractLsb' 16 8) (m.balance.extractLsb' 8 8) (m.balance.extractLsb' 0 8)
    counter := word16 (m.counter.extractLsb' 8 8) (m.counter.extractLsb' 0 8)
    machine := m.machine, program := m.program, option := m.option, minutes := m.minutes }

theorem PurchaseMsg.reread_eq (m : PurchaseMsg) : m.reread = m := by
  simp only [PurchaseMsg.reread, word16_bytes, word24_bytes, word32_bytes]

theorem stationCommand_purchase (st : Station) (m : PurchaseMsg) :
    stationCommand st 1#8 (bytes32 m.serial ++ bytes16 m.issuer ++ bytes24 m.balance ++ bytes16 m.counter
      ++ [m.machine, m.program, m.option, m.minutes]) =
    if m.reread.codesListed then .purchase st m.reread else .stationMessageDiscarded st := rfl

theorem stationCommand_done (st : Station) (order outcome : Byte) (w : Word16) :
    stationCommand st 2#8 ([order, outcome] ++ bytes16 w) =
    if ResultMsg.codesListed ⟨order, outcome, some (word16 (w.extractLsb' 8 8) (w.extractLsb' 0 8))⟩
    then .result st ⟨order, outcome, some (word16 (w.extractLsb' 8 8) (w.extractLsb' 0 8))⟩
    else .stationMessageDiscarded st := rfl

theorem stationCommand_other (st : Station) (order outcome : Byte) :
    stationCommand st 2#8 [order, outcome] =
    if ResultMsg.codesListed ⟨order, outcome, none⟩ then .result st ⟨order, outcome, none⟩ else .stationMessageDiscarded st := rfl

/-- R75: the kind and payload of a station's message with listed codes are read back as that message. -/
theorem stationCommand_encoded {st : Station} {i : Instr} {k : Byte} {p : List Byte} (he : encodeStation i = some (st, k, p))
    (hp : ∀ msg, i = .purchase st msg → msg.codesListed = true) (hr : ∀ msg, i = .result st msg → msg.codesListed = true) :
    stationCommand st k p = i ∧ p.length < 256 := by
  cases i
  case purchase st' msg =>
    cases he
    refine ⟨?_, by simp [bytes32, bytes16, bytes24]⟩
    rw [stationCommand_purchase, PurchaseMsg.reread_eq, if_pos (hp msg rfl)]
  case result st' msg =>
    obtain ⟨order, outcome, counter⟩ := msg
    cases counter with
    | none => cases he; exact ⟨(stationCommand_other _ _ _).trans (if_pos (hr _ rfl)), by simp⟩
    | some w =>
      cases he
      refine ⟨(stationCommand_done _ _ _ w).trans ?_, by simp [bytes16]⟩
      rw [word16_bytes, if_pos (hr _ rfl)]
  case cancel st' => cases he; exact ⟨rfl, by simp⟩
  all_goals cases he

/-! ## Frames (R183) -/

theorem wholeFrame_encoded (kind : Byte) (payload : List Byte) :
    wholeFrame ((frameBytes kind payload).drop 1) = .goodFrame kind payload := by
  have hb : (frameBytes kind payload).drop 1 =
      ([BitVec.ofNat 8 payload.length, kind] ++ payload) ++ bytes16 (crc16 ([BitVec.ofNat 8 payload.length, kind] ++ payload)) := rfl
  rw [hb, wholeFrame]
  have hc := fun (body : List Byte) (w : Word16) => checkPasses_append body (w.extractLsb' 8 8) (w.extractLsb' 0 8)
  have hp := fun (body : List Byte) (w : Word16) => checkedPart_append body (w.extractLsb' 8 8) (w.extractLsb' 0 8)
  simp only [← bytes16.eq_1] at hc hp
  rw [hc, hp, if_pos (decide_eq_true rfl)]
  simp

/-- R183: the bytes of a frame still held are taken in until its last one, which brings the frame's command. -/
theorem receiveBytes_held {whole : List Byte} {n : Nat} (hlen : whole.length = n + 4) (hhead : (whole.headD 0#8).toNat = n)
    (hn : n ≤ 250) (post : List Byte) : ∀ pre : List Byte, pre ++ post = whole → post ≠ [] →
    receiveBytes (some pre) (post.map fun b => ⟨b, false⟩) = [wholeFrame whole] := by
  induction post with
  | nil => intro _ _ h; exact absurd rfl h
  | cons b post ih =>
    intro pre hpre _
    have hhd : ((pre ++ [b]).headD 0#8).toNat = n := by
      rw [← hhead, ← hpre]; cases pre <;> simp
    have hl := congrArg List.length hpre
    simp only [List.length_append, List.length_cons, hlen] at hl
    simp only [List.map_cons, receiveBytes, receiveByte, Bool.false_eq_true, if_false, hhd, if_neg (Nat.not_lt.mpr hn)]
    by_cases hpost : post = []
    · subst hpost
      have : (pre ++ [b]).length = n + 4 := by simpa using hl
      rw [if_pos this, hpre]
      simp [receiveBytes]
    · have : (pre ++ [b]).length ≠ n + 4 := by
        have := List.length_pos_iff.mpr hpost
        simp only [List.length_append, List.length_cons, List.length_nil]
        omega
      rw [if_neg this]
      simpa using ih (pre ++ [b]) (by simpa using hpre) hpost

theorem receiveBytes_frame (kind : Byte) {payload : List Byte} (h : payload.length ≤ 250) :
    receiveBytes none ((frameBytes kind payload).map fun b => ⟨b, false⟩) = [.goodFrame kind payload] := by
  rw [← wholeFrame_encoded kind payload]
  have hf : frameBytes kind payload = 0xA5#8 :: (frameBytes kind payload).drop 1 := rfl
  rw [hf, List.map_cons, receiveBytes]
  simp only [receiveByte, if_true, List.nil_append, List.drop_succ_cons, List.drop_zero]
  refine receiveBytes_held (n := payload.length) ?_ ?_ h _ [] rfl (by simp [frameBytes])
  · simp [frameBytes, bytes16]
  · simp [frameBytes]; omega

/-- Settles O60: each encoding is undone by its reading, field by field; a frame by induction on the bytes still to come. -/
theorem wiresReadBack : Obligations.WiresReadBack := by
  refine ⟨fun i k p => decodeRequest_encoded, decodeReport_isSome, slotCommand_slotBytes, fun st i k p he hp hr => ?_,
    fun st body hi lo h => stationMessage_of_check_fails st ?_, fun kind payload => receiveBytes_frame kind⟩
  · obtain ⟨hcmd, hlen⟩ := stationCommand_encoded he hp hr
    exact (stationMessage_of_check_passes st k p hlen).trans hcmd
  · rw [checkPasses_append]
    exact decide_eq_false fun he => h he.symm

end Sys2Proof
end

section
/-! PROOF. What ends a session leaves: the books by themselves, the bus and the feeder of one machine, and the record; and the
timers that bring it about (chapters 01, 02, 03 and 06). -/
namespace Sys2Proof.Machine

/-! ## The books by themselves (chapters 06 and 08) -/

/-- Two states with the same tables, journal and clock. -/
structure SameBooks (s u : State) : Prop where
  cru   : u.cru = s.cru
  jrn   : u.jrn = s.jrn
  clock : u.sst.clock = s.sst.clock

theorem SameBooks.refl (s : State) : SameBooks s s := ⟨rfl, rfl, rfl⟩
theorem SameBooks.symm {s u : State} (h : SameBooks s u) : SameBooks u s := ⟨h.1.symm, h.2.symm, h.3.symm⟩
theorem SameBooks.trans {s t u : State} (h : SameBooks s t) (k : SameBooks t u) : SameBooks s u :=
  ⟨k.1.trans h.1, k.2.trans h.2, k.3.trans h.3⟩
theorem SameBooks.stamp {s u : State} (h : SameBooks s u) : u.stamp = s.stamp := by rw [State.stamp, h.clock]; rfl
theorem SameBooks.today {s u : State} (h : SameBooks s u) : u.today = s.today := by rw [State.today, h.clock]; rfl

theorem ChangesOnly.sameBooks {ps : List Part} {s t : State} (h : ChangesOnly ps s t) (hc : ps.contains .cru = false := by rfl)
    (hj : ps.contains .jrn = false := by rfl) (hs : ps.contains .sst = false := by rfl) : SameBooks s t :=
  ⟨h.at .cru hc, h.at .jrn hj, by rw [h.at .sst hs]⟩

/-- An operation of the books: what it leaves of them follows from the books alone. -/
def BooksOnly (f : State → State) : Prop := ∀ s u, SameBooks s u → SameBooks (f s) (f u)

variable {f g : State → State}

theorem BooksOnly.comp (hf : BooksOnly f) (hg : BooksOnly g) : BooksOnly fun s => f (g s) := fun s u h => hf _ _ (hg s u h)

theorem booksOnly_setEvent (f : EventFlag) : BooksOnly (setEvent f) := fun _ _ h => ⟨h.cru, h.jrn, h.clock⟩

theorem sameBooks_setEventIf {s u : State} (h : SameBooks s u) (c d : Bool) (f : EventFlag) :
    SameBooks (setEventIf c f s) (setEventIf d f u) :=
  ((setEventIf_changes c f s).sameBooks.symm.trans h).trans (setEventIf_changes d f u).sameBooks

theorem sameBooks_withJournal {s u : State} (h : SameBooks s u) (j : Jrn) : SameBooks (withJournal j s) (withJournal j u) :=
  ⟨by simp [h.cru], by simp, by simp [h.clock]⟩

theorem booksOnly_returnSlots (n : Nat) : BooksOnly (returnSlots n) := fun s u h => by
  unfold returnSlots; rw [h.jrn]; exact sameBooks_withJournal h _

theorem booksOnly_writeFree (b : RecordBody) : BooksOnly (writeFree b) := fun s u h => by
  unfold writeFree
  rw [h.jrn, h.stamp]
  split
  · exact ⟨h.cru, rfl, h.clock⟩
  · exact sameBooks_setEventIf (sameBooks_withJournal h _) _ _ _

theorem booksOnly_writeMoney (b : RecordBody) : BooksOnly (writeMoney b) := fun s u h => by
  unfold writeMoney
  rw [h.jrn, h.stamp]
  split
  · exact booksOnly_writeFree b s u h
  · exact sameBooks_setEventIf (sameBooks_withJournal h _) _ _ _

theorem sameBooks_withCru {s u : State} (h : SameBooks s u) (c : Cru) : SameBooks (s.withCru c) (u.withCru c) :=
  ⟨rfl, h.jrn, h.clock⟩

theorem booksOnly_mapRefund (k : Nat) (f : RefundEntry → RefundEntry) : BooksOnly (mapRefund k f) := fun s u h => by
  unfold mapRefund; rw [h.cru]; exact sameBooks_withCru h _

theorem booksOnly_removeRefund (k : Nat) : BooksOnly (removeRefund k) := fun s u h => by
  unfold removeRefund; rw [h.cru]; exact sameBooks_withCru h _

theorem booksOnly_evictRefund : BooksOnly evictRefund := fun s u h => by
  unfold evictRefund
  rw [h.cru]
  split
  · exact h
  · exact booksOnly_removeRefund _ _ _ (booksOnly_writeMoney _ s u h)

theorem booksOnly_recordCredit (k : CreditKind) (serial amount origin after lost : Nat) :
    BooksOnly (recordCredit k serial amount origin after lost) :=
  (booksOnly_setEvent _).comp (booksOnly_writeMoney _)

theorem booksOnly_creditSerial (k : CreditKind) (serial amount origin : Nat) : BooksOnly (creditSerial k serial amount origin) :=
  fun s u h => by
  unfold creditSerial
  rw [h.cru]
  split
  · exact booksOnly_returnSlots _ _ _ (booksOnly_recordCredit _ _ _ _ _ _ _ _ (booksOnly_mapRefund _ _ _ _ h))
  · unfold creditNew
    dsimp only
    rw [h.cru, h.today]
    have h1 : SameBooks (if Config.refundEntries ≤ s.cru.refunds.length then evictRefund s else s)
        (if Config.refundEntries ≤ s.cru.refunds.length then evictRefund u else u) := by
      split
      · exact booksOnly_evictRefund s u h
      · exact h
    rw [h1.cru]
    exact booksOnly_recordCredit _ _ _ _ _ _ _ _ (sameBooks_withCru h1 _)

/-- R10, R20, R157: what an ended session's refund leaves of the books follows from the books alone. -/
theorem booksOnly_refunded (m : Addr) (payer r : Nat) : BooksOnly (·.refunded m payer r) := fun s u h => by
  unfold State.refunded
  split
  · exact booksOnly_creditSerial _ _ _ _ s u h
  · exact booksOnly_returnSlots 2 s u h

theorem refunded_changes (m : Addr) (payer r : Nat) (s : State) : ChangesOnly [.cru, .jrn, .evu] s (s.refunded m payer r) :=
  refundSession_changes payer r m s

theorem disposeSession_refunded {m : Addr} {s : State} {z : Session} (hz : (s.record m).session = some z) (r : Nat) :
    disposeSession m r s = mapRecord m (fun x => { x with session := none, silenceTimer := 0 }) (s.refunded m z.payer r) :=
  disposeSession_of_some hz r

/-! ## One machine's node and waiting commands (R33, R39) -/

/-- A machine's node-table entry and the commands that wait for it are the same. -/
structure SameBus (m : Addr) (s t : State) : Prop where
  node  : t.node m = s.node m
  waits : ∀ c, t.mbc.waiting m c = s.mbc.waiting m c

theorem SameBus.refl (m : Addr) (s : State) : SameBus m s s := ⟨rfl, fun _ => rfl⟩
theorem SameBus.trans {m : Addr} {s t u : State} (h : SameBus m s t) (k : SameBus m t u) : SameBus m s u :=
  ⟨k.1.trans h.1, fun c => (k.2 c).trans (h.2 c)⟩
theorem SameBus.ite {m : Addr} {s t u : State} {c : Prop} [Decidable c] (h : SameBus m s t) (k : SameBus m s u) :
    SameBus m s (if c then t else u) := by
  split <;> assumption

theorem ChangesOnly.sameBus {ps : List Part} {s t : State} (h : ChangesOnly ps s t) (m : Addr)
    (hp : ps.contains .mbc = false := by rfl) : SameBus m s t :=
  ⟨h.node m hp, fun c => by rw [h.at .mbc hp]⟩

/-- An entry of one address fills no place of another. -/
theorem fills_of_addr_ne {e : BusEntry} {m : Addr} (h : e.addr ≠ m) (c : CommandClass) : e.fills m c = false := by
  simp [BusEntry.fills, h]

/-- A change of entries that are not looked for finds what stood there. -/
theorem find?_map_apart {α : Type} {p : α → Bool} {f : α → α} (hf : ∀ x, p (f x) = p x) (hs : ∀ x, p x = true → f x = x)
    (q : List α) : (q.map f).find? p = q.find? p := by
  induction q with
  | nil => rfl
  | cons x q ih =>
    rw [List.map_cons]
    cases hp : p x with
    | true => rw [List.find?_cons_of_pos ((hf x).trans hp), List.find?_cons_of_pos hp, hs x hp]
    | false =>
      rw [List.find?_cons_of_neg (by rw [hf x, hp]; simp), List.find?_cons_of_neg (by rw [hp]; simp), ih]

theorem find?_enqueueIn_ne {m n : Addr} (h : n ≠ m) (q : List BusEntry) (k : CommandClass) (cmd : BusCommand) (o : BusOwner)
    (c : CommandClass) : (enqueueIn q n k cmd o).find? (·.fills m c) = q.find? (·.fills m c) := by
  have hother : ∀ x : BusEntry, x.fills n k = true → x.fills m c = false := fun x hx =>
    fills_of_addr_ne (by rw [(fills_iff.mp hx).1]; exact h) c
  unfold enqueueIn; dsimp only; split
  · refine find?_map_apart (fun x => ?_) (fun x hx => ?_) q
    · split
      · next hx => rw [fills_of_addr_ne h, hother x hx]
      · rfl
    · rw [if_neg]
      intro hn
      rw [hother x hn] at hx
      cases hx
  · rw [List.find?_append, List.find?_cons_of_neg (by rw [fills_of_addr_ne h]; simp)]
    simp

/-- R39: a command queued for another node, or discarded. -/
theorem sameBus_queueCommand {m n : Addr} (h : n ≠ m) (cmd : BusCommand) (o : BusOwner) (s : State) :
    SameBus m s (queueCommand n cmd o s) := by
  unfold queueCommand; split
  · exact .refl m s
  · exact .ite ⟨rfl, fun c => find?_enqueueIn_ne h _ _ _ _ c⟩ (.refl m s)

theorem sameBus_queueGrant {m n : Addr} (h : n ≠ m) (l : Level) (f : Bool) (s : State) : SameBus m s (queueGrant n l f s) :=
  .ite (((setGrant_changes n _ s).sameBus m).trans (sameBus_queueCommand h _ _ _)) (.refl m s)

theorem sameBus_changeGrant {m n : Addr} (h : n ≠ m) (l : Level) (f : Bool) (s : State) : SameBus m s (changeGrant n l f s) :=
  ((mapGrant_changes n _ s).sameBus m).trans (sameBus_queueGrant h l f _)

theorem sameBus_compareWanted {m n : Addr} (h : n ≠ m) (s : State) : SameBus m s (compareWanted n s) := by
  unfold compareWanted; dsimp only; split
  · split
    · have hc : ∀ (c : Prop) [Decidable c] l f, SameBus m s (if c then s else changeGrant n l f s) :=
        fun c _ l f => .ite (.refl m s) (sameBus_changeGrant h l f s)
      exact .ite ((hc _ _ _).trans ((setRaise_changes n _ _ _).sameBus m)) ((hc _ _ _).trans ((removeRaise_changes n _).sameBus m))
    · exact .refl m s
  · exact .refl m s

theorem sameBus_startRuns {m n : Addr} (h : n ≠ m) (e : GrantEntry) (l : Level) (f : Bool) (s : State) :
    SameBus m s (startRuns n e l f s) :=
  (((startGranted_changes n e s).sameBus m).trans (sameBus_queueGrant h l f _)).trans ((enterRunning_changes n _).sameBus m)

theorem sameBus_grantRaise {m : Addr} {e : AdmEntry} {s t : State} (h : e.machine ≠ m) (hg : grantRaise e s = some t) :
    SameBus m s t := by
  unfold grantRaise at hg; dsimp only at hg; split at hg
  · cases hg; exact ((removeRaise_changes e.machine s).sameBus m).trans (sameBus_changeGrant h _ _ _)
  · cases hg

theorem sameBus_grantStart {m : Addr} {e : AdmEntry} {s t : State} (h : e.machine ≠ m) (hg : grantStart e s = some t) :
    SameBus m s t := by
  unfold grantStart at hg; split at hg
  · cases hg
  · split at hg
    · split at hg
      · cases hg
        rw [grantWasherStart_eq]
        exact (sameBus_startRuns h _ _ _ s).trans (sameBus_compareWanted h _)
      · cases hg
    · split at hg
      · cases hg
        rw [grantDryerStart_eq]
        exact .ite ((sameBus_startRuns h _ _ _ s).trans ((addRaise_changes _ _ _ _).sameBus m)) (sameBus_startRuns h _ _ _ s)
      · cases hg

/-- R59: a review sends nothing to a machine without an entry in the admission queue. -/
theorem sameBus_grantHeads {m : Addr} (k : Nat) (s : State) (hr : s.fba.hasRaise m = false) (hs : s.fba.hasStart m = false) :
    SameBus m s (grantHeads k s) := by
  induction k generalizing s with
  | zero => exact .refl m s
  | succ k ih =>
    unfold grantHeads; split
    · exact .refl m s
    · next t ht =>
      have hap := apart_grantHead ht hr hs
      refine SameBus.trans ?_ (ih t (hap.raise.trans hr) (hap.start.trans hs))
      unfold grantHead at ht; split at ht
      · next e l hl => exact sameBus_grantRaise (by intro he; simp_all [Fba.hasRaise]) ht
      · next e l _ hl => exact sameBus_grantStart (by intro he; simp_all [Fba.hasStart]) ht
      · cases ht

theorem sameBus_review {m : Addr} (s : State) (hr : s.fba.hasRaise m = false) (hs : s.fba.hasStart m = false) :
    SameBus m s (review s) := by
  have hc := clearOverBudget_changes s
  have hr' : (clearOverBudget s).fba.hasRaise m = false := by unfold clearOverBudget; split <;> exact hr
  have hs' : (clearOverBudget s).fba.hasStart m = false := by unfold clearOverBudget; split <;> exact hs
  exact (hc.sameBus m).trans (.ite (.refl m _) (sameBus_grantHeads _ _ hr' hs'))

/-! ## A machine out of the admission queue (R58) -/

/-- A machine's entries have left the admission queue, which has been reviewed: nothing else of the machine has changed, and no
record of a machine without a START entry has. -/
structure Withdrawn (m : Addr) (s t : State) : Prop where
  record  : t.record m = s.record m
  grant   : t.grant m = s.grant m
  raise   : t.fba.hasRaise m = false
  start   : t.fba.hasStart m = false
  bus     : SameBus m s t
  others  : ∀ k, s.fba.hasStart k = false → t.record k = s.record k ∧ t.fba.hasStart k = false
  changes : ChangesOnly [.msv, .mbc, .fba] s t

theorem hasStart_removeEntries {m k : Addr} {s : State} (h : s.fba.hasStart k = false) : (removeEntries m s).fba.hasStart k = false := by
  cases hx : (removeEntries m s).fba.hasStart k with
  | false => rfl
  | true => exact absurd (show s.fba.hasStart k = true from hasStart_filter hx) (by simp [h])

theorem withdrawn_review (m : Addr) (s : State) : Withdrawn m s (review (removeEntries m s)) := by
  have hap := apart_review_removed m s
  obtain ⟨hr, hs⟩ := removeEntries_none m s
  have hc := removeEntries_changes m s
  exact
    { record := hap.record, grant := hap.grant, raise := hap.raise.trans hr, start := hap.start.trans hs
      bus := (hc.sameBus m).trans (sameBus_review _ hr hs)
      others := fun k hk => review_record _ (hasStart_removeEntries hk)
      changes := hc.seq (review_changes _) }

/-! ## A record enters a state (R23, R131) -/

theorem enterState_record (m : Addr) (x : MState) (s : State) :
    (enterState m x s).record m =
      { s.record m with
        state := (s.record m).landing x
        unloadTimer := if (s.record m).landing x = .done then Config.unloadSeconds else 0 } := by
  unfold enterState; dsimp only; split <;> simp [mapRecord, setOpenMark]

theorem enterState_record_ne {m k : Addr} (h : k ≠ m) (x : MState) (s : State) : (enterState m x s).record k = s.record k := by
  unfold enterState; dsimp only; split <;> simp [mapRecord, setOpenMark, h.symm]

theorem enterState_flm (m : Addr) (x : MState) (s : State) :
    (enterState m x s).flm =
      if (s.record m).landing x = .idle ∨ (s.record m).landing x = .offline then s.flm.put m { s.faults m with openMark := false }
      else s.flm := by
  unfold enterState; dsimp only; split <;> rfl

theorem landing_idle (r : MachineRecord) : r.landing .idle = if r.silent then .offline else .idle := rfl

theorem landing_faulted (r : MachineRecord) : r.landing .faulted = if r.silent then .offline else .faulted := rfl

/-! ## A session that goes (R10, R20) -/

/-- A session's machine has been given a control command and has left the admission queue; the session still stands. -/
structure CalledOff (m : Addr) (c : BusCommand) (s t : State) : Prop where
  record  : t.record m = s.record m
  grant   : t.grant m = s.grant m
  raise   : t.fba.hasRaise m = false
  start   : t.fba.hasStart m = false
  node    : t.node m = s.node m
  command : (s.node m).known = true → Commanded t m c
  others  : ∀ k, s.fba.hasStart k = false → t.record k = s.record k ∧ t.fba.hasStart k = false
  changes : ChangesOnly [.msv, .mbc, .fba] s t

theorem node_queueControl (m k : Addr) (c : BusCommand) (s : State) : (queueControl m c s).node k = s.node k := by
  unfold queueControl queueCommand; split
  · rfl
  · split <;> rfl

theorem commanded_queueControl {m : Addr} {c : BusCommand} {s : State} (hc : c.cls = some .control) (hn : (s.node m).known = true) :
    Commanded (queueControl m c s) m c := waiting_queueCommand m c .control .msv s hc hn

theorem Commanded.of_sameBus {m : Addr} {c : BusCommand} {s t : State} (h : Commanded s m c) (k : SameBus m s t) : Commanded t m c := by
  unfold Commanded at h ⊢; rw [k.waits]; exact h

/-- R10, R20: the command first, or the queue first. -/
theorem calledOff_before (m : Addr) {c : BusCommand} (hc : c.cls = some .control) (s : State) :
    CalledOff m c s (review (removeEntries m (queueControl m c s))) := by
  have hq := queueControl_changes m c s
  have hw := withdrawn_review m (queueControl m c s)
  have hfba : (queueControl m c s).fba = s.fba := hq.at .fba
  exact
    { record := hw.record.trans (hq.record m), grant := hw.grant.trans (hq.grant m), raise := hw.raise, start := hw.start
      node := hw.bus.node.trans (node_queueControl m m c s)
      command := fun hn => (commanded_queueControl hc hn).of_sameBus hw.bus
      others := fun k hk => by
        obtain ⟨h1, h2⟩ := hw.others k (by rw [hfba]; exact hk)
        exact ⟨h1.trans (hq.record k), h2⟩
      changes := hq.seq hw.changes }

theorem calledOff_after (m : Addr) {c : BusCommand} (hc : c.cls = some .control) (s : State) :
    CalledOff m c s (queueControl m c (review (removeEntries m s))) := by
  have hw := withdrawn_review m s
  have hq := queueControl_changes m c (review (removeEntries m s))
  have hfba : (queueControl m c (review (removeEntries m s))).fba = (review (removeEntries m s)).fba := hq.at .fba
  exact
    { record := (hq.record m).trans hw.record, grant := (hq.grant m).trans hw.grant
      raise := by rw [hfba]; exact hw.raise
      start := by rw [hfba]; exact hw.start
      node := (node_queueControl m m c _).trans hw.bus.node
      command := fun hn => commanded_queueControl hc (by rw [hw.bus.node]; exact hn)
      others := fun k hk => by
        obtain ⟨h1, h2⟩ := hw.others k hk
        exact ⟨(hq.record k).trans h1, by rw [hfba]; exact h2⟩
      changes := hw.changes.seq hq }

/-- R10, R20: a session has gone with its refund on the books; its record has not entered another state yet. -/
structure SessionOut (m : Addr) (z : Session) (r : Nat) (c : BusCommand) (s t : State) : Prop where
  record  : t.record m = { s.record m with session := none, silenceTimer := 0 }
  grant   : t.grant m = s.grant m
  raise   : t.fba.hasRaise m = false
  start   : t.fba.hasStart m = false
  node    : t.node m = s.node m
  command : (s.node m).known = true → Commanded t m c
  books   : SameBooks (s.refunded m z.payer r) t
  others  : ∀ k, k ≠ m → s.fba.hasStart k = false → t.record k = s.record k ∧ t.fba.hasStart k = false
  changes : ChangesOnly [.msv, .mbc, .fba, .cru, .jrn, .evu] s t

theorem CalledOff.sessionOut {m : Addr} {c : BusCommand} {s t : State} {z : Session} (h : CalledOff m c s t)
    (hz : (s.record m).session = some z) (r : Nat) : SessionOut m z r c s (disposeSession m r t) := by
  rw [disposeSession_refunded (by rw [h.record]; exact hz)]
  have hr := refunded_changes m z.payer r t
  have hm := mapRecord_changes m (fun x => { x with session := none, silenceTimer := 0 }) (t.refunded m z.payer r)
  have hc : ChangesOnly [.msv, .cru, .jrn, .evu] t _ := hr.seq hm
  have hfba := hc.at .fba
  exact
    { record := by simp [mapRecord, hr.record m, h.record]
      grant := (hc.grant m).trans h.grant
      raise := by rw [hfba]; exact h.raise
      start := by rw [hfba]; exact h.start
      node := (hc.node m).trans h.node
      command := fun hn => (h.command hn).of_sameBus (hc.sameBus m)
      books := (booksOnly_refunded m z.payer r _ _ h.changes.sameBooks).trans hm.sameBooks
      others := fun k hk hs => by
        obtain ⟨h1, h2⟩ := h.others k hs
        exact ⟨by simp [mapRecord, hk.symm, hr.record k, h1], by rw [hfba]; exact h2⟩
      changes := h.changes.seq hc }

theorem SessionOut.gone {m : Addr} {z : Session} {r : Nat} {c : BusCommand} {s t : State} (h : SessionOut m z r c s t) :
    SessionGone s t m z.payer r :=
  ⟨by rw [h.record], by rw [h.record], h.books.cru, h.start, h.raise⟩

/-- R10: what disarm with full refund leaves. -/
structure Disarmed (m : Addr) (z : Session) (s t : State) : Prop where
  record  : t.record m = { s.record m with
    state := if (s.record m).silent then .offline else .idle
    unloadTimer := 0, session := none, silenceTimer := 0 }
  grant   : t.grant m = s.grant m
  raise   : t.fba.hasRaise m = false
  start   : t.fba.hasStart m = false
  node    : t.node m = s.node m
  command : (s.node m).known = true → Commanded t m .disarm
  books   : SameBooks (s.refunded m z.payer z.total) t
  flm     : t.flm = s.flm.put m { s.faults m with openMark := false }
  others  : ∀ k, k ≠ m → s.fba.hasStart k = false → t.record k = s.record k ∧ t.fba.hasStart k = false
  changes : ChangesOnly [.msv, .mbc, .fba, .cru, .flm, .jrn, .evu] s t

theorem disarmed_disarmRefund {m : Addr} {s : State} {z : Session} (hz : (s.record m).session = some z) :
    Disarmed m z s (disarmRefund m s) := by
  have hout := (calledOff_before m (c := .disarm) rfl s).sessionOut hz z.total
  have he := enterState_changes m .idle (disposeSession m z.total (review (removeEntries m (queueControl m .disarm s))))
  have hd : disarmRefund m s =
      enterState m .idle (disposeSession m z.total (review (removeEntries m (queueControl m .disarm s)))) := by
    simp only [disarmRefund, hz]
  rw [hd]
  generalize disposeSession m z.total (review (removeEntries m (queueControl m .disarm s))) = u at hout he
  have hland : (u.record m).landing .idle = if (s.record m).silent then .offline else .idle := by rw [hout.record]; rfl
  have hfba := he.at .fba
  exact
    { record := by
        rw [enterState_record, hland, hout.record]
        cases (s.record m).silent <;> rfl
      grant := (he.grant m).trans hout.grant
      raise := by rw [hfba]; exact hout.raise
      start := by rw [hfba]; exact hout.start
      node := (he.node m).trans hout.node
      command := fun hn => (hout.command hn).of_sameBus (he.sameBus m)
      books := hout.books.trans he.sameBooks
      flm := by
        have hf : u.flm = s.flm := hout.changes.at .flm
        have hfm : u.faults m = s.faults m := hout.changes.faults m
        rw [enterState_flm, hland, if_pos (by split <;> simp), hf, hfm]
      others := fun k hk hs => by
        obtain ⟨h1, h2⟩ := hout.others k hk hs
        exact ⟨(enterState_record_ne hk _ _).trans h1, by rw [hfba]; exact h2⟩
      changes := hout.changes.seq he }

theorem Disarmed.gone {m : Addr} {z : Session} {s t : State} (h : Disarmed m z s t) : SessionGone s t m z.payer z.total :=
  ⟨by rw [h.record], by rw [h.record], h.books.cru, h.start, h.raise⟩

/-! ## Timers that run out (R10, R12, R15, R19) -/

theorem sessionDue_of {m : Addr} {x : MState} {f : Session → Bool} {s : State} {z : Session} (hx : (s.record m).state = x)
    (hz : (s.record m).session = some z) (hf : f z = true) : s.sessionDue m x f = true := by
  simp [State.sessionDue, hx, hz, hf]

/-- R10, R12: the expiry of a start timer disarms with full refund. -/
theorem startTimer_expires {c : Instr} {m : Addr} {z : Session} {s : State} (hrun : s.phase = .running)
    (hz : (s.record m).session = some z)
    (hc : (c = .startWindowExpiry m ∧ (s.record m).state = .armed ∧ z.startWindow = 0) ∨
      (c = .startWaitExpiry m ∧ (s.record m).state = .starting ∧ z.startWait = 0)) : exec c s = .next (disarmRefund m s) := by
  obtain ⟨rfl, hx, h0⟩ | ⟨rfl, hx, h0⟩ := hc
  · refine congrArg Host.Outcome.next ?_
    rw [whenRunning_of_running hrun, whenDue_of_due (sessionDue_of hx hz (by simp [h0]))]
  · refine congrArg Host.Outcome.next ?_
    rw [whenRunning_of_running hrun, whenDue_of_due (sessionDue_of hx hz (by simp [h0]))]

/-- R106: the value after a meter step is 0 exactly with the last minute. -/
theorem meterStep_value_eq_zero {v n : Nat} (hn : 1 ≤ n) (hv : 1 ≤ v) : v - v / n = 0 ↔ n = 1 := by
  constructor
  · intro h
    by_contra hne
    have : v / n < v := Nat.div_lt_self (by omega) (by omega)
    omega
  · rintro rfl
    simp

theorem mapSession_record {m : Addr} {s : State} {z : Session} (hz : (s.record m).session = some z) (f : Session → Session) :
    (s.mapSession m f).record m = { s.record m with session := some (f z) } := by
  simp [State.mapSession, hz]

theorem mapSession_record_ne {m k : Addr} (h : k ≠ m) (f : Session → Session) (s : State) :
    (s.mapSession m f).record k = s.record k := by
  simp [State.mapSession, h.symm]

/-- R15, R106: the session after one expiry of its block timer, which has n minutes left before it. -/
def Session.afterBlock (z : Session) (n : Nat) : Session :=
  { z with
    value := z.value - z.value / n, consumed := z.consumed + z.value / n, minutes := some (n - 1)
    blockTimer := if n = 1 then 0 else 60, ending := decide (n = 1) }

theorem blockExpiry_last {m : Addr} {z : Session} {s : State} (hz : (s.record m).session = some z) (h0 : z.blockTimer = 0)
    (hn : z.minutes = some 1) :
    blockExpiry m s = queueControl m (.stop false) (s.mapSession m fun _ => z.afterBlock 1) := by
  unfold blockExpiry
  simp only [hz, Session.meterStep, hn, Option.getD_some, Nat.sub_self, Nat.lt_irrefl, if_false, Session.afterBlock, h0, if_true,
    decide_true]

theorem blockExpiry_more {m : Addr} {z : Session} {n : Nat} {s : State} (hz : (s.record m).session = some z)
    (he : z.ending = false) (hn : z.minutes = some n) (h1 : 1 < n) :
    blockExpiry m s = s.mapSession m fun _ => z.afterBlock n := by
  unfold blockExpiry
  have hpos : 0 < n - 1 := by omega
  have hne : n ≠ 1 := by omega
  simp only [hz, Session.meterStep, hn, Option.getD_some, if_pos hpos, Session.afterBlock, hne, decide_false, he]
  rfl

theorem blockTimer_expires {m : Addr} {z : Session} {n : Nat} {s : State} (hrun : s.phase = .running)
    (hx : (s.record m).state = .running) (hz : (s.record m).session = some z) (hk : z.figures.kind = .dryer)
    (h0 : z.blockTimer = 0) (he : z.ending = false) (hn : z.minutes = some n) (h1 : 1 ≤ n) (hv : 1 ≤ z.value) :
    ∃ t z', exec (.blockTimerExpiry m) s = .next t ∧ t.record m = { s.record m with session := some z' } ∧
      z' = z.afterBlock n ∧ (z'.value = 0 ↔ n = 1) ∧ z'.consumed + z'.value = z.consumed + z.value ∧
      (n = 1 → (s.node m).known = true → Commanded t m (.stop false)) ∧
      (1 < n → t.mbc = s.mbc) ∧ (∀ k, k ≠ m → t.record k = s.record k) ∧ ChangesOnly [.msv, .mbc] s t := by
  have hexec : exec (.blockTimerExpiry m) s = .next (blockExpiry m s) := by
    refine congrArg Host.Outcome.next ?_
    rw [whenRunning_of_running hrun, whenDue_of_due (sessionDue_of hx hz (by simp [Session.blockDue, hk, h0, he, hn, h1]))]
  refine ⟨_, z.afterBlock n, hexec, ?_⟩
  have hle : z.value / n ≤ z.value := Nat.div_le_self _ _
  have hsum : (z.afterBlock n).consumed + (z.afterBlock n).value = z.consumed + z.value := by
    simp only [Session.afterBlock]; omega
  have hm := mapSession_changes m (fun _ => z.afterBlock n) s
  have hrec := mapSession_record hz fun _ => z.afterBlock n
  obtain rfl | hmore := Nat.eq_or_lt_of_le h1
  · rw [blockExpiry_last hz h0 hn]
    have hq := queueControl_changes m (.stop false) (s.mapSession m fun _ => z.afterBlock 1)
    exact ⟨(hq.record m).trans hrec, rfl, meterStep_value_eq_zero h1 hv, hsum,
      fun _ hkn => commanded_queueControl rfl hkn, fun h => absurd h (by omega),
      fun k hk => (hq.record k).trans (mapSession_record_ne hk _ s), hm.seq hq⟩
  · rw [blockExpiry_more hz he hn hmore]
    exact ⟨hrec, rfl, meterStep_value_eq_zero h1 hv, hsum, fun h => absurd h (by omega), fun _ => hm.at .mbc,
      fun k hk => mapSession_record_ne hk _ s, hm.up⟩

/-- Settles O44: each timer by the operation that its expiry has come about. -/
theorem timersExpire : Obligations.TimersExpire := by
  refine ⟨fun c m z s hrun hz hc => ⟨_, startTimer_expires hrun hz hc, ?_⟩,
    fun m z n s hrun hx hz hk h0 he hn h1 hv => blockTimer_expires hrun hx hz hk h0 he hn h1 hv, fun m s hrun hx h0 => ⟨_, rfl, ?_⟩⟩
  · have h := disarmed_disarmRefund hz
    exact ⟨h.gone, h.command, by rw [h.record], h.books.jrn, h.flm, fun k hk hs => (h.others k hk hs).1, h.changes⟩
  · rw [whenRunning_of_running hrun, whenDue_of_due (by simp [hx, h0])]
    refine ⟨?_, ?_, enterState_changes m .idle s⟩
    · have hland : (s.record m).landing .idle = if (s.record m).silent then .offline else .idle := rfl
      unfold enterState
      rw [hland]
      cases hs : (s.record m).silent <;> simp [mapRecord, setOpenMark, State.setRecord, h0, hs]
    · rw [enterState_flm, landing_idle, if_pos (by split <;> simp)]

end Sys2Proof.Machine
end


section
/-! PROOF. The arithmetic of chapter 05 and of the hash set, power and what does not run, and the DEMAND line. -/
namespace Sys2Proof.Machine

/-! ## The arithmetic (O49) -/

/-- R109: a washer's refund is a share of the charge. -/
theorem washerRefund_le (total planned grace run : Nat) : washerRefund total planned grace run ≤ total := by
  unfold washerRefund
  dsimp only
  split
  · exact Nat.le_refl _
  · split
    · exact Nat.zero_le _
    · exact Nat.div_le_of_le_mul ((Nat.mul_comm planned total) ▸ Nat.mul_le_mul_left total (Nat.sub_le ..))

theorem Session.refund_le {z : Session} (h : z.consumed + z.value = z.total) (x : MState) (grace : Nat) :
    z.refund x grace ≤ z.total := by
  unfold Session.refund
  split
  · split
    · omega
    · exact washerRefund_le ..
  · exact Nat.le_refl _

/-- R114: the four digits of a 32-bit serial in base 512. -/
theorem hashIndex_digits {serial : Nat} (h : serial < 2 ^ 32) :
    ∃ d0 d1 d2 d3, d0 ≤ 511 ∧ d1 ≤ 511 ∧ d2 ≤ 511 ∧ d3 ≤ 31 ∧
      serial = d0 + d1 * 512 + d2 * 262144 + d3 * 134217728 ∧ hashIndex serial = (d0 + d1 + d2 + d3) % 512 :=
  ⟨serial % 512, serial / 512 % 512, serial / 262144 % 512, serial / 134217728, by omega, by omega, by omega, by omega,
    by omega, by unfold hashIndex; omega⟩

/-- R103 to R105: the fold moves money and neither makes nor loses any. -/
theorem foldOrder_balances (b x c p : Nat) (h : b + x ≤ 99999) : match foldOrder b x c p with
    | .full balance folded => balance + p = b + x + folded ∧ balance ≤ 99999 ∧ folded ≤ c ∧ (folded = c ∨ balance = 99999)
    | .creditOnly balance folded => b + x + c < p ∧ 0 < x + c ∧ folded = c ∧ balance = min (b + x + c) 99999
    | .short => b < p ∧ x = 0 ∧ c = 0 := by
  have hmax : Config.maxBalance = 99999 := rfl
  unfold foldOrder
  dsimp only
  by_cases hpay : p ≤ b + x + c
  · rw [if_pos hpay]
    by_cases hroom : b + x + c - p ≤ Config.maxBalance
    · rw [if_pos hroom]; dsimp only; omega
    · rw [if_neg hroom]; dsimp only; omega
  · rw [if_neg hpay]
    by_cases hcredit : 0 < x + c
    · rw [if_pos hcredit]; dsimp only; omega
    · rw [if_neg hcredit]; dsimp only; omega

/-- Settles O49: the digits, the fold by its four branches, and a washer's refund as a share of the charge. -/
theorem arithmeticHolds : Obligations.ArithmeticHolds :=
  ⟨fun _ => hashIndex_digits, foldOrder_balances, fun _ x grace h => Session.refund_le h x grace⟩

/-! ## Outside running (O6) -/

theorem whenRunning_of_not_running {f : State → State} {s : State} (h : s.phase ≠ .running) : whenRunning f s = s := by
  unfold whenRunning State.isRunning
  cases hp : s.phase <;> simp_all

theorem afterSlot_of_not_running {f : State → State} {s : State} (h : s.phase ≠ .running) : afterSlot f s = s :=
  whenRunning_of_not_running h

/-- R30: where the last slot stands taken, a command that takes it first finds the state as it is. -/
theorem finishSlot_first {s : State} (h : s.phase = .running → s.SlotDone) : whenRunning finishSlot s = s := by
  by_cases hrun : s.phase = .running
  · rw [whenRunning_of_running hrun, finishSlot_of_done (h hrun)]
  · exact whenRunning_of_not_running hrun

theorem afterSlot_of_done {f : State → State} {s : State} (hrun : s.phase = .running) (h : s.SlotDone) :
    afterSlot f s = f s := by
  unfold afterSlot
  rw [whenRunning_of_running hrun, finishSlot_of_done h]

theorem serveWith_of_not_running {b : Bool} {kind : Byte} {i : Instr} {f : Service} {s : State} (h : s.phase ≠ .running) :
    serveWith b kind i f s = s :=
  whenRunning_of_not_running (f := fun s => match s.hli.buffer with
    | none => answerRequest kind b f s
    | some (.request r) => if r = i then answerRequest kind b f s else linkOverrun s
    | some (.reply _ _) => linkOverrun s) h

theorem losePower_changes (s : State) : ChangesOnly [.phase, .resetHeld, .hli, .evu] s (losePower s) :=
  (withPhase_changes .off s).seq ((withHli_changes _ _).seq
    ((withEvu_changes _ _).seq (withResetHeld_changes false _) (rs := [.evu, .resetHeld])) (rs := [.hli, .evu, .resetHeld]))

/-- R75, R178, R188: in a reset and without power only resets, power and the DEMAND pin act. -/
theorem exec_of_not_running (c : Instr) {s : State} (h : s.phase ≠ .running)
    (hc : match c with
      | .coldReset _ _ _ _ | .resetInputAsserted | .warmResetEnd _ | .powerFailure | .demandLineChange _ => False
      | _ => True) : exec c s = .next s := by
  cases c
  case coldReset | resetInputAsserted | warmResetEnd | powerFailure | demandLineChange => exact hc.elim
  case cancel => rfl
  case getStatus | getMachine | getNodes | getQueue | getFault | getCredits | getPending | readEvents | setEventMask
    | journalRead | journalRelease | setRoomMode | setClock | setProgram | setTariff | setBudget | setLimits
    | commitSettings | lockPrices | setScreenMode | screenAdd | screenRemove | setHashBit | clearHash | serviceOut
    | serviceReturn | abortCycle | rediscover | refundGrant | reset =>
    exact congrArg Host.Outcome.next (serveWith_of_not_running h)
  all_goals exact congrArg Host.Outcome.next (whenRunning_of_not_running h)

/-- Settles O6: power is lost on the state as it stands, and every other row is guarded by the running phase. -/
theorem nothingActsOutsideRunning : Obligations.NothingActsOutsideRunning := by
  refine ⟨fun s hdone => ?_, fun c s hrun hc => exec_of_not_running c hrun hc, fun s hoff => ?_⟩
  · refine ⟨losePower s, congrArg (Host.Outcome.next <| losePower ·) (finishSlot_first hdone), rfl, rfl, rfl, losePower_changes s⟩
  · have hfirst : whenRunning finishSlot s = s := whenRunning_of_not_running (by simp [hoff])
    have hassert : assertReset s = s := by simp [assertReset, hoff]
    exact congrArg Host.Outcome.next ((congrArg assertReset hfirst).trans hassert)

end Sys2Proof.Machine
end

section
/-! PROOF. Which event flags an operation may set (R167), and the DEMAND line (R51). -/
namespace Sys2Proof.Machine

/-! ## Flags -/

/-- Only the flags named may differ in two states. -/
def SetsAmong (fs : List EventFlag) (s t : State) : Prop := ∀ f, f ∉ fs → t.evu.isSet f = s.evu.isSet f

theorem SetsAmong.refl {fs : List EventFlag} (s : State) : SetsAmong fs s s := fun _ _ => rfl

theorem SetsAmong.trans {fs : List EventFlag} {s t u : State} (h : SetsAmong fs s t) (k : SetsAmong fs t u) :
    SetsAmong fs s u := fun f hf => (k f hf).trans (h f hf)

theorem SetsAmong.mono {fs gs : List EventFlag} {s t : State} (h : SetsAmong fs s t) (hsub : fs ⊆ gs := by decide) :
    SetsAmong gs s t := fun f hf => h f fun hm => hf (hsub hm)

theorem SetsAmong.of_evu {fs : List EventFlag} {s t : State} (h : t.evu = s.evu) : SetsAmong fs s t := fun f _ => by rw [h]

theorem SetsAmong.flag {fs : List EventFlag} {s t : State} (h : SetsAmong fs s t) (f : EventFlag)
    (hf : f ∉ fs := by decide) : t.evu.isSet f = s.evu.isSet f := h f hf

theorem ChangesOnly.setsAmong {ps : List Part} {fs : List EventFlag} {s t : State} (h : ChangesOnly ps s t)
    (he : ps.contains .evu = false := by rfl) : SetsAmong fs s t := .of_evu (h.at .evu he)

theorem SetsAmong.ite {fs : List EventFlag} {c : Prop} [Decidable c] {s t u : State} (h : SetsAmong fs s t)
    (k : SetsAmong fs s u) : SetsAmong fs s (if c then t else u) := by
  split
  · exact h
  · exact k

theorem SetsAmong.foldl {α : Type} {fs : List EventFlag} {f : State → α → State} (h : ∀ s x, SetsAmong fs s (f s x))
    (xs : List α) (s : State) : SetsAmong fs s (xs.foldl f s) := by
  induction xs generalizing s with
  | nil => exact .refl s
  | cons x xs ih => exact (h s x).trans (ih (f s x))

theorem setEvent_isSet (f g : EventFlag) (s : State) : (setEvent f s).evu.isSet g = (decide (f = g) || s.evu.isSet g) :=
  Evu.isSet_set s.evu f g

theorem setEventIf_isSet (c : Bool) (f g : EventFlag) (s : State) :
    (setEventIf c f s).evu.isSet g = ((c && decide (f = g)) || s.evu.isSet g) := by
  cases c
  case false => rfl
  case true => exact Evu.isSet_set s.evu f g

theorem setEvent_setsAmong (f : EventFlag) (s : State) : SetsAmong [f] s (setEvent f s) := fun g hg => by
  have hne : f ≠ g := fun h => hg (h ▸ List.mem_singleton_self f)
  rw [setEvent_isSet, decide_eq_false hne, Bool.false_or]

theorem setEventIf_setsAmong (c : Bool) (f : EventFlag) (s : State) : SetsAmong [f] s (setEventIf c f s) := by
  cases c
  · exact .refl s
  · exact setEvent_setsAmong f s

/-- R158, R159: the flags that JRN sets. -/
abbrev journalFlags : List EventFlag := [.journalWaiting, .journalTight, .journalFull]

theorem withJournal_setsAmong (j : Jrn) (s : State) : SetsAmong journalFlags s (withJournal j s) := by
  have hj : SetsAmong journalFlags s (s.withJrn j) := .of_evu rfl
  unfold withJournal
  dsimp only
  split
  · exact hj
  · split
    · exact hj
    · exact hj.trans (setEvent_setsAmong .journalTight _).mono
    · exact hj.trans (setEvent_setsAmong .journalFull _).mono

theorem returnSlots_setsAmong (n : Nat) (s : State) : SetsAmong journalFlags s (returnSlots n s) := withJournal_setsAmong _ s

theorem reserveSlots_setsAmong {n : Nat} {s t : State} (h : reserveSlots n s = some t) : SetsAmong journalFlags s t := by
  unfold reserveSlots at h
  split at h
  · contradiction
  · exact Option.some.inj h ▸ withJournal_setsAmong _ s

theorem writeFree_setsAmong (b : RecordBody) (s : State) : SetsAmong journalFlags s (writeFree b s) :=
  .ite (.of_evu rfl) ((withJournal_setsAmong _ s).trans (setEventIf_setsAmong _ .journalWaiting _).mono)

theorem writeMoney_setsAmong (b : RecordBody) (s : State) : SetsAmong journalFlags s (writeMoney b s) :=
  .ite (writeFree_setsAmong b s) ((withJournal_setsAmong _ s).trans (setEventIf_setsAmong _ .journalWaiting _).mono)

/-- R119: the flags that a credit sets. -/
abbrev creditFlags : List EventFlag := [.journalWaiting, .journalTight, .journalFull, .refundCredited]

theorem recordCredit_setsAmong (k : CreditKind) (serial amount origin after lost : Nat) (s : State) :
    SetsAmong creditFlags s (recordCredit k serial amount origin after lost s) :=
  (writeMoney_setsAmong _ s).mono.trans (setEvent_setsAmong .refundCredited _).mono

theorem mapRefund_setsAmong {fs : List EventFlag} (k : Nat) (f : RefundEntry → RefundEntry) (s : State) :
    SetsAmong fs s (mapRefund k f s) := .of_evu rfl

theorem removeRefund_setsAmong {fs : List EventFlag} (k : Nat) (s : State) : SetsAmong fs s (removeRefund k s) := .of_evu rfl

theorem evictRefund_setsAmong (s : State) : SetsAmong journalFlags s (evictRefund s) := by
  unfold evictRefund
  split
  · exact .refl s
  · exact (writeMoney_setsAmong _ s).trans (removeRefund_setsAmong _ _)

theorem creditSerial_setsAmong (k : CreditKind) (serial amount origin : Nat) (s : State) :
    SetsAmong creditFlags s (creditSerial k serial amount origin s) := by
  unfold creditSerial
  split
  · exact ((mapRefund_setsAmong _ _ s).trans (recordCredit_setsAmong _ _ _ _ _ _ _)).trans (returnSlots_setsAmong 1 _).mono
  · have h1 : SetsAmong creditFlags s (if Config.refundEntries ≤ s.cru.refunds.length then evictRefund s else s) :=
      .ite (evictRefund_setsAmong s).mono (.refl s)
    exact (h1.trans (.of_evu rfl)).trans (recordCredit_setsAmong _ _ _ _ _ _ _)

theorem refunded_setsAmong (m : Addr) (payer r : Nat) (s : State) : SetsAmong creditFlags s (s.refunded m payer r) :=
  .ite (creditSerial_setsAmong _ _ _ _ s) (returnSlots_setsAmong 2 s).mono

/-! ## The budget check's flag (R67) -/

theorem shedStep_setsAmong {fs : List EventFlag} (upper lower : Level) (s : State) :
    SetsAmong fs s (shedStep upper lower s) := (shedStep_changes upper lower s).setsAmong

theorem budgetCheck_setsAmong (s : State) : SetsAmong [.overBudget] s (budgetCheck s) := by
  have hshed : SetsAmong [.overBudget] s (shedStep .heat .base (shedStep .low .air (shedStep .high .low s))) :=
    ((shedStep_setsAmong _ _ s).trans (shedStep_setsAmong _ _ _)).trans (shedStep_setsAmong _ _ _)
  unfold budgetCheck
  dsimp only
  split
  · exact hshed.trans (review_changes _).setsAmong
  · exact hshed.trans ((withFba_changes _ _).setsAmong.trans (setEventIf_setsAmong _ .overBudget _))

theorem checkOrReview_setsAmong (s : State) : SetsAmong [.overBudget] s (checkOrReview s) :=
  .ite (budgetCheck_setsAmong s) (review_changes s).setsAmong

theorem reviewDecrease_setsAmong (s : State) : SetsAmong [.overBudget] s (reviewDecrease s) :=
  .ite (review_changes s).setsAmong (checkOrReview_setsAmong s)

theorem recomputeBudget_setsAmong (s : State) : SetsAmong [.overBudget] s (recomputeBudget s) :=
  (withFba_changes { s.fba with beff := s.effectiveBudget } s).setsAmong.trans (checkOrReview_setsAmong _)

/-! ## The DEMAND line (O48) -/

/-- R51: a change of the line starts or stops the debounce timer. -/
theorem demandLine_reads (d : Demand) {s : State} (hrun : s.phase = .running) :
    (d = s.fba.line → demandLine d s = s) ∧
    (d ≠ s.fba.line →
      demandLine d s = s.withFba { s.fba with line := d, debounce := if d = s.fba.demand then 0 else 2 }) := by
  unfold demandLine
  refine ⟨fun h => if_pos h, fun h => ?_⟩
  dsimp only
  rw [if_neg h, if_pos (by simp [State.isRunning, hrun])]
  rfl

theorem demandLine_changes (d : Demand) (s : State) : ChangesOnly [.fba] s (demandLine d s) :=
  .ite (.refl _ s) (.ite (withFba_changes _ s) (withFba_changes _ s))

/-- R51, R52, R67: the reading becomes the demand state, and the budget is computed and checked anew. -/
theorem takeLine_takes (s : State) :
    (takeLine s).fba.demand = s.fba.line ∧
    (takeLine s).fba.beff = (s.withFba { s.fba with demand := s.fba.line }).effectiveBudget ∧
    ((takeLine s).fba.committed ≤ (takeLine s).fba.beff ∨ (takeLine s).fba.overBudget = true) ∧
    (takeLine s).evu.isSet .demandShed = (s.fba.line == .shed || s.evu.isSet .demandShed) := by
  have hgiven := recomputeBudget_given (s.withFba { s.fba with demand := s.fba.line })
  have hdecl := (recomputeBudget_declares (s.withFba { s.fba with demand := s.fba.line })).2
  have hflag := (recomputeBudget_setsAmong (s.withFba { s.fba with demand := s.fba.line })).flag .demandShed
  unfold takeLine
  rw [setEventIf_fba, setEventIf_isSet, hflag, decide_eq_true rfl, Bool.and_true]
  simp only [Fba.given, Prod.mk.injEq] at hgiven
  exact ⟨hgiven.2.2.1, hgiven.1, hdecl, rfl⟩

/-- Settles O48: the line by its two cases, and its debounce by the check that ends in a declaration. -/
theorem demandFollowsLine : Obligations.DemandFollowsLine := by
  refine ⟨fun d s hrun => ⟨demandLine d s, rfl, (demandLine_reads d hrun).1, fun h => ?_, demandLine_changes d s⟩,
    fun s hrun hne h0 => ⟨takeLine s, ?_, ?_⟩⟩
  · rw [(demandLine_reads d hrun).2 h]; rfl
  · have hdue : s.debounceDue = true := by simp [State.debounceDue, hne, h0]
    exact congrArg Host.Outcome.next ((whenRunning_of_running hrun).trans (whenDue_of_due hdue))
  · obtain ⟨hdemand, hbeff, hdecl, hflag⟩ := takeLine_takes s
    exact ⟨hdemand, hbeff, hdecl, hflag, takeLine_changes s⟩

end Sys2Proof.Machine
end


section
/-! PROOF. What the sessions, the feeder and the faults do to the bus: they queue commands, and change nothing else of it. -/
namespace Sys2Proof.Machine

/-- Of the bus only the queue differs, and each entry of it stood there before or has not been sent. -/
structure Queues (s t : State) : Prop where
  bus   : t.mbc = { s.mbc with queue := t.mbc.queue }
  fresh : ∀ e ∈ t.mbc.queue, e ∈ s.mbc.queue ∨ (e.sends = 0 ∧ e.tag = none)

namespace Queues

theorem of_mbc {s t : State} (h : t.mbc = s.mbc) : Queues s t := ⟨by rw [h], fun e he => .inl (h ▸ he)⟩

theorem refl (s : State) : Queues s s := of_mbc rfl

theorem trans {s t u : State} (h : Queues s t) (k : Queues t u) : Queues s u :=
  ⟨by rw [k.bus, h.bus], fun e he => (k.fresh e he).elim (h.fresh e) .inr⟩

theorem ite {s t u : State} {c : Prop} [Decidable c] (h : Queues s t) (k : Queues s u) : Queues s (if c then t else u) := by
  split
  · exact h
  · exact k

theorem foldl {α : Type} {f : State → α → State} (hf : ∀ s a, Queues s (f s a)) (l : List α) (s : State) :
    Queues s (l.foldl f s) := by
  induction l generalizing s with
  | nil => exact refl s
  | cons a l ih => exact (hf s a).trans (ih _)

theorem node {s t : State} (h : Queues s t) (m : Addr) : t.node m = s.node m := by
  unfold State.node; rw [h.bus]

theorem discovery {s t : State} (h : Queues s t) : t.mbc.discovery = s.mbc.discovery := by rw [h.bus]

end Queues

theorem ChangesOnly.queues {ps : List Part} {s t : State} (h : ChangesOnly ps s t)
    (hp : ps.contains .mbc = false := by rfl) : Queues s t := .of_mbc (h.at .mbc hp)

theorem queueCommand_queues (m : Addr) (c : BusCommand) (o : BusOwner) (s : State) : Queues s (queueCommand m c o s) := by
  unfold queueCommand
  split
  · exact .refl s
  · refine .ite ⟨rfl, fun e he => ?_⟩ (.refl s)
    have hmem : e ∈ enqueueIn s.mbc.queue m _ c o := he
    unfold enqueueIn at hmem
    dsimp only at hmem
    split at hmem
    · obtain ⟨x, hx, rfl⟩ := List.mem_map.mp hmem
      split
      · exact .inr ⟨rfl, rfl⟩
      · exact .inl hx
    · rcases List.mem_append.mp hmem with h | h
      · exact .inl h
      · rw [List.mem_singleton.mp h]; exact .inr ⟨rfl, rfl⟩

theorem queueControl_queues (m : Addr) (c : BusCommand) (s : State) : Queues s (queueControl m c s) :=
  queueCommand_queues m c .msv s

theorem queueArm_queues (m : Addr) (s : State) : Queues s (queueArm m s) := by
  unfold queueArm
  split
  · exact .refl s
  · exact (mapSession_changes m _ s).queues.trans (queueControl_queues m _ _)

/-! ## The feeder -/

theorem queueGrant_queues (m : Addr) (l : Level) (f : Bool) (s : State) : Queues s (queueGrant m l f s) :=
  .ite ((setGrant_changes m _ s).queues.trans (queueCommand_queues m _ _ _)) (.refl s)

theorem changeGrant_queues (m : Addr) (l : Level) (f : Bool) (s : State) : Queues s (changeGrant m l f s) :=
  (mapGrant_changes m _ s).queues.trans (queueGrant_queues m l f _)

theorem compareWanted_queues (m : Addr) (s : State) : Queues s (compareWanted m s) := by
  unfold compareWanted
  dsimp only
  split
  · split
    · have hc : ∀ (c : Prop) [Decidable c] l f, Queues s (if c then s else changeGrant m l f s) :=
        fun c _ l f => .ite (.refl s) (changeGrant_queues m l f s)
      exact .ite ((hc _ _ _).trans (setRaise_changes m _ _ _).queues) ((hc _ _ _).trans (removeRaise_changes m _).queues)
    · exact .refl s
  · exact .refl s

theorem startRuns_queues (m : Addr) (e : GrantEntry) (l : Level) (f : Bool) (s : State) : Queues s (startRuns m e l f s) :=
  ((startGranted_changes m e s).queues.trans (queueGrant_queues m l f _)).trans (enterRunning_changes m _).queues

theorem grantHead_queues {s t : State} (h : grantHead s = some t) : Queues s t := by
  unfold grantHead at h
  split at h
  · unfold grantRaise at h
    dsimp only at h
    split at h
    · cases h; exact (removeRaise_changes _ s).queues.trans (changeGrant_queues _ _ _ _)
    · contradiction
  · unfold grantStart at h
    split at h
    · contradiction
    · split at h
      · split at h
        · cases h
          rw [grantWasherStart_eq]
          exact (startRuns_queues _ _ _ _ s).trans (compareWanted_queues _ _)
        · contradiction
      · split at h
        · cases h
          rw [grantDryerStart_eq]
          exact .ite ((startRuns_queues _ _ _ _ s).trans (addRaise_changes _ _ _ _).queues) (startRuns_queues _ _ _ _ s)
        · contradiction
  · contradiction

theorem grantHeads_queues (n : Nat) (s : State) : Queues s (grantHeads n s) := by
  induction n generalizing s with
  | zero => exact .refl s
  | succ n ih =>
    unfold grantHeads
    split
    · exact .refl s
    · next t h => exact (grantHead_queues h).trans (ih t)

theorem review_queues (s : State) : Queues s (review s) :=
  (clearOverBudget_changes s).queues.trans (.ite (.refl _) (grantHeads_queues _ _))

theorem shedStep_queues (u l : Level) (s : State) : Queues s (shedStep u l s) :=
  .foldl (fun s m => .ite ((changeGrant_queues m l _ s).trans (ensureRaise_changes m _ _ _).queues) (.refl s)) _ s

theorem budgetCheck_queues (s : State) : Queues s (budgetCheck s) := by
  have hshed := ((shedStep_queues .high .low s).trans (shedStep_queues .low .air _)).trans (shedStep_queues .heat .base _)
  unfold budgetCheck
  dsimp only
  split
  · exact hshed.trans (review_queues _)
  · exact hshed.trans ((withFba_changes _ _).queues.trans (setEventIf_changes _ _ _).queues)

theorem checkOrReview_queues (s : State) : Queues s (checkOrReview s) := .ite (budgetCheck_queues s) (review_queues s)

theorem reviewDecrease_queues (s : State) : Queues s (reviewDecrease s) := .ite (review_queues s) (checkOrReview_queues s)

theorem releaseGrant_queues (m : Addr) (s : State) : Queues s (releaseGrant m s) := by
  unfold releaseGrant
  extract_lets e s1 f s2
  have h2 : Queues s s2 :=
    ((mapGrant_changes m _ s).queues.trans (withFba_changes _ s1).queues).trans (removeEntries_changes m _).queues
  split
  · exact (removeEntries_changes m s).queues.trans (review_queues _)
  · exact Queues.trans (.ite (h2.trans (queueGrant_queues m _ false _)) h2) (review_queues _)

theorem rebuildIfHeld_queues (m : Addr) (a : Level) (f : Bool) (s : State) : Queues s (rebuildIfHeld m a f s) := by
  unfold rebuildIfHeld
  split
  · unfold rebuildGrant
    extract_lets s1 e
    have h1 : Queues s s1 := (mapGrant_changes m _ s).queues
    exact Queues.trans (.ite (h1.trans (queueGrant_queues m _ _ _)) h1) (checkOrReview_queues _)
  · exact .refl s

theorem feederReport_queues (m : Addr) (r : NodeReport) (s : State) : Queues s (feederReport m r s) := by
  have h1 : Queues s (mapGrant m (·.reported r) s) := (mapGrant_changes m _ s).queues
  unfold feederReport
  dsimp only
  split
  · exact h1
  · split
    · exact h1.trans (((rebuildIfHeld_queues m _ _ _).trans (compareWanted_queues m _)).trans (reviewDecrease_queues _))
    · exact h1.trans (rebuildIfHeld_queues m _ _ _)
    · exact .ite (h1.trans ((addStart_changes m _ _ _).queues.trans (review_queues _))) h1
    · exact h1

theorem feederSilent_queues (m : Addr) (s : State) : Queues s (feederSilent m s) :=
  .ite (.refl s) (((mapGrant_changes m _ s).queues.trans (removeEntries_changes m _).queues).trans (review_queues _))

/-! ## Sessions and faults -/

theorem disarmRefund_queues (m : Addr) (s : State) : Queues s (disarmRefund m s) := by
  unfold disarmRefund
  split
  · exact .refl s
  · exact ((((queueControl_queues m _ s).trans (removeEntries_changes m _).queues).trans (review_queues _)).trans
      (disposeSession_changes m _ _).queues).trans (enterState_changes m _ _).queues

theorem disarmIfClosed_queues (m : Addr) (s : State) : Queues s (disarmIfClosed m s) :=
  .ite (disarmRefund_queues m s) (.refl s)

theorem normalEnd_queues (m : Addr) (x : MState) (s : State) : Queues s (normalEnd m x s) := by
  unfold normalEnd
  split
  · exact .refl s
  · exact ((((((releaseGrant_queues m s).trans (writeFree_changes _ _).queues).trans (setFaults_changes m _ _).queues).trans
      (setEvent_changes _ _).queues).trans (disposeSession_changes m 0 _).queues).trans (mapRecord_changes m _ _).queues).trans
      (enterState_changes m x _).queues

theorem abortUnstarted_queues (m : Addr) (b : Bool) (x : MState) (s : State) : Queues s (abortUnstarted m b x s) :=
  ((((removeEntries_changes m s).queues.trans (review_queues _)).trans (queueControl_queues m _ _)).trans
    (disposeSession_changes m _ _).queues).trans (enterState_changes m x _).queues

theorem abortRunning_queues (m : Addr) (b : Bool) (d : StopDest) (s : State) : Queues s (abortRunning m b d s) := by
  have hcalled : Queues s (review (removeEntries m (queueControl m (.stop true) s))) :=
    ((queueControl_queues m _ s).trans (removeEntries_changes m _).queues).trans (review_queues _)
  unfold abortRunning
  exact (hcalled.trans (disposeSession_changes m _ _).queues).trans (mapRecord_changes m _ _).queues

theorem backToArmed_queues (m : Addr) (s : State) : Queues s (backToArmed m s) :=
  (((mapRecord_changes m _ s).queues.trans (mapSession_changes m _ _).queues).trans (removeEntries_changes m _).queues).trans
    (review_queues _)

theorem abortIn_queues (m : Addr) (v : Severity) (b : Bool) (s : State) : Queues s (abortIn m v b s) := by
  unfold abortIn
  split
  · exact abortUnstarted_queues m b _ s
  · exact abortUnstarted_queues m b _ s
  · exact backToArmed_queues m s
  · exact abortUnstarted_queues m b _ s
  · exact abortUnstarted_queues m b _ s
  · exact abortRunning_queues m b _ s
  · exact abortRunning_queues m b _ s
  · exact (mapRecord_changes m _ s).queues
  · exact (mapRecord_changes m _ s).queues
  iterate 5 exact (enterState_changes m _ s).queues
  exact .refl s

theorem applyAbort_queues (m : Addr) (v : Severity) (b : Bool) (s : State) : Queues s (applyAbort m v b s) :=
  (endRecovery_changes m s).queues.trans (abortIn_queues m v b _)

theorem orderAbort_queues (m : Addr) (v : Severity) (b : Bool) (s : State) : Queues s (orderAbort m v b s) :=
  (applyAbort_queues m v b s).trans (storeRefund_changes m _ _).queues

theorem takePrimary_queues (m : Addr) (k : FaultKind) (p : Bool) (s : State) : Queues s (takePrimary m k p s) := by
  unfold takePrimary
  extract_lets session own counts r1 n escalated sev s1 ended s2 opens s3 s4
  have h2 : Queues s s2 := (setFaults_changes m _ s).queues.trans (orderAbort_queues m _ _ s1)
  have h3 : Queues s s3 := .ite (h2.trans (setOpenMark_changes m _ _).queues) h2
  exact ((h3.trans (writeFree_changes _ _).queues).trans (setEvent_changes _ _).queues).trans (setEventIf_changes _ _ _).queues

theorem takeSecondary_queues (m : Addr) (k : FaultKind) (p : Bool) (s : State) : Queues s (takeSecondary m k p s) := by
  unfold takeSecondary
  extract_lets own r1 raised s1 s2 s3
  have h1 : Queues s s1 := (setFaults_changes m _ s).queues
  have h2 : Queues s s2 := .ite (h1.trans (applyAbort_queues m _ _ _)) h1
  exact ((h2.trans (setEventIf_changes _ _ _).queues).trans (writeFree_changes _ _).queues).trans (setEvent_changes _ _).queues

theorem takeFault_queues (m : Addr) (k : FaultKind) (p : Bool) (s : State) : Queues s (takeFault m k p s) :=
  .ite (takeSecondary_queues m k p s) (takePrimary_queues m k p s)

theorem selfAbort_queues (m : Addr) (c : FaultCause) (s : State) : Queues s (selfAbort m c s) := by
  unfold selfAbort
  extract_lets f s1 ended s2 s3
  have h2 : Queues s s2 := (setFaults_changes m _ s).queues.trans (orderAbort_queues m _ _ s1)
  have h3 : Queues s s3 := .ite (h2.trans (setOpenMark_changes m _ _).queues) h2
  exact (h3.trans (writeFree_changes _ _).queues).trans (setEvent_changes _ _).queues

/-! ## Reports -/

theorem askStart_queues (m : Addr) (l : Level) (s : State) : Queues s (askStart m l s) := (askStart_changes m l s).queues

theorem beginStarting_queues (m : Addr) (s : State) : Queues s (beginStarting m s) :=
  ((mapRecord_changes m _ s).queues.trans (mapSession_changes m _ _).queues).trans (queueControl_queues m _ _)

theorem enterStarting_queues (m : Addr) (l : Level) (s : State) : Queues s (enterStarting m l s) :=
  ((beginStarting_queues m s).trans (askStart_queues m l _)).trans (review_queues _)

theorem rearm_queues (m : Addr) (s : State) : Queues s (rearm m s) := .ite (queueArm_queues m s) (.refl s)

theorem commandUnpaid_queues (m : Addr) (n : NodeState) (s : State) : Queues s (commandUnpaid m n s) := by
  unfold commandUnpaid
  split
  · exact queueControl_queues m _ s
  · exact .refl s

theorem resolveStarting_queues (m : Addr) (l : Level) (s : State) : Queues s (resolveStarting m l s) := by
  have h := ((endRecovery_changes m s).queues.trans (beginStarting_queues m _)).trans (askStart_queues m l _)
  exact .ite (h.trans (disarmRefund_queues m _)) (h.trans (review_queues _))

theorem resolveReport_queues (m : Addr) (r : NodeReport) (s : State) : Queues s (resolveReport m r s) := by
  have h0 : Queues s (endRecovery m s) := (endRecovery_changes m s).queues
  have ha : Queues s (resolveArmed m s) := (resolveArmed_changes m s).queues
  have hd : Queues s (resolveReport.disarmIfNotRunning m (endRecovery m s)) := .ite h0 (h0.trans (disarmIfClosed_queues m _))
  have hn : ∀ x, Queues s (normalEnd m x (endRecovery m s)) := fun x => h0.trans (normalEnd_queues m x _)
  have hs : Queues s (selfAbort m .runLost (endRecovery m s)) := h0.trans (selfAbort_queues m _ _)
  have hc : Queues s (disarmIfClosed m (resolveArmed m s)) := ha.trans (disarmIfClosed_queues m _)
  have hq : Queues s (disarmIfClosed m (queueArm m (resolveArmed m s))) :=
    (ha.trans (queueArm_queues m _)).trans (disarmIfClosed_queues m _)
  unfold resolveReport
  split
  all_goals with_reducible first
    | exact .refl s
    | exact hd
    | exact h0
    | exact hn _
    | exact hs
    | exact hc
    | exact hq
    | exact resolveStarting_queues m _ s

theorem armedReport_queues (m : Addr) (r : NodeReport) (s : State) : Queues s (armedReport m r s) := by
  unfold armedReport
  split
  · exact enterStarting_queues m _ s
  · exact enterStarting_queues m _ s
  iterate 3 exact rearm_queues m s
  iterate 2 exact .refl s

theorem startingReport_queues (m : Addr) (r : NodeReport) (s : State) : Queues s (startingReport m r s) := by
  have hask : Queues s (if s.fba.hasStart m then s else review (askStart m r.wanted s)) :=
    .ite (.refl s) ((askStart_queues m _ s).trans (review_queues _))
  have hback := backToArmed_queues m s
  unfold startingReport
  split
  · exact hback
  iterate 3 exact hback.trans (rearm_queues m _)
  iterate 2 exact hask
  exact .refl s

theorem runningReport_queues (m : Addr) (r : NodeReport) (s : State) : Queues s (runningReport m r s) := by
  unfold runningReport
  split
  iterate 3 exact normalEnd_queues m _ s
  exact .refl s

theorem abortingReport_queues (m : Addr) (r : NodeReport) (s : State) : Queues s (abortingReport m r s) := by
  have hstop : Queues s (abortingStopped m s) :=
    ((releaseGrant_queues m s).trans (mapRecord_changes m _ _).queues).trans (enterState_changes m _ _).queues
  unfold abortingReport
  split
  iterate 3 exact hstop
  iterate 3 exact queueControl_queues m _ s
  exact .refl s

theorem applyNodeState_queues (m : Addr) (r : NodeReport) (s : State) : Queues s (applyNodeState m r s) := by
  unfold applyNodeState
  split
  · exact (enterState_changes m _ s).queues.trans (commandUnpaid_queues m _ _)
  · exact (enterState_changes m _ s).queues.trans (commandUnpaid_queues m _ _)
  · exact commandUnpaid_queues m _ s
  · exact commandUnpaid_queues m _ s
  · exact .refl s
  · exact armedReport_queues m r s
  · exact startingReport_queues m r s
  · exact runningReport_queues m r s
  · exact (commandUnpaid_queues m _ s).trans (doorRelease_changes m _ _).queues
  · exact (commandUnpaid_queues m _ s).trans (doorRelease_changes m _ _).queues
  · exact abortingReport_queues m r s
  · exact resolveReport_queues m r s

/-- R3: MSV's part of a report queues commands at most. -/
theorem sessionsReport_queues (m : Addr) (r : NodeReport) (s : State) : Queues s (sessionsReport m r s) := by
  have h1 : Queues s (mapRecord m (·.heard r) s) := (mapRecord_changes m _ s).queues
  have hk : Queues s (selfAbort m .kindChanged (endRecovery m (mapRecord m (·.heard r) s))) :=
    (h1.trans (endRecovery_changes m _).queues).trans (selfAbort_queues m _ _)
  exact Queues.trans (.ite hk (h1.trans (applyNodeState_queues m r _))) (feederReport_queues m r _)

end Sys2Proof.Machine
end


section
/-! PROOF. Slots, the close of a period, discovery and the first slot scan (R31, R35, R37, R45, R47, R48). -/
namespace Sys2Proof.Machine

/-! ## Slots without a valid report, and the close of a period (O33) -/

theorem noteOccupied_nodes (m : Addr) (s : State) : (noteOccupied m s).mbc.nodes = s.mbc.nodes := by
  unfold noteOccupied; dsimp only; split <;> rfl

theorem noteOccupied_queue (m : Addr) (s : State) : (noteOccupied m s).mbc.queue = s.mbc.queue := by
  unfold noteOccupied; dsimp only; split <;> rfl

/-- R45: the occupied set once something was heard in a slot. -/
def withSlot (m : Addr) (l : List Addr) : List Addr := if m ∈ l then l else l ++ [m]

theorem mem_withSlot (m : Addr) (l : List Addr) : m ∈ withSlot m l := by
  unfold withSlot; split <;> simp_all

theorem noteOccupied_discovery {m : Addr} {s : State} (h : s.mbc.discovery.active = true) :
    (noteOccupied m s).mbc.discovery = { s.mbc.discovery with occupied := withSlot m s.mbc.discovery.occupied } := by
  unfold noteOccupied withSlot
  dsimp only
  by_cases hm : m ∈ s.mbc.discovery.occupied
  · rw [if_neg (by simp [h, hm]), if_pos hm]
  · rw [if_pos (by simp [h, hm]), if_neg hm]; rfl

theorem noteOccupied_occupies {m : Addr} {s : State} (h : s.mbc.discovery.active = true) :
    m ∈ (noteOccupied m s).mbc.discovery.occupied := by
  rw [noteOccupied_discovery h]; exact mem_withSlot m _

theorem takeMalformed_nodes (m : Addr) (s : State) : (takeMalformed m s).mbc.nodes = s.mbc.nodes.put m
    { s.node m with errorRun := 0, malformed := min 65535 ((s.node m).malformed + 1) } := by
  unfold takeMalformed
  rw [noteOccupied_nodes, ← satInc_eq_min]
  rfl

/-- R31, R37: the counts after a check error, as one entry. -/
theorem checkErrors_eq (n : NodeEntry) (howed : n.clashOwed = false) : n.checkErrors =
    { n with
      errors := min 65535 (n.errors + 1)
      errorRun := if 2 ≤ n.errorRun then (if n.clash then 0 else 3) else n.errorRun + 1
      clashOwed := decide (2 ≤ n.errorRun) && !n.clash } := by
  unfold NodeEntry.checkErrors
  simp only [← satInc_eq_min]
  by_cases hrun : 2 ≤ n.errorRun
  · have hrun' : 3 ≤ n.errorRun + 1 := by omega
    cases hc : n.clash <;> simp [hrun, hrun', howed]
  · have hrun' : ¬3 ≤ n.errorRun + 1 := by omega
    simp [hrun, hrun', howed]

theorem takeCheckError_nodes (m : Addr) (s : State) :
    (takeCheckError m s).mbc.nodes = s.mbc.nodes.put m (s.node m).checkErrors := by
  unfold takeCheckError
  rw [noteOccupied_nodes]
  rfl

theorem closePeriod_node (m : Addr) (s : State) : (closePeriod s).node m =
    { s.node m with
      missed := if (s.node m).known = false then 0 else if (s.node m).heardNow then (s.node m).missed
        else min 255 ((s.node m).missed + 1)
      heardNow := false } := by
  have h : (closePeriod s).node m = (s.node m).closePeriod := PerMachine.at_mapAll _ _ _
  rw [h]
  unfold NodeEntry.closePeriod
  cases hk : (s.node m).known <;> simp [hk, satInc_eq_min]

theorem closePeriod_discovery (s : State) : (closePeriod s).mbc.discovery =
    { s.mbc.discovery with
      fresh := false
      window := if s.mbc.discovery.fresh then s.mbc.discovery.window else s.mbc.discovery.window - 1 } := by
  show s.mbc.discovery.closePeriod = _
  unfold Discovery.closePeriod
  cases h : s.mbc.discovery.fresh <;> simp

theorem closePeriod_scanCount (s : State) :
    (closePeriod s).mbc.scanCount = if s.mbc.scanning then min 8 (s.mbc.scanCount + 1) else s.mbc.scanCount := by
  rw [← satInc_eq_min]; rfl

theorem scanning_iff_of_idle {b : Mbc} (h : b.discovery.active = false) :
    b.scanning = (!b.scanComplete && !b.scanSkip) := by
  simp [Mbc.scanning, h]

/-- A slot event of the running part, its last slot taken, is what it does on the state as it stands. -/
theorem exec_malformed {c : Instr} {slot : Addr} {s : State} (hrun : s.phase = .running) (hdone : s.SlotDone)
    (hc : c = .malformedReport slot ∨ ∃ rep, c = .validReport slot rep ∧ decodeReport slot rep = none) :
    exec c s = .next (takeMalformed slot s) := by
  rcases hc with rfl | ⟨rep, rfl, hrep⟩
  · exact congrArg Host.Outcome.next (afterSlot_of_done hrun hdone)
  · refine congrArg Host.Outcome.next ((afterSlot_of_done hrun hdone).trans ?_)
    rw [hrep]

/-- Settles O33: one equation for each slot event's entry, and the fields of the close of a period. -/
theorem slotsAndPeriodCounted : Obligations.SlotsAndPeriodCounted := by
  refine ⟨fun c slot s hrun hdone hc => ⟨_, exec_malformed hrun hdone hc, takeMalformed_nodes slot s,
      fun hd => noteOccupied_occupies hd, takeMalformed_changes slot s⟩,
    fun slot s hrun hdone => ⟨takeCheckError slot s, congrArg Host.Outcome.next (afterSlot_of_done hrun hdone), ?_,
      fun hd => noteOccupied_occupies hd, takeCheckError_changes slot s⟩,
    fun slot s hrun hdone => ⟨mapNode slot (fun n => { n with errorRun := 0 }) s,
      congrArg Host.Outcome.next (afterSlot_of_done hrun hdone), rfl, mapNode_changes slot _ s⟩,
    fun s hrun hdone => ⟨closePeriod s, congrArg Host.Outcome.next (afterSlot_of_done hrun hdone),
      fun m => closePeriod_node m s, rfl, closePeriod_discovery s, fun h1 h2 h3 => ?_, fun h => ?_, rfl, rfl, rfl,
      closePeriod_changes s⟩⟩
  · rw [takeCheckError_nodes, checkErrors_eq _ (hdone slot).2.1]
  · rw [closePeriod_scanCount, scanning_iff_of_idle h3, h1, h2]; rfl
  · rw [closePeriod_scanCount]
    refine if_neg ?_
    rcases h with h | h <;> simp [Mbc.scanning, h]

/-! ## Discovery (O22) -/

/-- The lowest machine of a kind, as the search in ascending number finds it. -/
theorem find?_allMachines {p : Addr → Bool} {a : Addr} :
    allMachines.find? p = some a ↔ p a = true ∧ ∀ b, b < a → p b = false := by
  have hall : allMachines = List.finRange 24 := by decide
  rw [hall, List.find?_eq_some_iff_getElem]
  refine and_congr_right fun _ => ⟨fun ⟨i, hi, hia, hlow⟩ b hb => ?_, fun hlow => ⟨a.val, by simp, by simp, fun j hj => ?_⟩⟩
  · have hai : a.val = i := by rw [← hia]; simp
    have := hlow b.val (by rw [← hai]; exact hb)
    simpa using this
  · have := hlow ⟨j, by omega⟩ hj
    simpa using this

theorem lowestFree_eq_some {b : Mbc} {a : Addr} : b.lowestFree = some a ↔
    ((b.nodes.at a).known = false ∧ a ∉ b.discovery.occupied) ∧
      ∀ k, k < a → (b.nodes.at k).known = true ∨ k ∈ b.discovery.occupied := by
  unfold Mbc.lowestFree
  rw [find?_allMachines]
  refine and_congr (by simp) (forall₂_congr fun k _ => ?_)
  cases (b.nodes.at k).known <;> simp

/-- R45 step 1: what an offer leaves: the lowest free address is offered with its ASSIGN at the tail, or the discovery ends. -/
structure Offers (s t : State) : Prop where
  offered    : t.mbc.discovery.offered = s.mbc.lowestFree
  active     : s.mbc.discovery.active = true → t.mbc.discovery.active = t.mbc.discovery.offered.isSome
  window     : t.mbc.discovery.window = 0
  unanswered : t.mbc.discovery.unanswered = s.mbc.discovery.unanswered
  occupied   : t.mbc.discovery.occupied = s.mbc.discovery.occupied
  cause      : t.mbc.discovery.cause = s.mbc.discovery.cause
  nodes      : t.mbc.nodes = s.mbc.nodes
  queue      : t.mbc.queue.map (fun e => (e.addr, e.command)) = s.mbc.queue.map (fun e => (e.addr, e.command)) ++
    (t.mbc.discovery.offered.map fun a => (a, BusCommand.assign)).toList

theorem offerNext_offers (s : State) : Offers s (offerNext s) := by
  unfold offerNext
  cases h : s.mbc.lowestFree with
  | none =>
    exact ⟨h.symm, fun _ => rfl, rfl, rfl, rfl, rfl, rfl, (List.append_nil _).symm⟩
  | some a =>
    exact ⟨h.symm, fun ha => ha, rfl, rfl, rfl, rfl, rfl, List.map_append⟩

theorem Offers.assigned {s t : State} (h : Offers s t) {b : Addr} (hb : t.mbc.discovery.offered = some b) :
    t.mbc.queue.getLast?.map (fun e => (e.addr, e.command)) = some (b, BusCommand.assign) := by
  have hq := h.queue
  rw [hb] at hq
  rw [← List.getLast?_map, hq]
  simp

theorem rediscover_busy {s : State}
    (h : (∃ m, (s.record m).state = .reserved) ∨ s.mbc.scanComplete = false ∨ s.mbc.discovery.active = true) :
    rediscover s = (.busy [], s) := by
  unfold rediscover
  refine if_pos ?_
  rcases h with ⟨m, hm⟩ | h | h
  · have : allMachines.any (fun m => (s.record m).state == .reserved) = true :=
      List.any_eq_true.mpr ⟨m, mem_allMachines m, by simp [hm]⟩
    simp [this]
  · simp [h]
  · simp [h]

theorem rediscover_starts {s : State} (h : ∀ m, (s.record m).state ≠ .reserved) (hscan : s.mbc.scanComplete = true)
    (hoff : s.mbc.discovery.active = false) : rediscover s = (.ok [], startDiscovery .host s) := by
  unfold rediscover
  have : allMachines.any (fun m => (s.record m).state == .reserved) = false := by
    simpa [List.any_eq_false] using fun m _ => h m
  exact if_neg (by simp [this, hscan, hoff])

/-! ### What a report leaves of a discovery -/

/-- The discovery stands, and no address but one may have become known or unknown; that one is not forgotten. -/
structure SameOffer (m : Addr) (s t : State) : Prop where
  discovery : t.mbc.discovery = s.mbc.discovery
  others    : ∀ k, k ≠ m → (t.node k).known = (s.node k).known
  known     : (s.node m).known = true → (t.node m).known = true

namespace SameOffer

theorem refl (m : Addr) (s : State) : SameOffer m s s := ⟨rfl, fun _ _ => rfl, id⟩

theorem trans {m : Addr} {s t u : State} (h : SameOffer m s t) (k : SameOffer m t u) : SameOffer m s u :=
  ⟨k.discovery.trans h.discovery, fun n hn => (k.others n hn).trans (h.others n hn), k.known ∘ h.known⟩

theorem ite {m : Addr} {s t u : State} {c : Prop} [Decidable c] (h : SameOffer m s t) (k : SameOffer m s u) :
    SameOffer m s (if c then t else u) := by
  split
  · exact h
  · exact k

end SameOffer

theorem Queues.sameOffer {s t : State} (h : Queues s t) (m : Addr) : SameOffer m s t :=
  ⟨h.discovery, fun k _ => by rw [h.node], fun hk => by rw [h.node]; exact hk⟩

theorem mapNode_sameOffer (m : Addr) (f : NodeEntry → NodeEntry) (s : State)
    (h : (s.node m).known = true → (f (s.node m)).known = true) : SameOffer m s (mapNode m f s) :=
  ⟨rfl, fun k hk => by simp [mapNode, Ne.symm hk], fun hk => by simpa [mapNode] using h hk⟩

theorem acknowledge_sameOffer (m : Addr) (c : CommandClass) (n : Nat) (s : State) : SameOffer m s (acknowledge m c n s) := by
  have hdrop : SameOffer m s (dropCommand m c s) := ⟨rfl, fun _ _ => rfl, id⟩
  unfold acknowledge
  split
  · exact .refl m s
  · exact .ite (hdrop.trans ((tellOwner_changes m _ _ _).queues.sameOffer m)) (.refl m s)

theorem takeEchoes_sameOffer (m : Addr) (r : NodeReport) (s : State) : SameOffer m s (takeEchoes m r s) :=
  ((mapNode_sameOffer m _ s id).trans (acknowledge_sameOffer m _ _ _)).trans (acknowledge_sameOffer m _ _ _)

theorem heardAgain_sameOffer (m : Addr) (s : State) : SameOffer m s (heardAgain m s) :=
  .ite ((mapNode_sameOffer m _ s id).trans ((feederHeard_changes m _).queues.sameOffer m)) (.refl m s)

theorem faultCode_sameOffer (m : Addr) (r : NodeReport) (s : State) : SameOffer m s (faultCode m r s) := by
  unfold faultCode
  split
  · exact mapNode_sameOffer m _ s id
  · exact .ite (.refl m s) ((mapNode_sameOffer m _ s id).trans ((takeFault_queues m _ _ _).sameOffer m))

theorem finishReport_sameOffer (m : Addr) (r : NodeReport) (s : State) : SameOffer m s (finishReport m r s) :=
  ((mapNode_sameOffer m _ s id).trans ((sessionsReport_queues m r _).sameOffer m)).trans (faultCode_sameOffer m r _)

/-- R32: once the address is known, the rest of its report leaves the discovery. -/
theorem takeReport_sameOffer (m : Addr) (r : NodeReport) (s : State) :
    SameOffer m (mapNode m (·.heardValid r.kind) s) (takeReport m r s) := by
  have hkeep : ∀ n : NodeEntry, (n.checkKeep r.keepAlive).known = n.known := fun n => by
    unfold NodeEntry.checkKeep; split <;> rfl
  have hchecked : SameOffer m (mapNode m (·.heardValid r.kind) s) (mapNode m (·.checkKeep r.keepAlive) (hearReport m r s)) :=
    ((heardAgain_sameOffer m _).trans (takeEchoes_sameOffer m r _)).trans
      (mapNode_sameOffer m _ _ fun h => by rw [hkeep]; exact h)
  unfold takeReport
  exact .ite (hchecked.trans (mapNode_sameOffer m _ _ id)) (hchecked.trans (finishReport_sameOffer m r _))

/-- R32, R45: a valid report makes its address known, and leaves the discovery with its slot occupied. -/
theorem takeReport_known (m : Addr) (r : NodeReport) {s : State} (hact : s.mbc.discovery.active = true) :
    let t := takeReport m r (noteOccupied m s)
    (t.node m).known = true ∧ (∀ k, k ≠ m → (t.node k).known = (s.node k).known) ∧
      t.mbc.discovery = { s.mbc.discovery with occupied := withSlot m s.mbc.discovery.occupied } := by
  have h := takeReport_sameOffer m r (noteOccupied m s)
  have hnode : ∀ k, (noteOccupied m s).node k = s.node k := fun k => by unfold State.node; rw [noteOccupied_nodes]
  refine ⟨h.known (by simp [mapNode, NodeEntry.heardValid]), fun k hk => ?_, ?_⟩
  · rw [h.others k hk]
    simp [mapNode, Ne.symm hk, hnode]
  · rw [h.discovery]
    exact noteOccupied_discovery hact

/-- The report of a slot is taken: the part runs and the last slot's outcome stands taken. -/
theorem exec_validReport {slot : Addr} {rep : SlotReport} {r : NodeReport} {s : State} (h : ReportTaken s slot rep r) :
    exec (.validReport slot rep) s = .next (takeValid slot r s) := by
  obtain ⟨hrun, hrep, hdone, -⟩ := h
  refine congrArg Host.Outcome.next ((afterSlot_of_done hrun hdone).trans ?_)
  rw [hrep]

theorem answeredBy_iff {d : Discovery} {m : Addr} (hact : d.active = true) :
    d.answeredBy m = true ↔ d.offered = some m ∧ 0 < d.window ∧ d.fresh = false := by
  simp [Discovery.answeredBy, Discovery.windowOpen, hact]

theorem takeValid_unanswered {m : Addr} {r : NodeReport} {s : State} (h : ¬s.mbc.discovery.answeredBy m = true) :
    takeValid m r s = takeReport m r (noteOccupied m s) := if_neg h

theorem takeValid_answered {m : Addr} {r : NodeReport} {s : State} (h : s.mbc.discovery.answeredBy m = true) :
    takeValid m r s = assignAnswered (takeReport m r (noteOccupied m s)) := if_pos h

/-- R45: a valid report during a discovery. -/
theorem takeValid_discovers {slot : Addr} {r : NodeReport} {s : State} (hact : s.mbc.discovery.active = true) :
    let t := takeValid slot r s
    let d := s.mbc.discovery
    let heard := withSlot slot d.occupied
    let answers := d.offered = some slot ∧ 0 < d.window ∧ d.fresh = false
    (t.node slot).known = true ∧
    (answers →
      t.mbc.discovery.unanswered = 0 ∧ t.mbc.discovery.window = 0 ∧ t.mbc.discovery.occupied = heard ∧
      t.mbc.discovery.cause = d.cause ∧
      (∀ b, t.mbc.discovery.offered = some b ↔
        ((s.node b).known = false ∧ b ∉ heard) ∧ ∀ k, k < b → (s.node k).known = true ∨ k ∈ heard) ∧
      t.mbc.discovery.active = t.mbc.discovery.offered.isSome ∧
      ∀ b, t.mbc.discovery.offered = some b →
        t.mbc.queue.getLast?.map (fun e => (e.addr, e.command)) = some (b, BusCommand.assign)) ∧
    (¬answers → t.mbc.discovery = { d with occupied := heard }) := by
  obtain ⟨hknown, hothers, hdisc⟩ := takeReport_known slot r hact
  dsimp only
  by_cases hans : s.mbc.discovery.answeredBy slot = true
  · refine ⟨?_, fun _ => ?_, fun hno => absurd ((answeredBy_iff hact).mp hans) hno⟩
    all_goals rw [takeValid_answered hans]; unfold assignAnswered
    all_goals generalize takeReport slot r (noteOccupied slot s) = u at hknown hothers hdisc
    all_goals generalize hv : u.withMbc { u.mbc with
      discovery := { u.mbc.discovery with unanswered := 0, offered := none, window := 0, fresh := false } } = v
    all_goals have hoffer := offerNext_offers v
    · unfold State.node
      rw [hoffer.nodes, ← hv]
      exact hknown
    · have hvd : v.mbc.discovery = { s.mbc.discovery with
          occupied := withSlot slot s.mbc.discovery.occupied, unanswered := 0, offered := none, window := 0, fresh := false } := by
        rw [← hv]; simp [hdisc]
      have hfree : ∀ k, (v.mbc.nodes.at k).known = true ∨ k ∈ v.mbc.discovery.occupied ↔
          (s.node k).known = true ∨ k ∈ withSlot slot s.mbc.discovery.occupied := fun k => by
        have hk : v.mbc.nodes.at k = u.node k := by rw [← hv]; rfl
        rw [hk, hvd]
        by_cases he : k = slot
        · subst he; simp [mem_withSlot]
        · rw [hothers k he]
      refine ⟨by rw [hoffer.unanswered, hvd], hoffer.window, by rw [hoffer.occupied, hvd], by rw [hoffer.cause, hvd],
        fun b => ?_, hoffer.active (by rw [hvd]; exact hact), fun b => hoffer.assigned⟩
      rw [hoffer.offered, lowestFree_eq_some]
      refine and_congr ?_ (forall₂_congr fun k _ => hfree k)
      have := not_congr (hfree b)
      simpa using this
  · rw [takeValid_unanswered hans]
    exact ⟨hknown, fun h => absurd ((answeredBy_iff hact).mpr h) hans, fun _ => hdisc⟩

/-- R45 step 4: an offer that was not answered. -/
theorem assignUnanswered_counts (s : State) :
    let t := assignUnanswered s
    let n := s.mbc.discovery.unanswered + 1
    t.mbc.discovery.unanswered = n ∧ t.mbc.nodes = s.mbc.nodes ∧
    (3 ≤ n → t.mbc.discovery.active = false ∧ t.mbc.discovery.offered = none ∧ t.mbc.queue = s.mbc.queue) ∧
    (n < 3 → Offers (s.withMbc { s.mbc with discovery := { s.mbc.discovery with unanswered := n, offered := none } }) t) := by
  dsimp only
  unfold assignUnanswered
  dsimp only
  by_cases h : 3 ≤ s.mbc.discovery.unanswered + 1
  · rw [if_pos h]
    exact ⟨rfl, rfl, fun _ => ⟨rfl, rfl, rfl⟩, fun h' => by omega⟩
  · rw [if_neg h]
    have ho := offerNext_offers (s.withMbc { s.mbc with
      discovery := { s.mbc.discovery with unanswered := s.mbc.discovery.unanswered + 1, offered := none } })
    exact ⟨ho.unanswered, ho.nodes, fun h' => absurd h' h, fun _ => ho⟩

theorem windowClosed_of {b : Mbc} {a : Addr} (hact : b.discovery.active = true) (ho : b.discovery.offered = some a)
    (hw : b.discovery.window = 0) (hq : ∀ e ∈ b.queue, e.command ≠ .assign) : b.windowClosed = true := by
  have : b.queue.any (·.command == .assign) = false := by simpa [List.any_eq_false] using hq
  simp [Mbc.windowClosed, hact, ho, hw, this]

/-- Settles O22: every offer is the search for the lowest free address, and a report leaves the discovery but for its slot. -/
theorem discoveryAndScan : Obligations.DiscoveryAndScan := by
  refine ⟨fun s hs => ⟨_, rfl, ?_⟩, fun slot rep r s hrep hact => ⟨_, exec_validReport hrep, takeValid_discovers hact⟩,
    fun s a hrun hact ho hw hq => ⟨assignUnanswered s, ?_, ?_⟩, fun s hrun hscan hcount => ⟨completeScan s, ?_, rfl, withMbc_changes _ s⟩⟩
  · rw [serve_of_serves hs]
    refine ⟨fun h => onlyReplies_answer (rediscover_busy h), fun h hscan hoff => ?_⟩
    have hr := rediscover_starts h hscan hoff
    rw [answerRequest_eq hr]
    have hoffer := offerNext_offers (s.withMbc { s.mbc with
      discovery := { active := true, cause := some .host, offered := none, window := 0, unanswered := 0, occupied := []
                     fresh := false } })
    refine ⟨hoffer.nodes, hoffer.cause, hoffer.unanswered, hoffer.occupied, fun a => ?_, hoffer.active rfl, hoffer.queue,
      holds_putReply ((startDiscovery_changes .host s).at .hli) _, (startDiscovery_changes .host s).seq (putReply_changes _ _ _)⟩
    have hlow : (startDiscovery .host s).mbc.discovery.offered = some a ↔ _ :=
      hoffer.offered ▸ lowestFree_eq_some
    exact hlow.trans (by simp [State.node])
  · exact congrArg Host.Outcome.next ((whenRunning_of_running hrun).trans (whenDue_of_due (windowClosed_of hact ho hw hq)))
  · obtain ⟨hcount, hnodes, hends, hoffers⟩ := assignUnanswered_counts s
    refine ⟨hcount, hnodes, hends, fun hlow => ⟨fun b => ?_, (hoffers hlow).queue⟩, assignUnanswered_changes s⟩
    rw [(hoffers hlow).offered, lowestFree_eq_some]
    rfl
  · have hdue : s.scanDue = true := by
      have : Config.scanPeriods ≤ s.mbc.scanCount := hcount
      simp [State.scanDue, hscan, this]
    exact congrArg Host.Outcome.next ((whenRunning_of_running hrun).trans (whenDue_of_due hdue))

end Sys2Proof.Machine
end


section
/-! PROOF. The refund table by its places, the expiry check and the clock (R119, R120, R123, R178). -/
namespace Sys2Proof.Machine

/-! ## A table of distinct serials, around one entry -/

/-- No other entry of the table bears the serial. -/
def Alone (k : Nat) (older newer : List RefundEntry) : Prop := ∀ x ∈ older ++ newer, x.serial ≠ k

section
variable {older newer : List RefundEntry} {e : RefundEntry}

theorem alone_of_nodup (h : ((older ++ e :: newer).map (·.serial)).Nodup) : Alone e.serial older newer := fun x hx he => by
  have hmid : ((e :: (older ++ newer)).map (·.serial)).Nodup := (List.perm_middle.map _).nodup_iff.mp h
  rw [List.map_cons, List.nodup_cons] at hmid
  exact hmid.1 (he ▸ List.mem_map_of_mem hx)

theorem Alone.ne_older (h : Alone e.serial older newer) {x : RefundEntry} (hx : x ∈ older) : x.serial ≠ e.serial :=
  h x (List.mem_append_left _ hx)

theorem Alone.ne_newer (h : Alone e.serial older newer) {x : RefundEntry} (hx : x ∈ newer) : x.serial ≠ e.serial :=
  h x (List.mem_append_right _ hx)

theorem filter_alone (h : Alone e.serial older newer) :
    (older ++ e :: newer).filter (·.serial != e.serial) = older ++ newer := by
  rw [List.filter_append, List.filter_cons_of_neg (by simp), List.filter_eq_self.mpr fun x hx => by simp [h.ne_older hx],
    List.filter_eq_self.mpr fun x hx => by simp [h.ne_newer hx]]

theorem map_alone (h : Alone e.serial older newer) (f : RefundEntry → RefundEntry) :
    ((older ++ e :: newer).map fun x => if x.serial == e.serial then f x else x) = older ++ f e :: newer := by
  have hself : ∀ l : List RefundEntry, (∀ x ∈ l, x.serial ≠ e.serial) →
      (l.map fun x => if x.serial == e.serial then f x else x) = l := fun l hl =>
    (List.map_congr_left fun x hx => if_neg (by simpa using hl x hx)).trans (List.map_id l)
  rw [List.map_append, List.map_cons, hself older fun x hx => h.ne_older hx, hself newer fun x hx => h.ne_newer hx,
    if_pos (beq_self_eq_true _)]

theorem refund_alone {c : Cru} (hc : c.refunds = older ++ e :: newer) (h : Alone e.serial older newer) :
    c.refund e.serial = some e := by
  unfold Cru.refund
  rw [hc, List.find?_append, List.find?_eq_none.mpr fun x hx => by simpa using h.ne_older hx,
    List.find?_cons_of_pos (by simp), Option.none_or]

end

/-! ## The expiry check (R123) -/

theorem dated_pledged (e : RefundEntry) (d : Nat) : (e.dated d).pledged = e.pledged := by
  unfold RefundEntry.dated; split
  · rfl
  · split <;> rfl

theorem dated_hold (e : RefundEntry) (d : Nat) : (e.dated d).hold = e.hold := by
  unfold RefundEntry.dated; split
  · rfl
  · split <;> rfl

theorem dated_amount (e : RefundEntry) (d : Nat) : (e.dated d).amount = e.amount := by
  unfold RefundEntry.dated; split
  · rfl
  · split <;> rfl

theorem dated_origin (e : RefundEntry) (d : Nat) : (e.dated d).origin = e.origin := by
  unfold RefundEntry.dated; split
  · rfl
  · split <;> rfl

theorem expires_eq (e : RefundEntry) (d limit : Nat) :
    e.expires d limit = ((e.dated d).evictable && decide (limit ≤ d - (e.dated d).created.getD d)) := by
  unfold RefundEntry.expires RefundEntry.evictable
  rw [dated_pledged, dated_hold]

section
variable {today : Nat} {s : State} {older newer : List RefundEntry} {e : RefundEntry}

/-- R123: an entry that expires leaves the table, with its record against its own reservation. -/
theorem expireEntry_expires (hx : e.expires today s.sst.working.limits.expiry = true)
    (hc : s.cru.refunds = older ++ e :: newer) (ha : Alone e.serial older newer) (hr : s.jrn.reservations ≠ 0) :
    (expireEntry today s e).cru = { s.cru with refunds := older ++ newer } ∧
    (expireEntry today s e).jrn = { s.jrn.append s.stamp e.expiredBody with reservations := s.jrn.reservations - 1 } := by
  unfold expireEntry
  dsimp only
  rw [if_pos ((expires_eq e today _).symm.trans hx)]
  refine ⟨?_, ?_⟩
  · simp only [removeRefund, State.withCru_cru, writeMoney_cru, hc, e.dated_serial today, filter_alone ha]
  · simp only [removeRefund, State.withCru_jrn, writeMoney_jrn _ s hr, RefundEntry.expiredBody, e.dated_serial today,
      dated_amount, dated_origin]

/-- R123: an entry that does not expire has its created day found again. -/
theorem expireEntry_stays (hx : e.expires today s.sst.working.limits.expiry = false)
    (hc : s.cru.refunds = older ++ e :: newer) (ha : Alone e.serial older newer) :
    (expireEntry today s e).cru = { s.cru with refunds := older ++ e.dated today :: newer } ∧
    (expireEntry today s e).jrn = s.jrn := by
  unfold expireEntry
  dsimp only
  rw [if_neg (by rw [← expires_eq, hx]; simp)]
  refine ⟨?_, rfl⟩
  simp only [mapRefund, State.withCru_cru, hc, e.dated_serial today, map_alone ha]

end

theorem expireEntry_sst (today : Nat) (s : State) (e : RefundEntry) : (expireEntry today s e).sst = s.sst :=
  (expireEntry_changes today s e).at .sst

/-- R123: the check from a place in the table on: what was checked already stands, and each entry behind expires or stays. -/
theorem expireEntries_from (today : Nat) (older rest : List RefundEntry) (s : State) (hc : s.cru.refunds = older ++ rest)
    (hn : ((older ++ rest).map (·.serial)).Nodup) (hr : rest.length ≤ s.jrn.reservations) :
    let t := rest.foldl (expireEntry today) s
    let limit := s.sst.working.limits.expiry
    let gone := rest.filter fun e => e.expires today limit
    t.cru = { s.cru with refunds := older ++ (rest.filter fun e => !e.expires today limit).map fun e => e.dated today } ∧
    t.jrn.records.map (·.body) = s.jrn.records.map (·.body) ++ gone.map RefundEntry.expiredBody ∧
    t.jrn.reservations = s.jrn.reservations - gone.length := by
  induction rest generalizing older s with
  | nil => exact ⟨by simp [← hc], by simp, rfl⟩
  | cons e rest ih =>
    have ha := alone_of_nodup hn
    have hsst := expireEntry_sst today s e
    rw [List.length_cons] at hr
    rw [List.foldl_cons]
    cases hx : e.expires today s.sst.working.limits.expiry with
    | true =>
      obtain ⟨hcru, hjrn⟩ := expireEntry_expires hx hc ha (by omega)
      have hsub : (older ++ rest).Sublist (older ++ e :: rest) := (List.sublist_cons_self e rest).append_left older
      obtain ⟨h1, h2, h3⟩ := ih older (expireEntry today s e) (by rw [hcru]) ((hsub.map _).nodup hn)
        (by rw [hjrn]; show rest.length ≤ s.jrn.reservations - 1; omega)
      rw [hsst] at h1 h2 h3
      dsimp only
      have hgone : (e :: rest).filter (fun e => e.expires today s.sst.working.limits.expiry) =
          e :: rest.filter (fun e => e.expires today s.sst.working.limits.expiry) := List.filter_cons_of_pos hx
      have hkept : (e :: rest).filter (fun e => !e.expires today s.sst.working.limits.expiry) =
          rest.filter (fun e => !e.expires today s.sst.working.limits.expiry) := List.filter_cons_of_neg (by simp [hx])
      rw [hgone, hkept]
      refine ⟨by rw [h1, hcru], by rw [h2, hjrn]; simp [Jrn.append], ?_⟩
      rw [h3, hjrn, List.length_cons]
      show s.jrn.reservations - 1 - _ = _
      omega
    | false =>
      obtain ⟨hcru, hjrn⟩ := expireEntry_stays hx hc ha
      obtain ⟨h1, h2, h3⟩ := ih (older ++ [e.dated today]) (expireEntry today s e) (by rw [hcru]; simp)
        (by simpa [e.dated_serial today] using hn) (by rw [hjrn]; omega)
      rw [hsst] at h1 h2 h3
      dsimp only
      have hgone : (e :: rest).filter (fun e => e.expires today s.sst.working.limits.expiry) =
          rest.filter (fun e => e.expires today s.sst.working.limits.expiry) := List.filter_cons_of_neg (by simp [hx])
      have hkept : (e :: rest).filter (fun e => !e.expires today s.sst.working.limits.expiry) =
          e :: rest.filter (fun e => !e.expires today s.sst.working.limits.expiry) := List.filter_cons_of_pos (by simp [hx])
      rw [hgone, hkept]
      exact ⟨by rw [h1, hcru]; simp, by rw [h2, hjrn], by rw [h3, hjrn]⟩

theorem expiryCheck_made {s : State} {today : Nat} (hd : s.today = some today) (hf : s.RefundsFit)
    (hr : s.cru.refunds.length ≤ s.jrn.reservations) : ExpiryMade s (expiryCheck s) today := by
  unfold expiryCheck
  rw [hd]
  exact expireEntries_from today [] s.cru.refunds s rfl hf.2 hr

theorem ExpiryMade.of_same {s u t : State} {today : Nat} (h : ExpiryMade u t today) (hc : u.cru = s.cru) (hj : u.jrn = s.jrn)
    (hl : u.sst.working = s.sst.working) : ExpiryMade s t today := by
  unfold ExpiryMade at h ⊢
  rwa [hc, hj, hl] at h

/-! ## The second (R178) -/

theorem tick_eq (c : Clock) (hm : c.minute ≤ 1439) (hs : c.second ≤ 59) :
    let midnight := c.minute = 1439 ∧ c.second = 59
    c.tick.day = (if midnight then (if c.day < 65535 then c.day + 1 else 0) else c.day) ∧
    c.tick.rollover = (c.rollover || decide midnight) ∧
    c.tick.minute * 60 + c.tick.second = (c.minute * 60 + c.second + 1) % 86400 := by
  unfold Clock.tick
  dsimp only
  by_cases h1 : c.second < 59
  · rw [if_pos h1]
    have hno : ¬(c.minute = 1439 ∧ c.second = 59) := by omega
    simp only [hno, if_false, decide_false, Bool.or_false, true_and]
    omega
  · rw [if_neg h1]
    by_cases h2 : c.minute < 1439
    · rw [if_pos h2]
      have hno : ¬(c.minute = 1439 ∧ c.second = 59) := by omega
      simp only [hno, if_false, decide_false, Bool.or_false, true_and]
      omega
    · rw [if_neg h2]
      have hyes : c.minute = 1439 ∧ c.second = 59 := by omega
      simp only [hyes, and_self, if_true, decide_true, Bool.or_true, wrapInc]

theorem meterRuns_iff (s : State) (m : Addr) : s.meterRuns m = true ↔
    (s.record m).state = .running ∧ (s.record m).silent = false ∧ s.onHold m = false := by
  simp [State.meterRuns, and_assoc]

theorem secondElapses_record (m : Addr) (s : State) :
    (secondElapses s).record m = (s.record m).tick (s.meterRuns m) := PerMachine.at_mapWith _ _ m

theorem secondElapses_changes (s : State) : ChangesOnly [.msv, .fba, .pay, .sst] s (secondElapses s) := by
  intro p hp
  cases p <;> first | rfl | simp at hp

/-- R9 to R16: the timers of a session over one second. -/
theorem Session.tick_eq (z : Session) (x : MState) (b : Bool) (hb : b = true → x = .running) :
    (z.tick x b).startWindow = z.startWindow - (if x = .armed then 1 else 0) ∧
    (z.tick x b).startWait = z.startWait - (if x = .starting then 1 else 0) ∧
    (z.tick x b).guardTimer = z.guardTimer - (if b = true ∧ z.figures.kind = .washer then 1 else 0) ∧
    (z.tick x b).blockTimer = z.blockTimer - (if b = true ∧ z.figures.kind = .dryer then 1 else 0) ∧
    (z.tick x b).runClock =
      z.runClock + (z.guardTimer - (z.tick x b).guardTimer) + (z.blockTimer - (z.tick x b).blockTimer) ∧
    (z.tick x b).value = z.value ∧ (z.tick x b).consumed = z.consumed ∧ (z.tick x b).minutes = z.minutes := by
  cases b with
  | false => cases x <;> simp [Session.tick]
  | true =>
    rw [hb rfl]
    unfold Session.tick
    dsimp only
    cases hk : z.figures with
    | washer p d h =>
      by_cases h0 : 0 < z.guardTimer
      · simp [h0, Figures.kind]; omega
      · simp [h0, Figures.kind]; omega
    | dryer p a l h =>
      by_cases h0 : 0 < z.blockTimer
      · simp [h0, Figures.kind]; omega
      · simp [h0, Figures.kind]; omega

/-- Settles O14: the check by its fold through the table, the second by the clock's three cases and the session's timers. -/
theorem clockSetRolledAndMoved : Obligations.ClockSetRolledAndMoved := by
  refine ⟨⟨fun day minute s hs hf hr => ⟨_, rfl, ?_⟩, fun s c hrun hc hroll hf hr => ⟨rollDay s, ?_, ?_⟩, fun s hroll => ?_⟩,
    fun s hrun => ⟨secondElapses s, congrArg Host.Outcome.next (whenRunning_of_running hrun), secondElapses_changes s, rfl,
      fun c hc hm hs => ⟨c.tick, by simp [secondElapses, hc], tick_eq c hm hs⟩, rfl, fun st => by cases st <;> rfl, rfl,
      fun m => ?_⟩⟩
  · have hset : setClock day minute s = (.ok (clockBytes (some ⟨day.toNat, min 1439 minute.toNat, 0, false⟩)),
        expiryCheck (s.withSst { s.sst with clock := some ⟨day.toNat, min 1439 minute.toNat, 0, false⟩ })) := rfl
    rw [serve_of_serves hs, answerRequest_eq hset]
    have hmade := expiryCheck_made (s := s.withSst { s.sst with clock := some ⟨day.toNat, min 1439 minute.toNat, 0, false⟩ })
      rfl hf hr
    have hc := (withSst_changes { s.sst with clock := some ⟨day.toNat, min 1439 minute.toNat, 0, false⟩ } s).seq
      (expiryCheck_changes _) (rs := [.cru, .jrn, .evu, .sst])
    refine ⟨(expiryCheck_changes _).at .sst, ?_, holds_putReply (hc.at .hli) _, hc.seq (putReply_changes _ _ _)⟩
    exact hmade.of_same rfl rfl rfl
  · exact congrArg Host.Outcome.next (whenRunning_of_running hrun)
  · have hrolled : rollDay s = expiryCheck (s.withSst { s.sst with clock := some { c with rollover := false } }) := by
      simp [rollDay, hc, hroll]
    have hmade := expiryCheck_made (s := s.withSst { s.sst with clock := some { c with rollover := false } }) rfl hf hr
    rw [hrolled]
    exact ⟨(expiryCheck_changes _).at .sst, hmade.of_same rfl rfl rfl,
      (withSst_changes _ s).seq (expiryCheck_changes _) (rs := [.cru, .jrn, .evu, .sst])⟩
  · have hstands : rollDay s = s := by
      unfold rollDay
      split
      · rfl
      · next c hc => exact if_neg (by simpa [hc] using hroll)
    refine congrArg Host.Outcome.next ?_
    unfold whenRunning
    rw [hstands, ite_self]
  · rw [secondElapses_record]
    refine ⟨rfl, ?_, ?_, fun z hz => ⟨z.tick (s.record m).state (s.meterRuns m), by simp [MachineRecord.tick, hz], ?_⟩⟩
    · unfold MachineRecord.tick; dsimp only; split <;> rfl
    · unfold MachineRecord.tick
      dsimp only
      cases (s.record m).silent <;> cases (s.record m).session <;> rfl
    · have htick := z.tick_eq (s.record m).state (s.meterRuns m) fun h => ((meterRuns_iff s m).mp h).1
      simp only [meterRuns_iff] at htick
      exact htick

end Sys2Proof.Machine
end


section
/-! PROOF. A silence notice (R23, R35, R68). -/
namespace Sys2Proof.Machine

/-- R23: what a silence notice leaves in a record that hears it for the first time. -/
theorem sessionsSilent_takes {m : Addr} {s : State} (hx : (s.record m).state ≠ .recovering) (hs : (s.record m).silent = false) :
    let t := sessionsSilent m s
    (t.record m).silent = true ∧
    (t.record m).silenceTimer = (if (s.record m).session = none then 0 else 300) ∧
    (t.record m).session = (s.record m).session ∧
    (t.record m).state = (match (s.record m).state with
      | .idle | .done | .faulted => .offline
      | x => x) ∧
    t.evu = s.evu.set .nodeSilent := by
  have htimer : (if (s.record m).session.isSome = true then Config.silenceSeconds else 0) =
      if (s.record m).session = none then 0 else 300 := by
    cases (s.record m).session <;> rfl
  unfold sessionsSilent
  dsimp only
  rw [if_neg hx, hs, if_neg Bool.false_ne_true]
  generalize hu : mapRecord m (fun x =>
    { x with silent := true, silenceTimer := if x.session.isSome then Config.silenceSeconds else 0 })
    (setEvent .nodeSilent s) = u
  have hrec : u.record m = { s.record m with
      silent := true, silenceTimer := if (s.record m).session = none then 0 else 300 } := by
    rw [← htimer, ← hu, mapRecord, State.record_setRecord, if_pos rfl]; rfl
  have hevu : u.evu = s.evu.set .nodeSilent := by rw [← hu]; rfl
  have hoff : ((enterState m .offline u).record m).silent = true ∧
      ((enterState m .offline u).record m).silenceTimer = (if (s.record m).session = none then 0 else 300) ∧
      ((enterState m .offline u).record m).session = (s.record m).session ∧
      ((enterState m .offline u).record m).state = .offline ∧ (enterState m .offline u).evu = s.evu.set .nodeSilent := by
    rw [enterState_record, hrec]
    exact ⟨rfl, rfl, rfl, rfl, ((enterState_changes m .offline u).at .evu).trans hevu⟩
  cases hst : (s.record m).state
  case idle | done | faulted => exact hoff
  all_goals exact ⟨by rw [hrec], by rw [hrec], by rw [hrec], by rw [hrec]; exact hst, hevu⟩

/-- R68: a silence notice that FBA has not taken yet: the grant is held silent and the machine's entries go. -/
theorem feederSilent_holds {m : Addr} {s : State} (h : (s.grant m).heldSilent = false) :
    let t := feederSilent m s
    t.record m = s.record m ∧ t.node m = s.node m ∧
    t.grant m = { s.grant m with heldSilent := (s.grant m).granted.isSome, excessRun := 0 } ∧
    t.fba.hasStart m = false ∧ t.fba.hasRaise m = false := by
  have hw := withdrawn_review m (mapGrant m (fun e => { e with heldSilent := e.granted.isSome, excessRun := 0 }) s)
  have ht : feederSilent m s =
      review (removeEntries m (mapGrant m (fun e => { e with heldSilent := e.granted.isSome, excessRun := 0 }) s)) :=
    if_neg (by rw [h]; exact Bool.false_ne_true)
  dsimp only
  rw [ht]
  exact ⟨hw.record, hw.bus.node, hw.grant.trans (by simp [mapGrant]), hw.start, hw.raise⟩

theorem silenceNotice_changes (m : Addr) (s : State) : ChangesOnly [.msv, .mbc, .fba, .flm, .evu] s (silenceNotice m s) :=
  (mapNode_changes m _ s).seq ((sessionsSilent_changes m _).seq (feederSilent_changes m _) (rs := [.msv, .mbc, .fba, .flm, .evu]))

/-- Settles O41: MSV's part of the notice by the state of the record, and then FBA's. -/
theorem silenceNoticeHolds : Obligations.SilenceNoticeHolds := by
  intro m s hrun hknown hmissed hmark hsilent hrec hheld
  have hdue : s.silenceDue m = true := by
    have : Config.silentBeacons ≤ (s.node m).missed := hmissed
    simp [State.silenceDue, hknown, hmark, this]
  refine ⟨silenceNotice m s, congrArg Host.Outcome.next ((whenRunning_of_running hrun).trans (whenDue_of_due hdue)), ?_⟩
  have hnode : ((mapNode m (fun n => { n with silentMark := true }) s).node m).silentMark = true := by simp [mapNode]
  obtain ⟨h1, h2, h3, h4, h5⟩ := sessionsSilent_takes (m := m) (s := mapNode m (fun n => { n with silentMark := true }) s)
    hrec hsilent
  have hc := sessionsSilent_changes m (mapNode m (fun n => { n with silentMark := true }) s)
  obtain ⟨k1, k2, k3, k4, k5⟩ := feederSilent_holds (m := m)
    (s := sessionsSilent m (mapNode m (fun n => { n with silentMark := true }) s)) (by rw [hc.grant]; exact hheld)
  have hevu := (feederSilent_changes m (sessionsSilent m (mapNode m (fun n => { n with silentMark := true }) s))).at .evu
  have hgrant := hc.grant m
  refine ⟨?_, ?_, ?_, ?_, ?_, ?_, ?_, ?_, ?_, k4, k5, silenceNotice_changes m s⟩
  · exact (congrArg NodeEntry.silentMark (k2.trans (hc.node m))).trans hnode
  · exact (congrArg _ k1).trans h1
  · exact (congrArg _ k1).trans h2
  · exact (congrArg _ k1).trans h3
  · exact (congrArg _ k1).trans h4
  · exact hevu.trans h5
  · exact (congrArg _ k3).trans (congrArg (·.granted.isSome) hgrant)
  · exact (congrArg _ k3).trans (congrArg (·.granted) hgrant)
  · exact (congrArg _ k3).trans (congrArg (·.draw) hgrant)

end Sys2Proof.Machine
end


section
/-! PROOF. The credits of the refund table and REFUND GRANT (R119, R120, R127). -/
namespace Sys2Proof.Machine

/-! ## The journal of a credit -/

theorem wrote_one (j : Jrn) (st : Option Stamp) (b : RecordBody) (n : Nat) :
    j.wrote st [b] n = { j.append st b with reservations := j.reservations - n } := rfl

theorem wrote_two (j : Jrn) (st : Option Stamp) (b c : RecordBody) (n : Nat) :
    j.wrote st [b, c] n = { (j.append st b).append st c with reservations := j.reservations - n } := rfl

theorem creditBody_eq (k : CreditKind) (serial amount origin after lost : Nat) :
    { kind := k.record, machine := origin, serial := some serial, amount := some amount, balanceAfter := some after
      detail := k.detail lost } = creditBody k serial amount origin after lost := by
  cases k <;> rfl

/-- R119: the record of a credit is written against the first reservation, and its event is set. -/
theorem recordCredit_wrote {k : CreditKind} {serial amount origin after lost : Nat} {s : State} (h : s.jrn.reservations ≠ 0) :
    let t := recordCredit k serial amount origin after lost s
    t.cru = s.cru ∧ t.jrn = s.jrn.wrote s.stamp [creditBody k serial amount origin after lost] 1 ∧
    t.evu.isSet .refundCredited = true := by
  have hjrn := writeMoney_jrn (creditBody k serial amount origin after lost) s h
  dsimp only
  unfold recordCredit
  rw [creditBody_eq, setEvent_isSet]
  exact ⟨(writeMoney_changes _ s).at .cru, hjrn, rfl⟩

section
variable {k : CreditKind} {serial amount origin : Nat} {s : State} {older newer : List RefundEntry} {e : RefundEntry}

/-- R119 step 1: the amount joins the serial's entry, and the second reservation is returned. -/
theorem creditSerial_joins (hr : 2 ≤ s.jrn.reservations) (hc : s.cru.refunds = older ++ e :: newer) (hser : e.serial = serial)
    (ha : Alone e.serial older newer) :
    let t := creditSerial k serial amount origin s
    let after := min (e.amount + amount) 99999
    t.cru = { s.cru with refunds := older ++ { e with amount := after, origin := origin } :: newer } ∧
    t.jrn = s.jrn.wrote s.stamp [creditBody k serial amount origin after (e.amount + amount - after)] 2 ∧
    t.evu.isSet .refundCredited = true := by
  subst hser
  unfold creditSerial
  rw [refund_alone hc ha]
  dsimp only
  unfold creditExisting
  dsimp only
  obtain ⟨h1, h2, h3⟩ := recordCredit_wrote (k := k) (serial := e.serial) (amount := amount) (origin := origin)
    (after := min (e.amount + amount) Config.maxBalance) (lost := e.amount + amount - min (e.amount + amount) Config.maxBalance)
    (s := mapRefund e.serial (fun x => { x with amount := min (e.amount + amount) Config.maxBalance, origin := origin }) s)
    (by show s.jrn.reservations ≠ 0; omega)
  refine ⟨((returnSlots_changes 1 _).at .cru).trans (h1.trans ?_), ?_, ?_⟩
  · simp only [mapRefund, State.withCru_cru, hc, map_alone ha]
    rfl
  · rw [returnSlots_jrn, h2]
    show ({ s.jrn.append s.stamp _ with reservations := s.jrn.reservations - 1 - 1 } : Jrn) = _
    rw [Nat.sub_sub]
    rfl
  · rw [(returnSlots_setsAmong 1 _).flag .refundCredited, h3]

/-- R119 step 2: a new entry at the newest end keeps the second reservation. -/
theorem creditSerial_opens (hr : 1 ≤ s.jrn.reservations) (hn : ∀ x ∈ s.cru.refunds, x.serial ≠ serial)
    (hl : s.cru.refunds.length < 32) :
    let t := creditSerial k serial amount origin s
    let after := min amount 99999
    t.cru = { s.cru with refunds := s.cru.refunds ++ [⟨serial, after, s.today, false, none, origin⟩] } ∧
    t.jrn = s.jrn.wrote s.stamp [creditBody k serial amount origin after (amount - after)] 1 ∧
    t.evu.isSet .refundCredited = true := by
  unfold creditSerial
  rw [Cru.refund_eq_none.mpr hn]
  dsimp only
  unfold creditNew
  dsimp only
  rw [if_neg (by show ¬32 ≤ s.cru.refunds.length; omega)]
  exact recordCredit_wrote (s := s.withCru _) (by show s.jrn.reservations ≠ 0; omega)

/-- R120: in a full table the oldest entry without pledge or hold leaves, with its record against its own reservation. -/
theorem evictRefund_evicts (hr : 1 ≤ s.jrn.reservations) (hc : s.cru.refunds = older ++ e :: newer) (ha : Alone e.serial older newer)
    (hold : ∀ x ∈ older, x.pledged = true ∨ x.hold ≠ none) (hp : e.pledged = false) (hh : e.hold = none) :
    (evictRefund s).cru = { s.cru with refunds := older ++ newer } ∧
    (evictRefund s).jrn = s.jrn.wrote s.stamp
      [{ kind := .refundExpired, machine := e.origin, serial := some e.serial, amount := some e.amount, detail := .evicted }] 1 := by
  have hfind : s.cru.refunds.find? RefundEntry.evictable = some e := by
    rw [hc, List.find?_append, List.find?_eq_none.mpr fun x hx => ?_, List.find?_cons_of_pos (by simp [RefundEntry.evictable, hp, hh]),
      Option.none_or]
    rcases hold x hx with h | h
    · simp [RefundEntry.evictable, h]
    · simpa [RefundEntry.evictable] using fun _ => h
  unfold evictRefund
  rw [hfind, Option.some_or]
  refine ⟨?_, writeMoney_jrn _ s (by omega)⟩
  simp only [removeRefund, State.withCru_cru, writeMoney_cru, hc, filter_alone ha]

/-- R119 step 3, R120: a new entry in a full table. -/
theorem creditSerial_evicts (hr : 2 ≤ s.jrn.reservations) (hn : ∀ x ∈ s.cru.refunds, x.serial ≠ serial)
    (hl : 32 ≤ s.cru.refunds.length) (hc : s.cru.refunds = older ++ e :: newer) (ha : Alone e.serial older newer)
    (hold : ∀ x ∈ older, x.pledged = true ∨ x.hold ≠ none) (hp : e.pledged = false) (hh : e.hold = none) :
    let t := creditSerial k serial amount origin s
    let after := min amount 99999
    t.cru = { s.cru with refunds := older ++ newer ++ [⟨serial, after, s.today, false, none, origin⟩] } ∧
    t.jrn = s.jrn.wrote s.stamp
      [{ kind := .refundExpired, machine := e.origin, serial := some e.serial, amount := some e.amount, detail := .evicted },
        creditBody k serial amount origin after (amount - after)] 2 ∧
    t.evu.isSet .refundCredited = true := by
  obtain ⟨hcru, hjrn⟩ := evictRefund_evicts (by omega) hc ha hold hp hh
  have hstamp : (evictRefund s).stamp = s.stamp := (evictRefund_changes s).stamp
  unfold creditSerial
  rw [Cru.refund_eq_none.mpr hn]
  dsimp only
  unfold creditNew
  dsimp only
  rw [if_pos (show Config.refundEntries ≤ s.cru.refunds.length from hl)]
  generalize evictRefund s = u at hcru hjrn hstamp
  obtain ⟨h1, h2, h3⟩ := recordCredit_wrote (k := k) (serial := serial) (amount := amount) (origin := origin)
    (after := min amount Config.maxBalance) (lost := amount - min amount Config.maxBalance)
    (s := u.withCru { u.cru with
      refunds := u.cru.refunds ++ [⟨serial, min amount Config.maxBalance, s.today, false, none, origin⟩] })
    (by show u.jrn.reservations ≠ 0; rw [hjrn]; show s.jrn.reservations - 1 ≠ 0; omega)
  refine ⟨h1.trans ?_, h2.trans ?_, h3⟩
  · simp only [State.withCru_cru, hcru]; rfl
  · show u.jrn.wrote u.stamp _ 1 = _
    rw [hjrn, hstamp, wrote_one, wrote_one, wrote_two]
    show ({ (s.jrn.append s.stamp _).append s.stamp _ with reservations := s.jrn.reservations - 1 - 1 } : Jrn) = _
    rw [Nat.sub_sub]
    rfl

/-- R119: every credit sets its event. -/
theorem creditSerial_event :
    (creditSerial k serial amount origin s).evu.isSet .refundCredited = true := by
  have hrec : ∀ a b c u, (recordCredit k a amount origin b c u).evu.isSet .refundCredited = true := fun a b c u => by
    unfold recordCredit; rw [setEvent_isSet]; rfl
  unfold creditSerial
  split
  · exact ((returnSlots_setsAmong 1 _).flag .refundCredited).trans (hrec _ _ _ _)
  · exact hrec _ _ _ _

end

/-! ## REFUND GRANT (R127) -/

theorem reserveSlots_of_free {n : Nat} {s : State} (h : n ≤ s.jrn.free) :
    reserveSlots n s = some (withJournal { s.jrn with reservations := s.jrn.reservations + n } s) :=
  if_neg (by omega)

theorem reserveSlots_of_full {n : Nat} {s : State} (h : s.jrn.free < n) : reserveSlots n s = none := if_pos h

theorem refundGrant_badArg {k : Serial32} {amount : Word16} (h : k = 0#32 ∨ amount = 0#16 ∨ 9999 < amount.toNat) (s : State) :
    refundGrant k amount s = (.badArg [], s) := if_pos h

section
variable {k : Serial32} {amount : Word16} {s : State}

theorem refundGrant_listed (h0 : k ≠ 0#32) (h1 : amount ≠ 0#16) (h2 : amount.toNat ≤ 9999) :
    ¬(k = 0#32 ∨ amount = 0#16 ∨ Config.maxGrant < amount.toNat) := by
  rintro (h | h | h)
  · exact h0 h
  · exact h1 h
  · exact absurd (show 9999 < amount.toNat from h) (by omega)

theorem refundGrant_busy (h0 : k ≠ 0#32) (h1 : amount ≠ 0#16) (h2 : amount.toNat ≤ 9999) (hf : s.jrn.free < 2) :
    refundGrant k amount s = (.busy [], s) := by
  unfold refundGrant
  rw [if_neg (refundGrant_listed h0 h1 h2), reserveSlots_of_full (show s.jrn.free < Config.grantReservations from hf)]

/-- R127: the state with the grant's two reservations taken. -/
def State.granting (s : State) : State := withJournal { s.jrn with reservations := s.jrn.reservations + 2 } s

theorem refundGrant_grants (h0 : k ≠ 0#32) (h1 : amount ≠ 0#16) (h2 : amount.toNat ≤ 9999) (hf : 2 ≤ s.jrn.free) :
    let t := creditSerial .grant k.toNat amount.toNat 0 s.granting
    refundGrant k amount s = (.ok (nat24 (t.cru.owed k.toNat)), t) := by
  unfold refundGrant
  rw [if_neg (refundGrant_listed h0 h1 h2), reserveSlots_of_free (show Config.grantReservations ≤ s.jrn.free from hf)]
  rfl

theorem granting_changes (s : State) : ChangesOnly [.jrn, .evu] s s.granting := withJournal_changes _ s

theorem granting_jrn (s : State) : s.granting.jrn = { s.jrn with reservations := s.jrn.reservations + 2 } := withJournal_jrn _ s

theorem owed_alone {c : Cru} {older newer : List RefundEntry} {e : RefundEntry} (hc : c.refunds = older ++ e :: newer)
    (ha : Alone e.serial older newer) : c.owed e.serial = e.amount := by
  rw [Cru.owed, refund_alone hc ha]; rfl

/-- R127: a grant to a serial that has an entry. -/
theorem grant_joins {older newer : List RefundEntry} {e : RefundEntry} (hc : s.cru.refunds = older ++ e :: newer)
    (hser : e.serial = k.toNat) (ha : Alone e.serial older newer) :
    let t := creditSerial .grant k.toNat amount.toNat 0 s.granting
    let after := min (e.amount + amount.toNat) 99999
    t.cru = { s.cru with refunds := older ++ { e with amount := after, origin := 0 } :: newer } ∧
    t.jrn.reservations = s.jrn.reservations ∧ t.jrn.records.length = s.jrn.records.length + 1 ∧
    t.cru.owed k.toNat = after := by
  have hcru : s.granting.cru = s.cru := (granting_changes s).at .cru
  have hjrn := granting_jrn s
  obtain ⟨g1, g2, -⟩ := creditSerial_joins (k := .grant) (amount := amount.toNat) (origin := 0) (s := s.granting)
    (by rw [hjrn]; show 2 ≤ s.jrn.reservations + 2; omega) (hcru ▸ hc) hser ha
  rw [hcru] at g1
  refine ⟨g1, by rw [g2, hjrn]; rfl, by rw [g2, hjrn, wrote_one]; simp [Jrn.append], ?_⟩
  rw [g1, ← hser]
  exact owed_alone (e := { e with amount := min (e.amount + amount.toNat) 99999, origin := 0 }) rfl ha

/-- R127: a grant to a serial without an entry, in a table that is not full. -/
theorem grant_opens (hn : ∀ x ∈ s.cru.refunds, x.serial ≠ k.toNat) (hl : s.cru.refunds.length < 32) (ha : amount.toNat ≤ 9999) :
    let t := creditSerial .grant k.toNat amount.toNat 0 s.granting
    t.cru = { s.cru with refunds := s.cru.refunds ++ [⟨k.toNat, amount.toNat, s.today, false, none, 0⟩] } ∧
    t.jrn.reservations = s.jrn.reservations + 1 ∧
    t.jrn.records = s.jrn.records ++ [⟨s.jrn.sequence, s.stamp,
      { kind := .refundGranted, machine := 0, serial := some k.toNat, amount := some amount.toNat
        balanceAfter := some amount.toNat }⟩] ∧
    t.cru.owed k.toNat = amount.toNat := by
  have hcru : s.granting.cru = s.cru := (granting_changes s).at .cru
  have hjrn := granting_jrn s
  have hmin : min amount.toNat 99999 = amount.toNat := by omega
  have hday : s.granting.today = s.today := by
    unfold State.today; rw [(granting_changes s).at .sst]
  obtain ⟨g1, g2, -⟩ := creditSerial_opens (k := .grant) (serial := k.toNat) (amount := amount.toNat) (origin := 0)
    (s := s.granting) (by rw [hjrn]; show 1 ≤ s.jrn.reservations + 2; omega) (by rw [hcru]; exact hn) (by rw [hcru]; exact hl)
  rw [hcru, hmin, hday] at g1
  rw [hmin, (granting_changes s).stamp, hjrn, wrote_one, Nat.sub_self] at g2
  refine ⟨g1, by rw [g2]; rfl, by rw [g2]; rfl, ?_⟩
  rw [g1]
  exact owed_alone (e := ⟨k.toNat, amount.toNat, s.today, false, none, 0⟩) (newer := []) rfl (by simpa [Alone] using hn)

end

/-- Settles O23: every credit by the place of its serial in the table, and the grant as one with its own two reservations. -/
theorem refundGrantCredits : Obligations.RefundGrantCredits := by
  refine ⟨fun k amount s hs => ⟨_, rfl, ?_⟩, fun k serial amount origin s hpos hr => ⟨?_, ?_, creditSerial_event,
    creditSerial_changes _ _ _ _ s, fun m => ⟨rfl, returnSlots_jrn 2 s, if_pos hpos⟩⟩⟩
  · rw [serve_of_serves hs]
    refine ⟨fun h => onlyReplies_answer (refundGrant_badArg h s), fun h0 h1 h2 =>
      ⟨fun hf => onlyReplies_answer (refundGrant_busy h0 h1 h2 hf), fun hf => ?_⟩⟩
    have hg := refundGrant_grants h0 h1 h2 hf
    have hc := (granting_changes s).seq (creditSerial_changes .grant k.toNat amount.toNat 0 s.granting)
      (rs := [.cru, .jrn, .evu])
    rw [answerRequest_eq hg]
    refine ⟨creditSerial_event, hc.seq (putReply_changes _ _ _), fun older e newer ht hser ha => ?_, fun hn hl => ?_⟩
    · obtain ⟨g1, g2, g3, g4⟩ := grant_joins (amount := amount) ht hser (hser ▸ ha)
      rw [g4]
      exact ⟨g1, g2, g3, holds_putReply (hc.at .hli) _⟩
    · obtain ⟨g1, g2, g3, g4⟩ := grant_opens hn hl h2
      rw [g4]
      exact ⟨g1, g2, g3, holds_putReply (hc.at .hli) _⟩
  · intro older e newer hc hser ha
    obtain ⟨g1, g2, -⟩ := creditSerial_joins (k := k) (amount := amount) (origin := origin) hr hc hser (hser ▸ ha)
    exact ⟨g1, g2⟩
  · refine fun hn => ⟨fun hl => ?_, fun older e newer hl hc ha hold hp hh => ?_⟩
    · obtain ⟨g1, g2, -⟩ := creditSerial_opens (k := k) (amount := amount) (origin := origin) (s := s) (by omega) hn hl
      exact ⟨g1, g2⟩
    · obtain ⟨g1, g2, -⟩ := creditSerial_evicts (k := k) (amount := amount) (origin := origin) hr hn hl hc ha hold hp hh
      exact ⟨g1, g2⟩

end Sys2Proof.Machine
end


section
/-! PROOF. The pay stations: discarded and late messages, FAILED, and the checks of a PURCHASE (R75 to R86, R92, R93). -/
namespace Sys2Proof.Machine

/-! ## One exchange changed -/

theorem setExchange_halted (s : State) (st : Station) (x : Exchange) : (s.setExchange st x).pay.halted = s.pay.halted := by
  cases st <;> rfl

theorem setExchange_self (s : State) (st : Station) (x : Exchange) : (s.setExchange st x).exchange st = x := by
  rw [State.exchange_setExchange, if_pos rfl]

theorem setExchange_other (s : State) (st : Station) (x : Exchange) :
    (s.setExchange st x).exchange (otherStation st) = s.exchange (otherStation st) := by
  cases st <;> rfl

theorem idleExchange_self (st : Station) (s : State) : (idleExchange st s).exchange st = { s.exchange st with order := none } :=
  setExchange_self s st _

/-- The exchanges of a state whose PAY is another's. -/
theorem Part.exchanges {s t : State} (h : t.pay = s.pay) :
    (∀ st, t.exchange st = s.exchange st) ∧ t.pay.halted = s.pay.halted :=
  ⟨exchange_of_pay h, by rw [h]⟩

theorem lineShows_sendStation (st : Station) (msg : StationMsg) (s : State) : LineShows (sendStation st msg s) st msg := by
  cases st <;> rfl

/-- R76: the balance that a DECLINE shows. -/
theorem lineShows_sendDecline (st : Station) (why : DeclineReason) (b : Nat) (s : State) :
    LineShows (sendDecline st why b s) st (.decline why (if 99999 < b then 0 else b)) := lineShows_sendStation st _ s

/-! ## FAILED, late and discarded messages (O31) -/

/-- R8, R23: a machine freed of its exchange. -/
theorem freeMachine_freed (m : Addr) (s : State) : Freed s (freeMachine m s) m := by
  have hrec : (mapRecord m (fun x => { x with reserving := none, lockoutPending := false }) s).record m =
      { s.record m with reserving := none, lockoutPending := false } := by simp [mapRecord]
  unfold freeMachine
  cases hp : (s.record m).lockoutPending with
  | true =>
    rw [if_pos rfl]
    refine ⟨?_, fun k hk => ?_⟩
    · rw [enterState_record, hrec, if_pos hp]; rfl
    · rw [enterState_record_ne hk]; simp [mapRecord, Ne.symm hk]
  | false =>
    rw [if_neg Bool.false_ne_true]
    refine ⟨?_, fun k hk => ?_⟩
    · rw [enterState_record, hrec, landing_idle, hp]
      cases (s.record m).silent <;> rfl
    · rw [enterState_record_ne hk]; simp [mapRecord, Ne.symm hk]

theorem releaseReserved_freed {o : Order} {s : State} (hn : o.ptype = .new) (hr : (s.record o.machine).state = .reserved) :
    Freed s (releaseReserved o s) o.machine := by
  unfold releaseReserved
  rw [hn]
  dsimp only
  rw [if_pos hr]
  exact freeMachine_freed o.machine s

theorem releaseReserved_msv {o : Order} {s : State} (h : o.ptype ≠ .new ∨ (s.record o.machine).state ≠ .reserved) :
    (releaseReserved o s).msv = s.msv := by
  unfold releaseReserved
  split
  · next hp => exact (congrArg State.msv (if_neg (h.resolve_left fun hne => hne hp)))
  · rfl
  · rfl

theorem Freed.of_msv {s s' t t' : State} {m : Addr} (h : Freed s t m) (hs : s.msv = s'.msv) (ht : t.msv = t'.msv) :
    Freed s' t' m := by
  unfold Freed State.record at h ⊢
  rwa [← hs, ← ht]

theorem endFailed_jrn (st : Station) (o : Order) (s : State) :
    (endFailed st o s).jrn = { s.jrn with reservations := s.jrn.reservations - 3 } := by
  unfold endFailed
  dsimp only
  rw [(idleExchange_changes st _).at .jrn, (releaseReserved_changes o _).at .jrn, (mapRefund_changes _ _ _).at .jrn]
  exact returnSlots_jrn 3 s

theorem endFailed_cru (st : Station) (o : Order) (s : State) :
    (endFailed st o s).cru = { s.cru with refunds := s.cru.refunds.map fun e =>
      if e.serial = o.serial ∧ e.hold = some st then { e with hold := none } else e } := by
  unfold endFailed
  dsimp only
  rw [(idleExchange_changes st _).at .cru, (releaseReserved_changes o _).at .cru]
  unfold mapRefund
  rw [State.withCru_cru, returnSlots_cru]
  refine congrArg (fun l => ({ s.cru with refunds := l } : Cru)) (List.map_congr_left fun e _ => ?_)
  dsimp only
  by_cases hser : e.serial = o.serial
  · by_cases hh : e.hold = some st <;> simp [hser, hh]
  · simp [hser]

theorem endFailed_exchange (st : Station) (o : Order) (s : State) :
    (endFailed st o s).exchange st = { s.exchange st with order := none } := by
  unfold endFailed
  dsimp only
  rw [idleExchange_self]
  have hc := ((returnSlots_changes Config.exchangeReservations s).seq (mapRefund_changes o.serial
    (fun e => if e.hold = some st then { e with hold := none } else e) _) (rs := [.cru, .jrn, .evu])).seq
    (releaseReserved_changes o _) (rs := [.msv, .cru, .flm, .jrn, .evu])
  rw [exchange_of_pay (hc.at .pay)]

theorem endFailed_freed {st : Station} {o : Order} {s : State} (hn : o.ptype = .new)
    (hr : (s.record o.machine).state = .reserved) : Freed s (endFailed st o s) o.machine := by
  unfold endFailed
  dsimp only
  have hc := (returnSlots_changes Config.exchangeReservations s).seq (mapRefund_changes o.serial
    (fun e => if e.hold = some st then { e with hold := none } else e) _) (rs := [.cru, .jrn, .evu])
  refine (releaseReserved_freed hn ?_).of_msv (hc.at .msv) ((idleExchange_changes st _).at .msv).symm
  rw [hc.record]
  exact hr

theorem endFailed_msv {st : Station} {o : Order} {s : State} (hn : o.ptype ≠ .new) : (endFailed st o s).msv = s.msv := by
  unfold endFailed
  dsimp only
  rw [(idleExchange_changes st _).at .msv, releaseReserved_msv (.inl hn), (mapRefund_changes _ _ _).at .msv]
  exact (returnSlots_changes _ s).at .msv

section
variable {st : Station} {msg : ResultMsg} {s : State}

theorem exec_result (hrun : s.phase = .running) (hl : msg.codesListed = true) :
    exec (.result st msg) s = .next (takeResult st msg s) :=
  congrArg Host.Outcome.next ((whenRunning_of_running hrun).trans (if_pos hl))

/-- R86: a RESULT at an IDLE exchange, or with another order number, is late. -/
theorem takeResult_late (h : ∀ o, (s.exchange st).order = some o → o.number ≠ msg.order.toNat) :
    takeResult st msg s = s.setExchange st { s.exchange st with lates := min 65535 ((s.exchange st).lates + 1) } := by
  unfold takeResult
  dsimp only
  rw [← satInc_eq_min]
  split
  · rfl
  · next o ho => exact if_pos (h o ho)

theorem takeResult_failed {o : Order} (ho : (s.exchange st).order = some o) (hn : msg.order.toNat = o.number)
    (hout : msg.outcome = 2#8) : takeResult st msg s = endFailed st o s := by
  have hcode : msg.outcome.toNat = 2 := by rw [hout]; rfl
  unfold takeResult
  dsimp only
  rw [ho]
  dsimp only
  rw [if_neg (by rw [hn]; exact fun h => h rfl), hcode]
  cases msg.counter <;> rfl

end

theorem exec_discarded {st : Station} {c : Instr} {s : State} (hrun : s.phase = .running)
    (hc : c = .stationMessageDiscarded st ∨ (∃ msg, c = .purchase st msg ∧ msg.codesListed = false) ∨
      (∃ msg, c = .result st msg ∧ msg.codesListed = false)) : exec c s = .next (discardMessage st s) := by
  rcases hc with rfl | ⟨msg, rfl, hl⟩ | ⟨msg, rfl, hl⟩
  · exact congrArg Host.Outcome.next (whenRunning_of_running hrun)
  · exact congrArg Host.Outcome.next ((whenRunning_of_running hrun).trans (if_neg (by rw [hl]; exact Bool.false_ne_true)))
  · exact congrArg Host.Outcome.next ((whenRunning_of_running hrun).trans (if_neg (by rw [hl]; exact Bool.false_ne_true)))

/-- Settles O31: FAILED part by part, and the two counts as one exchange changed. -/
theorem resultFailedOrLate : Obligations.ResultFailedOrLate := by
  refine ⟨fun st msg o s hrun ho hn hout hcnt => ⟨endFailed st o s, ?_, endFailed_jrn st o s, endFailed_cru st o s,
      endFailed_exchange st o s, endFailed_freed, endFailed_msv, (endFailed_changes st o s)⟩,
    fun st msg s hrun hl h => ⟨_, exec_result hrun hl, ?_⟩, fun st s => rfl, fun st c s hrun hc => ⟨_, exec_discarded hrun hc, ?_⟩⟩
  · have hl : msg.codesListed = true := by unfold ResultMsg.codesListed; rw [hout, hcnt]; rfl
    rw [exec_result hrun hl, takeResult_failed ho hn hout]
  · rw [takeResult_late h]
    exact ⟨setExchange_self s st _, setExchange_other s st _, setExchange_halted s st _, setExchange_changes st _ s⟩
  · unfold discardMessage
    dsimp only
    rw [satInc_eq_min]
    exact ⟨setExchange_self s st _, setExchange_other s st _, setExchange_halted s st _, setExchange_changes st _ s⟩

end Sys2Proof.Machine
end


section
/-! PROOF. The checks of a PURCHASE, one by one (R79 to R84), and the PURCHASE that they turn away. -/
namespace Sys2Proof.Machine

variable {st : Station} {msg : PurchaseMsg} {s : State} {m : Addr}

/-! ## The machine named, and the class of the request (R79) -/

theorem addrNumber_of_machineOf {n : Nat} (h : machineOf n = some m) : addrNumber m = n := by
  unfold machineOf at h
  split at h
  · next hn =>
    cases h
    show n - 1 + 1 = n
    omega
  · contradiction

theorem topupRequest_iff : (s.topupSession (machineOf msg.machine.toNat)).isSome = true ↔ TopupRequest msg s := by
  unfold State.topupSession TopupRequest
  constructor
  · intro h
    cases hm : machineOf msg.machine.toNat with
    | none => rw [hm] at h; contradiction
    | some a =>
      rw [hm] at h
      exact ⟨a, addrNumber_of_machineOf hm, Option.isSome_iff_ne_none.mp h⟩
  · rintro ⟨a, ha, hs⟩
    rw [machineOf_eq_some ha]
    exact Option.isSome_iff_ne_none.mpr hs

theorem topupSession_of (hm : addrNumber m = msg.machine.toNat) :
    s.topupSession (machineOf msg.machine.toNat) = (s.record m).session := by
  rw [machineOf_eq_some hm]; rfl

/-! ## Checks 1 to 4 (R80) -/

/-- The class of the request as the checks take it. -/
abbrev State.asksTopup (s : State) (msg : PurchaseMsg) : Bool := (s.topupSession (machineOf msg.machine.toNat)).isSome

theorem asksTopup_of_room (h : s.sst.roomMode = .opened ∨ (s.sst.roomMode = .quiet ∧ TopupRequest msg s)) :
    s.sst.roomMode ≠ .closed ∧ (s.sst.roomMode = .quiet → s.asksTopup msg = true) := by
  refine ⟨fun hc => ?_, fun hq => ?_⟩
  · rcases h with h | ⟨h, -⟩ <;> rw [hc] at h <;> contradiction
  · rcases h with h | ⟨-, h⟩
    · rw [hq] at h; contradiction
    · exact topupRequest_iff.mpr h

theorem reachesPayment_of (h : RoomTakes msg s) : reachesPayment (s.asksTopup msg) s = true := by
  obtain ⟨hclosed, hquiet⟩ := asksTopup_of_room h.mode
  unfold reachesPayment
  by_cases hq : s.sst.roomMode = .quiet
  · simp [h.scan, hq, hquiet hq]
  · simp [h.scan, hclosed, hq]

/-- Checks 1 and 2 look at what the verification of the prices leaves. -/
theorem roomChecks_of {u : State} (h : RoomTakes msg s) (hm : u.mbc = s.mbc) (hs : u.sst = s.sst) :
    roomChecks (s.asksTopup msg) u =
      if u.pay.halted then some .payHalted
      else if u.jrn.free < Config.exchangeReservations then some .journalFull else none := by
  obtain ⟨hclosed, hquiet⟩ := asksTopup_of_room h.mode
  unfold roomChecks
  rw [hm, hs, h.scan, if_neg (by simp), if_neg hclosed, if_neg]
  by_cases hq : s.sst.roomMode = .quiet
  · simp [hquiet hq]
  · simp [hq]

theorem verifyPrices_of_match (h : s.sst.priceMismatch = false) : verifyPrices s = s :=
  if_neg (by rw [h]; exact Bool.false_ne_true)

/-- R79: a state whose prices need no verification, or pass it, is the one that the checks find. -/
theorem unverified (h : reachesPayment (s.asksTopup msg) s = true → s.sst.priceMismatch = false) :
    (if reachesPayment (s.asksTopup msg) s then verifyPrices s else s) = s := by
  split
  · next hr => exact verifyPrices_of_match (h hr)
  · rfl

theorem evaluatePurchase_room {why : DeclineReason}
    (h : reachesPayment (s.asksTopup msg) s = true → s.sst.priceMismatch = false)
    (hroom : roomChecks (s.asksTopup msg) s = some why) :
    evaluatePurchase st msg s = sendDecline st why msg.balance.toNat s := by
  unfold evaluatePurchase
  dsimp only
  rw [unverified h, hroom]

theorem roomChecks_passes (h : PaymentTakes msg s) : roomChecks (s.asksTopup msg) s = none := by
  rw [roomChecks_of h.room rfl rfl, h.payment, if_neg Bool.false_ne_true]
  exact if_neg (Nat.not_lt.mpr h.journal)

theorem evaluatePurchase_card {why : DeclineReason} (hp : PaymentTakes msg s)
    (hcard : cardChecks st msg s = some why) :
    evaluatePurchase st msg s = sendDecline st why msg.balance.toNat s := by
  unfold evaluatePurchase
  dsimp only
  rw [unverified fun _ => hp.prices, roomChecks_passes hp, hcard]

theorem evaluatePurchase_buys (hp : PaymentTakes msg s) (hcard : cardChecks st msg s = none) :
    evaluatePurchase st msg s =
      buyFrom st msg (resolveCard msg.serial.toNat msg.balance.toNat msg.counter.toNat s).1
        (resolveCard msg.serial.toNat msg.balance.toNat msg.counter.toNat s).2 := by
  unfold evaluatePurchase
  dsimp only
  rw [unverified fun _ => hp.prices, roomChecks_passes hp, hcard]

/-- R179, check 3: a mismatch of the lock code halts payment. -/
theorem evaluatePurchase_mismatch (hr : RoomTakes msg s) (hm : s.sst.priceMismatch = true) :
    evaluatePurchase st msg s = sendDecline st .payHalted msg.balance.toNat
      (setEventIf (!s.pay.halted) .payHalted (s.withPay { s.pay with halted := true })) := by
  have hv : verifyPrices s = setEventIf (!s.pay.halted) .payHalted (s.withPay { s.pay with halted := true }) := if_pos hm
  have hc := (withPay_changes { s.pay with halted := true } s).seq (setEventIf_changes (!s.pay.halted) .payHalted _)
    (rs := [.pay, .evu])
  have hhalt : (setEventIf (!s.pay.halted) .payHalted (s.withPay { s.pay with halted := true })).pay.halted = true := by
    rw [(setEventIf_changes _ _ _).at .pay]; rfl
  unfold evaluatePurchase
  dsimp only
  rw [if_pos (reachesPayment_of hr), hv, roomChecks_of hr (hc.at .mbc) (hc.at .sst), hhalt, if_pos rfl]

/-! ## Checks 5 to 7 (R81) -/

theorem cardValid_iff : CardValid msg s ↔
    ¬(msg.serial.toNat = 0 ∨ msg.issuer.toNat ≠ s.sst.working.limits.issuer ∨ Config.maxBalance < msg.balance.toNat) := by
  have hmax : Config.maxBalance = 99999 := rfl
  have hser : msg.serial = 0#32 ↔ msg.serial.toNat = 0 :=
    ⟨fun h => by rw [h]; rfl, fun h => BitVec.eq_of_toNat_eq (by simpa using h)⟩
  unfold CardValid
  rw [hmax, not_or, not_or, not_not, Nat.not_lt, Ne, hser]

theorem holdsCard_iff {serial : Nat} {x : Exchange} :
    x.holdsCard serial = true ↔ ∃ o, x.order = some o ∧ o.serial = serial := by
  unfold Exchange.holdsCard
  cases x.order <;> simp

theorem cardFree_iff : CardFree st msg s ↔ (s.exchange (otherStation st)).holdsCard msg.serial.toNat = false := by
  rw [← Bool.not_eq_true, holdsCard_iff]
  unfold CardFree
  simp

theorem cardChecks_invalid (h : ¬CardValid msg s) : cardChecks st msg s = some .cardInvalid :=
  if_pos (by simpa only [cardValid_iff, not_not] using h)

theorem cardChecks_exhausted (h : CardValid msg s) (hx : msg.counter.toNat = 65535) :
    cardChecks st msg s = some .cardExhausted := by
  unfold cardChecks
  rw [if_neg (cardValid_iff.mp h), if_pos (show msg.counter.toNat = Config.exhaustedCounter from hx)]

theorem cardChecks_busy (h : CardValid msg s) (hx : msg.counter.toNat ≠ 65535) (hf : ¬CardFree st msg s) :
    cardChecks st msg s = some .cardBusy := by
  unfold cardChecks
  rw [if_neg (cardValid_iff.mp h), if_neg (show msg.counter.toNat ≠ Config.exhaustedCounter from hx),
    if_pos (by simpa [cardFree_iff] using hf)]

theorem cardChecks_screened (h : CardValid msg s) (hx : msg.counter.toNat ≠ 65535) (hf : CardFree st msg s) :
    cardChecks st msg s = if !s.sst.working.screen.passes msg.serial.toNat then some .cardDenied else none := by
  unfold cardChecks
  rw [if_neg (cardValid_iff.mp h), if_neg (show msg.counter.toNat ≠ Config.exhaustedCounter from hx),
    if_neg (by rw [cardFree_iff.mp hf]; exact Bool.false_ne_true)]

theorem cardChecks_passes (h : CardTakes st msg s) : cardChecks st msg s = none := by
  rw [cardChecks_screened h.valid h.counter h.free, h.screen]; rfl

/-! ## Check 8 (R82) -/

/-- R82: the three ways in which a card's pending debit is found, or none is, resolve it as the model does. -/
theorem resolveCard_of {res : Option Resolution} {x c : Nat} (h : Resolves msg s res x c) :
    resolveCard msg.serial.toNat msg.balance.toNat msg.counter.toNat s = (⟨res, x, c⟩, s) := by
  unfold resolveCard
  cases h with
  | clear hp => rw [hp]
  | took p hp h1 h2 =>
    rw [hp]
    dsimp only
    unfold PendingEntry.resolve
    rw [if_pos ⟨h1, h2⟩]
    rfl
  | notTaken p hp h1 h2 =>
    rw [hp]
    dsimp only
    unfold PendingEntry.resolve
    rw [if_neg (by rintro ⟨h3, -⟩; omega), if_pos ⟨h1, h2⟩]

theorem resolves_of_agrees (h : ∀ p, s.cru.pendingOf msg.serial.toNat = some p → p.agrees msg) :
    ∃ res x c, Resolves msg s res x c := by
  cases hp : s.cru.pendingOf msg.serial.toNat with
  | none => exact ⟨_, _, _, .clear hp⟩
  | some p =>
    rcases h p hp with ⟨h1, h2⟩ | ⟨h1, h2⟩
    · exact ⟨_, _, _, .took p hp h1 h2⟩
    · exact ⟨_, _, _, .notTaken p hp h1 h2⟩

/-- Check 8: a card image that agrees with the card's pending debit leaves the state to the later checks. -/
theorem evaluatePurchase_pending (h : PendingTakes st msg s) : ∃ r, evaluatePurchase st msg s = buyFrom st msg r s := by
  obtain ⟨hcard, hpend⟩ := h
  obtain ⟨res, x, c, hres⟩ := resolves_of_agrees hpend
  refine ⟨⟨res, x, c⟩, ?_⟩
  rw [evaluatePurchase_buys hcard.payment (cardChecks_passes hcard), resolveCard_of hres]

/-! ## Checks 9 to 11 (R83, R84) -/

theorem takesTopup_iff {r : MachineRecord} {serial : Nat} : r.takesTopup serial = true ↔ ∃ z, TakesTopup r z serial := by
  unfold MachineRecord.takesTopup TakesTopup
  cases r.session with
  | none => simp
  | some z =>
    have hmax : Config.maxPurchases = 4 := rfl
    simp [hmax, and_assoc, or_assoc]

theorem takesTopup_of {r : MachineRecord} {z : Session} {serial : Nat} (h : TakesTopup r z serial) : r.takesTopup serial = true :=
  takesTopup_iff.mpr ⟨z, h⟩

theorem machineCheck_out (h : MachineOut (s.record m)) (serial : Nat) :
    machineCheck (some m) serial s = some .machineOut := by
  unfold machineCheck
  dsimp only
  rcases h with h | h | h <;> rw [h]

theorem machineCheck_new (h : ¬MachineOut (s.record m)) (serial : Nat) (hz : (s.record m).session = none) :
    machineCheck (some m) serial s = if (s.record m).state = .idle then none else some .machineBusy := by
  unfold machineCheck
  dsimp only
  rw [hz]
  cases hx : (s.record m).state
  case absent => exact absurd (.inl hx) h
  case offline => exact absurd (.inr (.inl hx)) h
  case outOfService => exact absurd (.inr (.inr hx)) h
  all_goals rfl

theorem machineCheck_session (h : ¬MachineOut (s.record m)) (serial : Nat) {z : Session} (hz : (s.record m).session = some z) :
    machineCheck (some m) serial s =
      if z.figures.kind = .dryer && (s.record m).takesTopup serial then none else some .machineBusy := by
  unfold machineCheck
  dsimp only
  rw [hz]
  cases hx : (s.record m).state
  case absent => exact absurd (.inl hx) h
  case offline => exact absurd (.inr (.inl hx)) h
  case outOfService => exact absurd (.inr (.inr hx)) h
  all_goals rfl

theorem machineCheck_taken (h : ¬MachineOut (s.record m)) (ht : ¬MachineTakes msg (s.record m)) :
    machineCheck (some m) msg.serial.toNat s = some .machineBusy := by
  cases hz : (s.record m).session with
  | none =>
    rw [machineCheck_new h _ hz]
    exact if_neg fun hx => ht (.inl ⟨hx, hz⟩)
  | some z =>
    rw [machineCheck_session h _ hz]
    refine if_neg fun hb => ht (.inr ?_)
    rw [Bool.and_eq_true, takesTopup_iff, decide_eq_true_eq] at hb
    obtain ⟨hk, z', hz'⟩ := hb
    have hzz : z = z' := Option.some.inj (hz.symm.trans hz'.1)
    exact ⟨z', hz', hzz ▸ hk⟩

theorem machineCheck_passes (h : ¬MachineOut (s.record m)) (ht : MachineTakes msg (s.record m)) :
    machineCheck (some m) msg.serial.toNat s = none := by
  rcases ht with ⟨hx, hz⟩ | ⟨z, hz, hk⟩
  · rw [machineCheck_new h _ hz, if_pos hx]
  · rw [machineCheck_session h _ hz.1, takesTopup_of hz, hk]
    rfl

theorem not_out_of_topup {z : Session} {serial : Nat} (h : TakesTopup (s.record m) z serial) : ¬MachineOut (s.record m) := by
  obtain ⟨-, hx, -⟩ := h
  rintro (ho | ho | ho) <;> rw [ho] at hx <;> simp at hx

theorem not_out_of_idle (h : (s.record m).state = .idle) : ¬MachineOut (s.record m) := by
  rintro (ho | ho | ho) <;> rw [ho] at h <;> contradiction

/-- Check 10 (R83). -/
theorem programCheck_refuses (h : ¬ProgramTakes msg s (s.record m)) :
    programCheck msg (s.record m).session (s.record m).kind s.sst.working = none := by
  unfold programCheck
  cases hz : (s.record m).session with
  | some z => exact if_neg fun hp => h (.inr ⟨z, hz, hp⟩)
  | none =>
    dsimp only
    cases hp : s.sst.working.program msg.program.toNat with
    | none => rfl
    | some p =>
      dsimp only
      split
      · next hk =>
        cases hb : p.body with
        | washer base warm hot planned b d =>
          cases ho : washOptionOf msg.option.toNat with
          | none => rfl
          | some o =>
            refine absurd (.inl ⟨hz, p, hp, hk, fun _ => ?_⟩) h
            by_contra hlt
            have : washOptionOf msg.option.toNat = none := by
              unfold washOptionOf
              split <;> first | omega | rfl
            rw [this] at ho
            contradiction
        | dryer rate air low high =>
          refine absurd (.inl ⟨hz, p, hp, hk, fun hw => ?_⟩) h
          rw [hb] at hw
          contradiction
      · rfl

/-- Check 11 (R84): a dryer session with no minute left to sell. -/
theorem priceCheck_full {z : Session} {c : Choice} {lim : Limits} {pct : Nat} (hk : c.figures.kind = .dryer)
    (hfull : lim.dryerMax ≤ z.minutes.getD 0) : priceCheck msg (some z) c lim pct = none := by
  have hnone : topupMinutes lim (z.minutes.getD 0) msg.minutes.toNat = none := if_pos (by omega)
  unfold priceCheck
  cases hf : c.figures with
  | washer p b h => rw [hf] at hk; contradiction
  | dryer rate a l h => dsimp only; rw [hnone]

/-- Check 10 on a session that the PURCHASE names rightly. -/
theorem programCheck_topup {z : Session} (hp : msg.program.toNat = z.program) (k : Option Kind) (g : Settings) :
    programCheck msg (some z) k g = some ⟨z.program, z.figures, z.option, 0⟩ := if_pos hp

/-! ## The PURCHASE turned away (O24) -/

theorem buyFrom_machine {r : Resolved} {why : DeclineReason}
    (h : machineCheck (machineOf msg.machine.toNat) msg.serial.toNat s = some why) :
    buyFrom st msg r s = sendDecline st why msg.balance.toNat s := by
  unfold buyFrom
  dsimp only
  rw [h]

theorem buyFrom_program {r : Resolved} (hm : addrNumber m = msg.machine.toNat)
    (h : machineCheck (some m) msg.serial.toNat s = none)
    (hp : programCheck msg (s.record m).session (s.record m).kind s.sst.working = none) :
    buyFrom st msg r s = sendDecline st .wrongProgram msg.balance.toNat s := by
  unfold buyFrom
  dsimp only
  rw [topupSession_of hm, machineOf_eq_some hm, h]
  dsimp only
  rw [hp]

theorem buyFrom_time {r : Resolved} {c : Choice} (hm : addrNumber m = msg.machine.toNat)
    (h : machineCheck (some m) msg.serial.toNat s = none)
    (hp : programCheck msg (s.record m).session (s.record m).kind s.sst.working = some c)
    (ht : priceCheck msg (s.record m).session c s.sst.working.limits s.tariff = none) :
    buyFrom st msg r s = sendDecline st .timeFull msg.balance.toNat s := by
  unfold buyFrom
  dsimp only
  rw [topupSession_of hm, machineOf_eq_some hm, h]
  dsimp only
  rw [hp]
  dsimp only
  rw [ht]

/-- R80 to R84: the first of checks 1 to 11 that a PURCHASE fails declines it. -/
theorem evaluatePurchase_fails {why : DeclineReason} (h : FirstFailing st msg s why) :
    evaluatePurchase st msg s = sendDecline st why msg.balance.toNat s := by
  cases h with
  | startUp hscan =>
    exact evaluatePurchase_room (fun hr => by simp [reachesPayment, hscan] at hr) (if_pos (by rw [hscan]; rfl))
  | closed hscan hc =>
    refine evaluatePurchase_room (fun hr => by simp [reachesPayment, hc] at hr) ?_
    unfold roomChecks
    rw [if_neg (by simp [hscan]), if_pos hc]
  | quiet hscan hq ht =>
    have hno : s.asksTopup msg = false := by rw [← Bool.not_eq_true]; exact fun h => ht (topupRequest_iff.mp h)
    refine evaluatePurchase_room (fun hr => by simp [reachesPayment, hq, hno] at hr) ?_
    unfold roomChecks
    rw [if_neg (by simp [hscan]), if_neg (by rw [hq]; simp), if_pos (by simp [hq, hno])]
  | halted hr hp hh =>
    refine evaluatePurchase_room (fun _ => hp) ?_
    rw [roomChecks_of hr rfl rfl, hh, if_pos rfl]
  | journal hr hp hh hf =>
    refine evaluatePurchase_room (fun _ => hp) ?_
    rw [roomChecks_of hr rfl rfl, hh, if_neg Bool.false_ne_true]
    exact if_pos hf
  | invalid hp hv => exact evaluatePurchase_card hp (cardChecks_invalid hv)
  | exhausted hp hv hx => exact evaluatePurchase_card hp (cardChecks_exhausted hv hx)
  | busy hp hv hx hf => exact evaluatePurchase_card hp (cardChecks_busy hv hx hf)
  | denied hp hv hx hf hs =>
    refine evaluatePurchase_card hp ?_
    rw [cardChecks_screened hv hx hf, hs]
    rfl
  | noMachine hp hn =>
    obtain ⟨r, hr⟩ := evaluatePurchase_pending hp
    rw [hr, buyFrom_machine (by rw [machineOf_eq_none hn]; rfl)]
  | out m hp hm ho =>
    obtain ⟨r, hr⟩ := evaluatePurchase_pending hp
    rw [hr, buyFrom_machine (by rw [machineOf_eq_some hm]; exact machineCheck_out ho _)]
  | taken m hp hm ho ht =>
    obtain ⟨r, hr⟩ := evaluatePurchase_pending hp
    rw [hr, buyFrom_machine (by rw [machineOf_eq_some hm]; exact machineCheck_taken ho ht)]
  | program m hp hm ho ht hno =>
    obtain ⟨r, hr⟩ := evaluatePurchase_pending hp
    rw [hr, buyFrom_program hm (machineCheck_passes ho ht) (programCheck_refuses hno)]
  | time m z hp hm ht hk hprog hfull =>
    obtain ⟨r, hr⟩ := evaluatePurchase_pending hp
    rw [hr, buyFrom_time hm (machineCheck_passes (not_out_of_topup ht) (.inr ⟨z, ht, hk⟩))
      (by rw [ht.1]; exact programCheck_topup hprog _ _) (by rw [ht.1]; exact priceCheck_full hk hfull)]

theorem exec_purchase (hrun : s.phase = .running) (ho : msg.option.toNat ≤ 3) :
    exec (.purchase st msg) s = .next (takePurchase st msg s) :=
  congrArg Host.Outcome.next ((whenRunning_of_running hrun).trans (if_pos (by simpa [PurchaseMsg.codesListed] using ho)))

theorem takePurchase_idle (h : (s.exchange st).order = none) : takePurchase st msg s = evaluatePurchase st msg s :=
  if_neg (by rw [h]; exact Bool.false_ne_true)

theorem takePurchase_ordered {o : Order} (h : (s.exchange st).order = some o) :
    takePurchase st msg s = sendDecline st .stationBusy msg.balance.toNat
      (s.setExchange st { s.exchange st with conflicts := min 65535 ((s.exchange st).conflicts + 1) }) := by
  rw [← satInc_eq_min]
  exact if_pos (by rw [h]; rfl)

end Sys2Proof.Machine

namespace Sys2Proof.Machine

/-- Settles O24: each check that fails answers with its reason, in the order of the checks. -/
theorem purchaseTurnedAway : Obligations.PurchaseTurnedAway := by
  refine fun st msg s hrun ho => ⟨_, exec_purchase hrun ho, fun o hx => ?_, fun hx => ⟨fun why hw => ?_, fun hr hm => ?_⟩⟩
  · rw [takePurchase_ordered hx]
    generalize hu : s.setExchange st { s.exchange st with conflicts := min 65535 ((s.exchange st).conflicts + 1) } = u
    obtain ⟨hex, hhalt⟩ := Part.exchanges ((sendDecline_changes st .stationBusy msg.balance.toNat u).at .pay)
    rw [hex, hex, hhalt, ← hu]
    exact ⟨setExchange_self s st _, setExchange_other s st _, setExchange_halted s st _, lineShows_sendDecline st _ _ _,
      (setExchange_changes st _ s).seq (sendDecline_changes st _ _ _)⟩
  · rw [takePurchase_idle hx, evaluatePurchase_fails hw]
    exact ⟨lineShows_sendDecline st _ _ _, sendDecline_changes st _ _ s⟩
  · rw [takePurchase_idle hx, evaluatePurchase_mismatch hr hm]
    have hc := (withPay_changes { s.pay with halted := true } s).seq (setEventIf_changes (!s.pay.halted) .payHalted _)
      (rs := [.pay, .evu])
    refine ⟨?_, ?_, lineShows_sendDecline st _ _ _, hc.seq (sendDecline_changes st _ _ _)⟩
    · rw [(sendDecline_changes st _ _ _).at .pay, (setEventIf_changes _ _ _).at .pay]
      rfl
    · rw [(sendDecline_changes st _ _ _).at .evu]
      cases s.pay.halted <;> rfl

end Sys2Proof.Machine
end


section
/-! PROOF. A PURCHASE that passes its checks: what it buys, the fold, and the exchange that it opens (R82 to R85, R99 to R105). -/
namespace Sys2Proof.Machine

variable {st : Station} {msg : PurchaseMsg} {s : State} {m : Addr}

/-! ## What is bought (R83, R84, R100 to R102) -/

theorem Buys.machineTakes {b : Bought} (h : Buys msg s m b) : ¬MachineOut (s.record m) ∧ MachineTakes msg (s.record m) := by
  cases h with
  | wash _ _ _ _ _ _ _ _ hx hz => exact ⟨not_out_of_idle hx, .inl ⟨hx, hz⟩⟩
  | dryer _ _ _ _ _ _ hx hz => exact ⟨not_out_of_idle hx, .inl ⟨hx, hz⟩⟩
  | topup z _ _ _ _ _ ht hf => exact ⟨not_out_of_topup ht, .inr ⟨z, ht, by rw [hf]; rfl⟩⟩

theorem Buys.topup_iff {b : Bought} (h : Buys msg s m b) : (s.record m).session.isSome = b.topup := by
  cases h with
  | wash _ _ _ _ _ _ _ _ _ hz => rw [hz]; rfl
  | dryer _ _ _ _ _ _ _ hz => rw [hz]; rfl
  | topup z _ _ _ _ _ ht => rw [ht.1]; rfl

theorem Buys.idle {b : Bought} (h : Buys msg s m b) (hn : b.topup = false) : (s.record m).state = .idle := by
  cases h with
  | wash _ _ _ _ _ _ _ _ hx => exact hx
  | dryer _ _ _ _ _ _ hx => exact hx
  | topup => contradiction

/-- Checks 10 and 11 find what is bought. -/
theorem Buys.checks {b : Bought} (h : Buys msg s m b) : ∃ gross,
    programCheck msg (s.record m).session (s.record m).kind s.sst.working = some ⟨b.program, b.figures, b.option, gross⟩ ∧
    priceCheck msg (s.record m).session ⟨b.program, b.figures, b.option, gross⟩ s.sst.working.limits s.tariff =
      some (b.minutes, b.charge) := by
  cases h with
  | wash base warm hot planned drawBase drawHeat name o hx hz hk hp ho =>
    refine ⟨washGross base warm hot o, ?_, rfl⟩
    unfold programCheck
    rw [hz]
    dsimp only
    rw [hp]
    dsimp only
    rw [hk, ho]
    exact if_pos rfl
  | dryer rate air low high name n hx hz hk hp hn =>
    subst hn
    refine ⟨0, ?_, by rw [hz]; rfl⟩
    unfold programCheck
    rw [hz]
    dsimp only
    rw [hp]
    dsimp only
    rw [hk]
    exact if_pos rfl
  | topup z rate air low high n ht hf hprog hroom hn =>
    subst hn
    refine ⟨0, by rw [ht.1]; exact programCheck_topup hprog _ _, ?_⟩
    have hsold : topupMinutes s.sst.working.limits (z.minutes.getD 0) msg.minutes.toNat =
        some (max 1 (min (s.sst.working.limits.dryerMax - z.minutes.getD 0) msg.minutes.toNat)) := if_neg (by omega)
    unfold priceCheck
    rw [ht.1, hf]
    dsimp only
    rw [hsold]
    rfl

/-- Checks 9 to 11 hand the PURCHASE to the fold. -/
theorem buyFrom_folds {r : Resolved} {b : Bought} (hm : addrNumber m = msg.machine.toNat) (h : Buys msg s m b) : ∃ gross,
    let f := foldedOrder msg m b.topup ⟨b.program, b.figures, b.option, gross⟩ b.minutes b.charge s.tariff r
    (f = none → buyFrom st msg r s = sendDecline st .insufficient msg.balance.toNat s) ∧
    ∀ o, f = some o → buyFrom st msg r s = openExchange st msg.balance.toNat o s := by
  obtain ⟨gross, hprog, hprice⟩ := h.checks
  obtain ⟨hout, htakes⟩ := h.machineTakes
  refine ⟨gross, fun hf => ?_, fun o hf => ?_⟩
  all_goals
    unfold buyFrom
    dsimp only
    rw [topupSession_of hm, machineOf_eq_some hm, machineCheck_passes hout htakes]
    dsimp only
    rw [hprog]
    dsimp only
    rw [hprice]
    dsimp only
    rw [h.topup_iff, hf]

/-! ## The fold as one order (R84, R103 to R105) -/

/-- R103 to R105: the fold, with the case of a short balance marked. -/
theorem foldOrder_eq (b x c p : Nat) : foldOrder b x c p =
    if p ≤ b + x + c then .full (min (b + x + c - p) 99999) (c - (b + x + c - p - 99999))
    else if 0 < x + c then .creditOnly (min (b + x + c) 99999) c else .short := by
  have hmax : Config.maxBalance = 99999 := rfl
  unfold foldOrder
  dsimp only
  rw [hmax]
  by_cases hpay : p ≤ b + x + c
  · rw [if_pos hpay, if_pos hpay]
    by_cases hroom : b + x + c - p ≤ 99999
    · rw [if_pos hroom]
      exact congrArg₂ Fold.full (by omega) (by omega)
    · rw [if_neg hroom]
      exact congrArg₂ Fold.full (by omega) rfl
  · rw [if_neg hpay, if_neg hpay]

/-- R84: the order of a PURCHASE, with its number. -/
def orderOf (msg : PurchaseMsg) (m : Addr) (b : Bought) (pct : Nat) (res : Option Resolution) (x c n : Nat) : Order :=
  let sum := msg.balance.toNat + x + c
  let short := sum < b.charge
  let charge := if short then 0 else b.charge
  let folded := if short then c else c - (sum - b.charge - 99999)
  { number := n, ptype := if short then PurchaseType.creditOnly else if b.topup then .topup else .new
    serial := msg.serial.toNat, balanceRead := msg.balance.toNat, counterRead := msg.counter.toNat, machine := m
    program := b.program, option := b.option, minutes := b.minutes, tariff := pct, charge := charge
    newBalance := min (sum - charge) 99999, newCounter := msg.counter.toNat + 1
    folded := if folded = 0 then none else some folded, reversal := if x = 0 then none else some x
    resolution := res, timer := 5, figures := b.figures }

/-- R84, R103 to R105: the order that the fold makes, or none where nothing can pay. -/
theorem foldedOrder_eq (msg : PurchaseMsg) (m : Addr) (b : Bought) (gross pct : Nat) (res : Option Resolution) (x c : Nat) :
    foldedOrder msg m b.topup ⟨b.program, b.figures, b.option, gross⟩ b.minutes b.charge pct ⟨res, x, c⟩ =
      if msg.balance.toNat + x + c < b.charge ∧ x + c = 0 then none else some (orderOf msg m b pct res x c 0) := by
  unfold foldedOrder orderOf
  dsimp only
  rw [foldOrder_eq]
  by_cases hpay : b.charge ≤ msg.balance.toNat + x + c
  · have hns : ¬msg.balance.toNat + x + c < b.charge := by omega
    simp only [if_pos hpay, hns, false_and, if_false]
    rfl
  · have hs : msg.balance.toNat + x + c < b.charge := by omega
    by_cases hcredit : 0 < x + c
    · have hne : x + c ≠ 0 := by omega
      simp only [if_neg hpay, if_pos hcredit, hs, hne, and_false, if_false, if_true]
      rfl
    · have he : x + c = 0 := by omega
      rw [if_neg hpay, if_neg hcredit]
      exact (if_pos ⟨hs, he⟩).symm

/-! ## The exchange opened (R85) -/

/-- R155: the state with an exchange's three slots reserved. -/
def State.reserving3 (s : State) : State := withJournal { s.jrn with reservations := s.jrn.reservations + 3 } s

theorem reserving3_changes (s : State) : ChangesOnly [.jrn, .evu] s s.reserving3 := withJournal_changes _ s

theorem openExchange_reserves {b : Nat} {o : Order} (hf : 3 ≤ s.jrn.free)
    (hi : o.ptype = .new → (s.record o.machine).state = .idle) :
    openExchange st b o s = sendOrder st o (if o.ptype = .new
      then mapRecord o.machine (fun r => { r with state := .reserved, reserving := some st }) s.reserving3
      else s.reserving3) := by
  unfold openExchange
  rw [reserveSlots_of_free (show Config.exchangeReservations ≤ s.jrn.free from hf)]
  dsimp only
  cases hp : o.ptype with
  | new =>
    have hidle : ((s.reserving3).record o.machine).state = .idle := by
      rw [(reserving3_changes s).record]; exact hi hp
    have hres : reserveMachine st o.machine s.reserving3 =
        some (mapRecord o.machine (fun r => { r with state := .reserved, reserving := some st }) s.reserving3) := if_pos hidle
    dsimp only
    rw [show withJournal { s.jrn with reservations := s.jrn.reservations + Config.exchangeReservations } s = s.reserving3
      from rfl, hres]
    rfl
  | topup => rfl
  | creditOnly => rfl

/-- R85 steps 3 and 4: what ORDER leaves. -/
structure OrderSent (st : Station) (o : Order) (s t : State) : Prop where
  exchange : t.exchange st = { s.exchange st with
    orderCounter := if (s.exchange st).orderCounter < 255 then (s.exchange st).orderCounter + 1 else 0
    order := some { o with number := if (s.exchange st).orderCounter < 255 then (s.exchange st).orderCounter + 1 else 0 } }
  other    : t.exchange (otherStation st) = s.exchange (otherStation st)
  halted   : t.pay.halted = s.pay.halted
  cru      : t.cru = { s.cru with refunds := s.cru.refunds.map fun e =>
    if o.folded.isSome = true ∧ e.serial = o.serial then { e with hold := some st } else e }
  line     : LineShows t st (.order (if (s.exchange st).orderCounter < 255 then (s.exchange st).orderCounter + 1 else 0)
    o.newBalance o.newCounter o.charge (decide (o.ptype = .creditOnly)))

theorem OrderSent.of_same {o : Order} {u t : State} (h : OrderSent st o u t) (hp : u.pay = s.pay) (hc : u.cru = s.cru) :
    OrderSent st o s t := by
  obtain ⟨hex, hhalt⟩ := Part.exchanges hp
  obtain ⟨h1, h2, h3, h4, h5⟩ := h
  rw [hex] at h1 h2 h5
  rw [hhalt] at h3
  rw [hc] at h4
  exact ⟨h1, h2, h3, h4, h5⟩

theorem sendOrder_sent (st : Station) (o : Order) (s : State) : OrderSent st o s (sendOrder st o s) := by
  generalize hu : (if o.folded.isSome then mapRefund o.serial (fun e => { e with hold := some st }) s else s) = u
  have hc : ChangesOnly [.cru] s u := by
    rw [← hu]; exact .ite (mapRefund_changes o.serial _ s) (.refl _ s)
  have hcru : u.cru = { s.cru with refunds := s.cru.refunds.map fun e =>
      if o.folded.isSome = true ∧ e.serial = o.serial then { e with hold := some st } else e } := by
    rw [← hu]
    cases o.folded.isSome with
    | true =>
      refine congrArg (fun l => ({ s.cru with refunds := l } : Cru)) (List.map_congr_left fun e _ => ?_)
      by_cases he : e.serial = o.serial <;> simp [he]
    | false => simp
  have hx : u.exchange st = s.exchange st := exchange_of_pay (hc.at .pay) st
  have hsend : sendOrder st o s = sendStation st
      (.order (wrapInc 255 (s.exchange st).orderCounter) o.newBalance o.newCounter o.charge (o.ptype == .creditOnly))
      (u.setExchange st { s.exchange st with
        orderCounter := wrapInc 255 (s.exchange st).orderCounter
        order := some { o with number := wrapInc 255 (s.exchange st).orderCounter } }) := by
    rw [← hx, ← hu]; rfl
  obtain ⟨hex, hhalt⟩ := Part.exchanges ((sendStation_changes st
    (.order (wrapInc 255 (s.exchange st).orderCounter) o.newBalance o.newCounter o.charge (o.ptype == .creditOnly))
    (u.setExchange st { s.exchange st with
        orderCounter := wrapInc 255 (s.exchange st).orderCounter
        order := some { o with number := wrapInc 255 (s.exchange st).orderCounter } })).at .pay)
  rw [hsend]
  refine ⟨?_, ?_, ?_, ?_, ?_⟩
  · rw [hex, setExchange_self]; rfl
  · rw [hex, setExchange_other, exchange_of_pay (hc.at .pay)]
  · rw [hhalt, setExchange_halted, hc.at .pay]
  · rw [(sendStation_changes st _ _).at .cru, (setExchange_changes st _ u).at .cru, hcru]
  · have := lineShows_sendStation st (.order (wrapInc 255 (s.exchange st).orderCounter) o.newBalance o.newCounter o.charge
      (o.ptype == .creditOnly)) (u.setExchange st { s.exchange st with
        orderCounter := wrapInc 255 (s.exchange st).orderCounter
        order := some { o with number := wrapInc 255 (s.exchange st).orderCounter } })
    exact this

/-- R85: the exchange that an order opens on a state with room in its journal. -/
structure Opened (st : Station) (o : Order) (s t : State) : Prop where
  sent     : OrderSent st o s t
  reserved : o.ptype = .new → t.record o.machine = { s.record o.machine with state := .reserved, reserving := some st }
  stands   : o.ptype ≠ .new → t.record o.machine = s.record o.machine
  others   : ∀ k, k ≠ o.machine → t.record k = s.record k
  jrn      : t.jrn = { s.jrn with reservations := s.jrn.reservations + 3 }

theorem openExchange_opens {b : Nat} {o : Order} (hf : 3 ≤ s.jrn.free)
    (hi : o.ptype = .new → (s.record o.machine).state = .idle) : Opened st o s (openExchange st b o s) := by
  have hr := reserving3_changes s
  have hjrn : s.reserving3.jrn = { s.jrn with reservations := s.jrn.reservations + 3 } := withJournal_jrn _ s
  rw [openExchange_reserves hf hi]
  by_cases hp : o.ptype = .new
  · rw [if_pos hp]
    generalize hu : mapRecord o.machine (fun r => { r with state := .reserved, reserving := some st }) s.reserving3 = u
    have hm : ChangesOnly [.msv] s.reserving3 u := hu ▸ mapRecord_changes o.machine _ _
    have hc := sendOrder_changes st o u
    refine ⟨(sendOrder_sent st o u).of_same ((hm.at .pay).trans (hr.at .pay)) ((hm.at .cru).trans (hr.at .cru)), fun _ => ?_,
      fun hne => absurd hp hne, fun k hk => ?_, ((hc.at .jrn).trans (hm.at .jrn)).trans hjrn⟩
    · rw [hc.record, ← hu]
      simp [mapRecord, hr.record]
    · rw [hc.record, ← hu]
      simp [mapRecord, hr.record, Ne.symm hk]
  · rw [if_neg hp]
    have hc := sendOrder_changes st o s.reserving3
    exact ⟨(sendOrder_sent st o _).of_same (hr.at .pay) (hr.at .cru), fun h => absurd h hp,
      fun _ => (hc.record _).trans (hr.record _), fun k _ => (hc.record k).trans (hr.record k), (hc.at .jrn).trans hjrn⟩

/-- Settles O25: the checks hand the PURCHASE to the fold, and the order that it makes is opened. -/
theorem purchaseOpensExchange : Obligations.PurchaseOpensExchange := by
  intro st msg s m b res x c hrun hopt hidle hcard hm hbuys hres
  refine ⟨_, exec_purchase hrun hopt, ?_⟩
  obtain ⟨gross, hnone, hsome⟩ := buyFrom_folds (st := st) (r := ⟨res, x, c⟩) hm hbuys
  rw [foldedOrder_eq] at hnone hsome
  rw [takePurchase_idle hidle, evaluatePurchase_buys hcard.payment (cardChecks_passes hcard), resolveCard_of hres]
  refine ⟨fun hshort hzero => ?_, fun hpays => ?_⟩
  · rw [hnone (if_pos ⟨hshort, hzero⟩)]
    have hb : ¬99999 < msg.balance.toNat := Nat.not_lt.mpr hcard.valid.2.2
    have hline := lineShows_sendDecline st .insufficient msg.balance.toNat s
    rw [if_neg hb] at hline
    exact ⟨hline, sendDecline_changes st _ _ s⟩
  · rw [hsome _ (if_neg (by omega))]
    have hnew : (orderOf msg m b s.tariff res x c 0).ptype = .new → (s.record m).state = .idle := fun hp => by
      refine hbuys.idle ?_
      cases hb : b.topup with
      | false => rfl
      | true =>
        simp only [orderOf, hb, if_true] at hp
        split at hp <;> contradiction
    have hopened := openExchange_opens (st := st) (b := msg.balance.toNat) hcard.payment.journal hnew
    have hc := openExchange_changes st msg.balance.toNat (orderOf msg m b s.tariff res x c 0) s
    generalize openExchange st msg.balance.toNat (orderOf msg m b s.tariff res x c 0) s = t at hopened hc
    obtain ⟨⟨hex, hother, hhalt, hcru, hline⟩, hreserved, hstands, hothers, hjrn⟩ := hopened
    refine ⟨hex, hother, hhalt, hreserved, hstands, hothers, hcru.trans ?_, hjrn, hline, hc⟩
    refine congrArg (fun l => ({ s.cru with refunds := l } : Cru)) (List.map_congr_left fun e _ => ?_)
    refine if_congr (and_congr_left fun _ => ?_) rfl rfl
    unfold orderOf
    dsimp only
    generalize (if msg.balance.toNat + x + c < b.charge then c else _) = folded
    split <;> simp <;> omega

end Sys2Proof.Machine
end


section
/-! PROOF. A PURCHASE that finds its card's pending debit unresolved (R82). -/
namespace Sys2Proof.Machine

variable {st : Station} {msg : PurchaseMsg} {s : State} {m : Addr}

theorem foldedOrder_fields {topup : Bool} {c : Choice} {sold : Option Nat} {charge pct : Nat} {r : Resolved} {o : Order}
    (h : foldedOrder msg m topup c sold charge pct r = some o) :
    o.serial = msg.serial.toNat ∧ o.reversal = positive r.reversal ∧ o.resolution = r.resolution := by
  unfold foldedOrder at h
  dsimp only at h
  split at h
  · cases h; exact ⟨rfl, rfl, rfl⟩
  · cases h; exact ⟨rfl, rfl, rfl⟩
  · contradiction

/-- What checks 9 to 12 leave: an answer only, or an exchange opened for the order with its credit held. -/
inductive Answered (st : Station) (serial : Nat) (reversal : Option Nat) (res : Option Resolution) (s t : State) : Prop
  | declined (hpay : t.pay = s.pay) (hcru : t.cru = s.cru) (hjrn : t.jrn = s.jrn)
  | opened (o : Order) (hold : Bool) (ho : (t.exchange st).order = some o)
      (hfields : o.serial = serial ∧ o.reversal = reversal ∧ o.resolution = res)
      (hcru : t.cru = { s.cru with refunds := s.cru.refunds.map fun e =>
        if hold = true ∧ e.serial = serial then { e with hold := some st } else e })
      (hjrn : t.jrn = { s.jrn with reservations := s.jrn.reservations + 3 })

theorem answered_decline (serial : Nat) (reversal : Option Nat) (res : Option Resolution) (why : DeclineReason) (b : Nat)
    (s : State) : Answered st serial reversal res s (sendDecline st why b s) :=
  have hc := sendDecline_changes st why b s
  .declined (hc.at .pay) (hc.at .cru) (hc.at .jrn)

theorem answered_sendOrder {o : Order} {u : State} (hp : u.pay = s.pay) (hc : u.cru = s.cru)
    (hj : u.jrn = { s.jrn with reservations := s.jrn.reservations + 3 }) :
    Answered st o.serial o.reversal o.resolution s (sendOrder st o u) := by
  obtain ⟨hex, -, -, hcru, -⟩ := (sendOrder_sent st o u).of_same hp hc
  exact .opened _ o.folded.isSome (congrArg Exchange.order hex) ⟨rfl, rfl, rfl⟩ hcru (((sendOrder_changes st o u).at .jrn).trans hj)

theorem reserveMachine_msvOnly {o : Order} {u v : State} (h : reserveMachine st o.machine u = some v) :
    ChangesOnly [.msv] u v := by
  unfold reserveMachine at h
  split at h
  · cases h; exact mapRecord_changes _ _ u
  · contradiction

theorem answered_openExchange (b : Nat) (o : Order) (s : State) :
    Answered st o.serial o.reversal o.resolution s (openExchange st b o s) := by
  have hr := reserving3_changes s
  have hjrn : s.reserving3.jrn = { s.jrn with reservations := s.jrn.reservations + 3 } := withJournal_jrn _ s
  have hsend := answered_sendOrder (st := st) (o := o) (hr.at .pay) (hr.at .cru) hjrn
  unfold openExchange
  by_cases hf : Config.exchangeReservations ≤ s.jrn.free
  · rw [reserveSlots_of_free hf]
    dsimp only
    split
    · split
      · generalize hu : returnSlots Config.exchangeReservations
          (withJournal { s.jrn with reservations := s.jrn.reservations + Config.exchangeReservations } s) = u
        have hback : u.jrn = s.jrn := by
          rw [← hu, returnSlots_jrn, withJournal_jrn, Nat.add_sub_cancel]
        have hcu : ChangesOnly [.jrn, .evu] s u := hu ▸ (withJournal_changes _ s).seq (returnSlots_changes _ _)
        have hc := sendDecline_changes st (refusedReason ((withJournal { s.jrn with
          reservations := s.jrn.reservations + Config.exchangeReservations } s).record o.machine)) b u
        exact .declined ((hc.at .pay).trans (hcu.at .pay)) ((hc.at .cru).trans (hcu.at .cru)) ((hc.at .jrn).trans hback)
      · next v hv =>
        have hm := reserveMachine_msvOnly hv
        exact answered_sendOrder ((hm.at .pay).trans (hr.at .pay)) ((hm.at .cru).trans (hr.at .cru)) ((hm.at .jrn).trans hjrn)
    · exact hsend
    · exact hsend
  · rw [reserveSlots_of_full (by omega)]
    exact answered_decline _ _ _ _ _ s

theorem answered_buyFrom (r : Resolved) (s : State) :
    Answered st msg.serial.toNat (positive r.reversal) r.resolution s (buyFrom st msg r s) := by
  unfold buyFrom
  dsimp only
  split
  · exact answered_decline _ _ _ _ _ s
  · exact answered_decline _ _ _ _ _ s
  · split
    · exact answered_decline _ _ _ _ _ s
    · split
      · exact answered_decline _ _ _ _ _ s
      · split
        · exact answered_decline _ _ _ _ _ s
        · next o ho =>
          obtain ⟨h1, h2, h3⟩ := foldedOrder_fields ho
          exact h1 ▸ h2 ▸ h3 ▸ answered_openExchange _ o s

/-- The exchange opened sets no flag but JRN's. -/
theorem openExchange_setsAmong (b : Nat) (o : Order) (s : State) : SetsAmong journalFlags s (openExchange st b o s) := by
  unfold openExchange
  split
  · exact (sendDecline_changes st _ _ s).setsAmong
  · next u hu =>
    have hres := reserveSlots_setsAmong hu
    split
    · split
      · exact (hres.trans (returnSlots_setsAmong _ u)).trans (sendDecline_changes st _ _ _).setsAmong
      · next v hv => exact (hres.trans (reserveMachine_msvOnly hv).setsAmong).trans (sendOrder_changes st o v).setsAmong
    · exact hres.trans (sendOrder_changes st o u).setsAmong
    · exact hres.trans (sendOrder_changes st o u).setsAmong

theorem buyFrom_setsAmong (r : Resolved) (s : State) : SetsAmong journalFlags s (buyFrom st msg r s) := by
  have hd : ∀ why b, SetsAmong journalFlags s (sendDecline st why b s) := fun why b =>
    (sendDecline_changes st why b s).setsAmong
  unfold buyFrom
  dsimp only
  split
  · exact hd _ _
  · exact hd _ _
  · split
    · exact hd _ _
    · split
      · exact hd _ _
      · split
        · exact hd _ _
        · exact openExchange_setsAmong _ _ s

/-! ## The entry dropped (R82) -/

theorem resolveCard_unresolved {p : PendingEntry} (hp : s.cru.pendingOf msg.serial.toNat = some p) (h : ¬p.agrees msg) :
    resolveCard msg.serial.toNat msg.balance.toNat msg.counter.toNat s =
      (⟨none, 0, s.cru.owed msg.serial.toNat⟩, dropPending p (some msg.balance.toNat) (some msg.counter.toNat) .none s) := by
  unfold PendingEntry.agrees at h
  rw [not_or] at h
  unfold resolveCard
  rw [hp]
  dsimp only
  unfold PendingEntry.resolve
  rw [if_neg h.1, if_neg h.2]

/-- R82, R125: what dropping a pending debit leaves of the books. -/
theorem dropPending_dropped (p : PendingEntry) (balance counter : Option Nat) (d : Detail) {s : State}
    (hr : s.jrn.reservations ≠ 0) :
    let t := dropPending p balance counter d s
    t.jrn = { s.jrn.append s.stamp
        { kind := .debitUnresolved, machine := addrNumber p.machine, serial := some p.serial, amount := some p.amount
          balanceAfter := balance, counterAfter := counter, folded := positive p.folded
          reversal := positive p.reversal, detail := d } with reservations := s.jrn.reservations - 1 } ∧
    t.cru = { refunds := s.cru.refunds.map fun e => if e.serial == p.serial then { e with pledged := false } else e
              pendings := s.cru.pendings.filter (·.serial != p.serial) } ∧
    t.evu.isSet .debitUnresolved = true := by
  refine ⟨writeMoney_jrn _ s hr, ?_, ?_⟩
  · unfold dropPending removePending unpledge mapRefund
    simp only [State.withCru_cru, setEvent_cru, writeMoney_cru]
  · exact (setEvent_isSet .debitUnresolved .debitUnresolved _).trans rfl

theorem dropPending_setsAmong (p : PendingEntry) (balance counter : Option Nat) (d : Detail) (s : State) :
    SetsAmong [.journalWaiting, .journalTight, .journalFull, .debitUnresolved] s (dropPending p balance counter d s) :=
  (writeMoney_setsAmong _ s).mono.trans ((setEvent_setsAmong .debitUnresolved _).mono.trans (.of_evu rfl))

/-- Settles O26: the entry is dropped at once, and whatever the later checks decide leaves the rest of the books. -/
theorem purchaseFindsUnresolved : Obligations.PurchaseFindsUnresolved := by
  intro st msg p s hrun hopt hidle hcard hp hno hr
  refine ⟨_, exec_purchase hrun hopt, ?_⟩
  have hser : p.serial = msg.serial.toNat := (mem_of_pendingOf hp).2
  have heval : takePurchase st msg s = buyFrom st msg ⟨none, 0, s.cru.owed msg.serial.toNat⟩
      (dropPending p (some msg.balance.toNat) (some msg.counter.toNat) .none s) := by
    rw [takePurchase_idle hidle, evaluatePurchase_buys hcard.payment (cardChecks_passes hcard), resolveCard_unresolved hp hno]
  have hchanges := takePurchase_changes st msg s
  obtain ⟨hjrn, hcru, hevu⟩ := dropPending_dropped p (some msg.balance.toNat) (some msg.counter.toNat) .none (s := s) (by omega)
  have hdrop := dropPending_changes p (some msg.balance.toNat) (some msg.counter.toNat) .none s
  rw [heval] at hchanges ⊢
  generalize dropPending p (some msg.balance.toNat) (some msg.counter.toNat) .none s = u at *
  have hans := answered_buyFrom (st := st) (msg := msg) ⟨none, 0, s.cru.owed msg.serial.toNat⟩ u
  have hflag := (buyFrom_setsAmong (st := st) (msg := msg) ⟨none, 0, s.cru.owed msg.serial.toNat⟩ u).flag .debitUnresolved
  generalize buyFrom st msg ⟨none, 0, s.cru.owed msg.serial.toNat⟩ u = t at *
  rw [hser] at hcru
  cases hans with
  | declined h1 h2 h3 =>
    have hopened : (t.exchange st).order = none := by
      rw [exchange_of_pay h1, exchange_of_pay (hdrop.at .pay)]; exact hidle
    refine ⟨?_, hflag.trans hevu, by rw [h2, hcru], ⟨false, ?_⟩, fun o ho => ?_, hchanges⟩
    · rw [h3, hjrn, hopened]; rfl
    · rw [h2, hcru]
      exact List.map_congr_left fun e _ => by by_cases he : e.serial = msg.serial.toNat <;> simp [he]
    · rw [hopened] at ho; contradiction
  | opened o hold h1 h2 h3 h4 =>
    refine ⟨?_, hflag.trans hevu, by rw [h3, hcru], ⟨hold, ?_⟩, fun o' ho' => ?_, hchanges⟩
    · rw [h4, hjrn, h1]; rfl
    · rw [h3, hcru, List.map_map]
      refine List.map_congr_left fun e _ => ?_
      cases hold <;> by_cases he : e.serial = msg.serial.toNat <;> simp [he]
    · obtain rfl : o = o' := Option.some.inj (h1.symm.trans ho')
      exact h2

end Sys2Proof.Machine
end


section
/-! PROOF. The settlement of an order: the books after DONE (R87 to R89, R119, R122). -/
namespace Sys2Proof.Machine

/-! ## The journal, record after record -/

theorem wrote_nil (j : Jrn) (st : Option Stamp) (n : Nat) : j.wrote st [] n = { j with reservations := j.reservations - n } := rfl

theorem wrote_append (j : Jrn) (st : Option Stamp) (bs : List RecordBody) (b : RecordBody) (n k : Nat) :
    ({ (j.wrote st bs n).append st b with reservations := (j.wrote st bs n).reservations - k } : Jrn) =
      j.wrote st (bs ++ [b]) (n + k) := by
  unfold Jrn.wrote
  rw [List.foldl_append, ← Nat.sub_sub]
  rfl

theorem wrote_return (j : Jrn) (st : Option Stamp) (bs : List RecordBody) (n k : Nat) :
    ({ j.wrote st bs n with reservations := (j.wrote st bs n).reservations - k } : Jrn) = j.wrote st bs (n + k) := by
  unfold Jrn.wrote
  rw [← Nat.sub_sub]

theorem writeMoney_wrote {s : State} {j : Jrn} {st : Option Stamp} {bs : List RecordBody} {n : Nat} (b : RecordBody)
    (hj : s.jrn = j.wrote st bs n) (hs : s.stamp = st) (hn : n < j.reservations) :
    (writeMoney b s).jrn = j.wrote st (bs ++ [b]) (n + 1) := by
  rw [writeMoney_jrn b s (by rw [hj]; show j.reservations - n ≠ 0; omega), hj, hs, wrote_append]

theorem returnSlots_wrote {s : State} {j : Jrn} {st : Option Stamp} {bs : List RecordBody} {n : Nat} (k : Nat)
    (hj : s.jrn = j.wrote st bs n) : (returnSlots k s).jrn = j.wrote st bs (n + k) := by
  rw [returnSlots_jrn, hj, wrote_return]

/-! ## The refund table as it is settled -/

section
variable {older newer : List RefundEntry} {e : RefundEntry} {k taken back : Nat} {l : List RefundEntry}

/-- A table holds a serial once, or not at all. -/
theorem alone_or_absent (hn : (l.map (·.serial)).Nodup) (k : Nat) :
    (∃ older e newer, l = older ++ e :: newer ∧ e.serial = k ∧ Alone e.serial older newer) ∨ ∀ x ∈ l, x.serial ≠ k := by
  by_cases h : ∃ e ∈ l, e.serial = k
  · obtain ⟨e, he, hk⟩ := h
    obtain ⟨older, newer, rfl⟩ := List.append_of_mem he
    exact .inl ⟨older, e, newer, rfl, hk, alone_of_nodup hn⟩
  · exact .inr fun x hx hk => h ⟨x, hx, hk⟩

theorem settledRefunds_absent (h : ∀ x ∈ l, x.serial ≠ k) : settledRefunds k taken back l = l := by
  unfold settledRefunds
  rw [List.filterMap_congr (g := some) fun x hx => if_neg (h x hx), List.filterMap_some]

theorem settledRefunds_alone (h : Alone e.serial older newer) :
    settledRefunds e.serial taken back (older ++ e :: newer) =
      if e.amount - taken + back = 0 then older ++ newer
      else older ++ { e with amount := e.amount - taken + back } :: newer := by
  have h1 : settledRefunds e.serial taken back older = older := settledRefunds_absent fun x hx => h.ne_older hx
  have h2 : settledRefunds e.serial taken back newer = newer := settledRefunds_absent fun x hx => h.ne_newer hx
  unfold settledRefunds at *
  rw [List.filterMap_append, List.filterMap_cons, h1, h2, if_pos rfl]
  split <;> simp_all

theorem emptiedRefunds_absent (h : ∀ x ∈ l, x.serial ≠ k) : emptiedRefunds k taken back l = 0 := by
  unfold emptiedRefunds
  rw [List.length_eq_zero_iff, List.filter_eq_nil_iff]
  exact fun x hx => by simp [h x hx]

theorem emptiedRefunds_alone (h : Alone e.serial older newer) :
    emptiedRefunds e.serial taken back (older ++ e :: newer) = if e.amount - taken + back = 0 then 1 else 0 := by
  have h1 : emptiedRefunds e.serial taken back older = 0 := emptiedRefunds_absent fun x hx => h.ne_older hx
  have h2 : emptiedRefunds e.serial taken back newer = 0 := emptiedRefunds_absent fun x hx => h.ne_newer hx
  unfold emptiedRefunds at *
  rw [List.filter_append, List.length_append, h1, Nat.zero_add]
  by_cases h0 : e.amount - taken + back = 0
  · rw [List.filter_cons_of_pos (by simpa using h0), List.length_cons, h2, if_pos h0]
  · rw [List.filter_cons_of_neg (by simpa using h0), h2, if_neg h0]

theorem remainderBodies_absent (h : ∀ x ∈ l, x.serial ≠ k) : remainderBodies k taken back l = [] := by
  unfold remainderBodies
  split
  · rfl
  · rw [List.filter_eq_nil_iff.mpr fun x hx => by simp [h x hx], List.map_nil]

theorem remainderBodies_alone (h : Alone e.serial older newer) :
    remainderBodies e.serial taken back (older ++ e :: newer) = if back = 0 then [] else
      [{ kind := .refundCredited, machine := e.origin, serial := some e.serial, amount := some back
         balanceAfter := some (e.amount - taken + back), detail := .reversalRemainder }] := by
  unfold remainderBodies
  rw [List.filter_append, List.filter_eq_nil_iff.mpr fun x hx => by simpa using h.ne_older hx,
    List.filter_cons_of_pos (by simp), List.filter_eq_nil_iff.mpr fun x hx => by simpa using h.ne_newer hx]
  rfl

end

/-- R122: the settlement of one serial's entry, in the table and in the journal. -/
theorem settleRefund_settled {k taken back : Nat} {s : State} (hn : (s.cru.refunds.map (·.serial)).Nodup) :
    (settleRefund k taken back s).cru = { s.cru with refunds := settledRefunds k taken back s.cru.refunds } ∧
    (settleRefund k taken back s).jrn =
      { s.jrn with reservations := s.jrn.reservations - emptiedRefunds k taken back s.cru.refunds } := by
  unfold settleRefund
  rcases alone_or_absent hn k with ⟨older, e, newer, hc, rfl, ha⟩ | h
  · rw [refund_alone hc ha, hc, settledRefunds_alone ha, emptiedRefunds_alone ha]
    dsimp only
    split
    · refine ⟨?_, returnSlots_jrn 1 _⟩
      simp only [returnSlots_cru, removeRefund, State.withCru_cru, hc, filter_alone ha]
    · refine ⟨?_, rfl⟩
      simp only [mapRefund, State.withCru_cru, hc, map_alone ha]
  · rw [Cru.refund_eq_none.mpr h, settledRefunds_absent h, emptiedRefunds_absent h]
    exact ⟨rfl, rfl⟩

/-- R119, R122: the record of a remainder, against one reservation. -/
theorem recordRemainder_wrote {k r : Nat} {s : State} {e : RefundEntry} (he : s.cru.refund k = some e) {j : Jrn}
    {st : Option Stamp} {bs : List RecordBody} {n : Nat} (hj : s.jrn = j.wrote st bs n) (hs : s.stamp = st)
    (hn : n < j.reservations) :
    (recordRemainder k r s).cru = s.cru ∧
    (recordRemainder k r s).jrn = j.wrote st (bs ++ [{ kind := .refundCredited, machine := e.origin, serial := some k
                                                       amount := some r, balanceAfter := some e.amount
                                                       detail := .reversalRemainder }]) (n + 1) ∧
    (recordRemainder k r s).evu.isSet .refundCredited = true := by
  unfold recordRemainder
  rw [he]
  exact ⟨(writeMoney_changes _ s).at .cru, writeMoney_wrote _ hj hs hn, (setEvent_isSet _ _ _).trans rfl⟩

theorem back_eq (o : Order) : (o.resolution.map Resolution.remainder).getD 0 = o.back := by
  unfold Order.back
  cases o.resolution with
  | none => rfl
  | some res => cases res <;> rfl

theorem back_of_none {o : Order} (h : o.resolution = none) : o.back = 0 := by
  unfold Order.back; rw [h]

/-! ## DONE (R87 step 2) -/

/-- The books that a settlement starts from: each serial once in the refund table, and an entry for a remainder. -/
structure Settles (o : Order) (c : Cru) : Prop where
  nodup : (c.refunds.map (·.serial)).Nodup
  entry : o.back ≠ 0 → ∃ e ∈ c.refunds, e.serial = o.serial

/-- R122: the refund entry of an order once the outcome has settled it. -/
def RefundEntry.unheld (e : RefundEntry) (o : Order) : RefundEntry :=
  { e with hold := none, pledged := e.pledged && o.resolution.isNone }

/-- R87 step 2: the refund table after a DONE outcome. -/
def Cru.settledBy (c : Cru) (o : Order) (taken : Nat) : Cru :=
  { refunds := (settledRefunds o.serial taken o.back c.refunds).map fun e => if e.serial = o.serial then e.unheld o else e
    pendings := c.pendings.filter fun p => !(p.serial == o.serial && o.resolution.isSome) }

/-- What leaves the refund entry at a DONE outcome. -/
def Cru.takenBy (c : Cru) (o : Order) : Nat := o.folded.getD 0 + tookFolded o.resolution (c.pendingOf o.serial)

section
variable {k : Nat} {f : RefundEntry → RefundEntry}

/-- A change of one serial's entry that keeps serial, amount and origin. -/
structure KeepsFigures (f : RefundEntry → RefundEntry) : Prop where
  serial : ∀ e, (f e).serial = e.serial
  amount : ∀ e, (f e).amount = e.amount
  origin : ∀ e, (f e).origin = e.origin
  set    : ∀ e n, f { e with amount := n } = { f e with amount := n }

theorem settledRefunds_map (hf : KeepsFigures f) (taken back : Nat) (l : List RefundEntry) :
    settledRefunds k taken back (l.map fun e => if e.serial = k then f e else e) =
      (settledRefunds k taken back l).map fun e => if e.serial = k then f e else e := by
  unfold settledRefunds
  rw [List.filterMap_map, List.map_filterMap]
  refine List.filterMap_congr fun e _ => ?_
  by_cases he : e.serial = k
  · have hs : (f e).serial = k := (hf.serial e).trans he
    simp only [Function.comp, if_pos he, if_pos hs, hf.amount]
    by_cases h0 : e.amount - taken + back = 0
    · simp only [if_pos h0, Option.map_none]
    · simp only [if_neg h0, Option.map_some, if_pos he]
      exact congrArg some (hf.set e _).symm
  · simp [he]

theorem emptiedRefunds_map (hf : KeepsFigures f) (taken back : Nat) (l : List RefundEntry) :
    emptiedRefunds k taken back (l.map fun e => if e.serial = k then f e else e) = emptiedRefunds k taken back l := by
  unfold emptiedRefunds
  rw [List.filter_map, List.length_map]
  refine congrArg List.length (List.filter_congr fun e _ => ?_)
  by_cases he : e.serial = k
  · simp [he, hf.serial, hf.amount]
  · simp [he]

theorem serials_map (hf : KeepsFigures f) (l : List RefundEntry) :
    (l.map fun e => if e.serial = k then f e else e).map (·.serial) = l.map (·.serial) := by
  rw [List.map_map]
  refine List.map_congr_left fun e _ => ?_
  by_cases he : e.serial = k
  · simp [he, hf.serial]
  · simp [he]

/-- A remainder's entry in the settled table. -/
theorem refund_settled (hf : KeepsFigures f) {taken back : Nat} {l : List RefundEntry} (hn : (l.map (·.serial)).Nodup)
    (hb : back ≠ 0) (he : ∃ e ∈ l, e.serial = k) (ps : List PendingEntry) : ∃ e,
    (⟨(settledRefunds k taken back l).map fun e => if e.serial = k then f e else e, ps⟩ : Cru).refund k = some e ∧
    remainderBodies k taken back l =
      [{ kind := .refundCredited, machine := e.origin, serial := some k, amount := some back, balanceAfter := some e.amount
         detail := .reversalRemainder }] := by
  rcases alone_or_absent hn k with ⟨older, e, newer, rfl, rfl, ha⟩ | h
  · refine ⟨f { e with amount := e.amount - taken + back }, ?_, ?_⟩
    · rw [settledRefunds_alone ha, if_neg (by omega)]
      have hmap : ((older ++ { e with amount := e.amount - taken + back } :: newer).map fun x =>
          if x.serial = e.serial then f x else x) = older ++ f { e with amount := e.amount - taken + back } :: newer :=
        (List.map_congr_left fun x _ => by by_cases h : x.serial = e.serial <;> simp [h]).trans
          (map_alone (e := { e with amount := e.amount - taken + back }) ha f)
      have hser : (f { e with amount := e.amount - taken + back }).serial = e.serial := hf.serial _
      have := refund_alone (c := ⟨older ++ f { e with amount := e.amount - taken + back } :: newer, ps⟩) rfl
        (by rw [hser]; exact ha)
      rwa [hser, ← hmap] at this
    · rw [remainderBodies_alone ha, if_neg hb, hf.origin, hf.amount]
  · obtain ⟨e, hmem, hk⟩ := he
    exact absurd hk (h e hmem)

theorem mapRefund_cru (k : Nat) (f : RefundEntry → RefundEntry) (s : State) :
    (mapRefund k f s).cru = { s.cru with refunds := s.cru.refunds.map fun e => if e.serial = k then f e else e } :=
  congrArg (fun l => ({ s.cru with refunds := l } : Cru))
    (List.map_congr_left fun e _ => by by_cases h : e.serial = k <;> simp [h])

end

theorem keepsFigures_unhold : KeepsFigures fun e => { e with hold := none } := ⟨fun _ => rfl, fun _ => rfl, fun _ => rfl, fun _ _ => rfl⟩

theorem keepsFigures_unheld (o : Order) : KeepsFigures (·.unheld o) := ⟨fun _ => rfl, fun _ => rfl, fun _ => rfl, fun _ _ => rfl⟩

/-- R122: the hold ends and the entry is settled. -/
theorem settled_unheld (k taken back : Nat) {s : State} (hn : (s.cru.refunds.map (·.serial)).Nodup) :
    let t := settleRefund k taken back (mapRefund k (fun e => { e with hold := none }) s)
    t.cru = { s.cru with refunds := (settledRefunds k taken back s.cru.refunds).map fun e =>
      if e.serial = k then { e with hold := none } else e } ∧
    t.jrn = { s.jrn with reservations := s.jrn.reservations - emptiedRefunds k taken back s.cru.refunds } := by
  have hcru := mapRefund_cru k (fun e => { e with hold := none }) s
  have hser := serials_map (k := k) keepsFigures_unhold s.cru.refunds
  obtain ⟨h1, h2⟩ := settleRefund_settled (k := k) (taken := taken) (back := back)
    (s := mapRefund k (fun e => { e with hold := none }) s) (by rw [hcru]; dsimp only; rw [hser]; exact hn)
  rw [hcru] at h1 h2
  dsimp only at h1 h2 ⊢
  rw [settledRefunds_map keepsFigures_unhold] at h1
  rw [emptiedRefunds_map keepsFigures_unhold] at h2
  exact ⟨h1, h2⟩

theorem settleTables_unresolved {o : Order} {s : State} (h : o.resolution = none) :
    settleTables o s = settleRefund o.serial (s.cru.takenBy o) o.back
      (mapRefund o.serial (fun e => { e with hold := none }) s) := by
  unfold settleTables
  rw [back_eq]
  dsimp only
  split
  · rfl
  · next hr => rw [h] at hr; contradiction

theorem settleTables_resolved {o : Order} {s : State} (h : o.resolution ≠ none) :
    settleTables o s =
      let v := removePending o.serial (unpledge o.serial (settleRefund o.serial (s.cru.takenBy o) o.back
        (mapRefund o.serial (fun e => { e with hold := none }) s)))
      if 0 < o.back then recordRemainder o.serial o.back v else returnSlots 1 v := by
  unfold settleTables
  rw [back_eq]
  dsimp only
  split
  · next hr => exact absurd hr h
  · rfl

/-- R87 step 2, R122: the books after a DONE outcome's settlement. -/
theorem settleTables_settled {o : Order} {s : State} (hs : Settles o s.cru) {j : Jrn} {st : Option Stamp} {bs : List RecordBody}
    {n : Nat} (hj : s.jrn = j.wrote st bs n) (hst : s.stamp = st)
    (hn : n + emptiedRefunds o.serial (s.cru.takenBy o) o.back s.cru.refunds < j.reservations) :
    let taken := s.cru.takenBy o
    let t := settleTables o s
    t.cru = s.cru.settledBy o taken ∧
    t.jrn = j.wrote st (bs ++ remainderBodies o.serial taken o.back s.cru.refunds)
      (n + emptiedRefunds o.serial taken o.back s.cru.refunds + (if o.resolution.isSome then 1 else 0)) ∧
    (0 < o.back → t.evu.isSet .refundCredited = true) := by
  dsimp only
  obtain ⟨h1, h2⟩ := settled_unheld o.serial (s.cru.takenBy o) o.back hs.nodup
  have hstamp : (settleRefund o.serial (s.cru.takenBy o) o.back
      (mapRefund o.serial (fun e => { e with hold := none }) s)).stamp = st :=
    ((mapRefund_changes o.serial _ s).seq (settleRefund_changes _ _ _ _) (rs := [.cru, .jrn, .evu])).stamp.trans hst
  by_cases hres : o.resolution = none
  · have hb := back_of_none hres
    rw [settleTables_unresolved hres]
    refine ⟨h1.trans ?_, h2.trans ?_, fun h => by omega⟩
    · unfold Cru.settledBy
      have hun : ∀ e : RefundEntry, e.unheld o = { e with hold := none } := fun e => by simp [RefundEntry.unheld, hres]
      simp [hun, hres]
    · unfold remainderBodies
      rw [if_pos hb, List.append_nil, hj, hres, wrote_return]
      rfl
  · have hsome : o.resolution.isSome = true := Option.isSome_iff_ne_none.mpr hres
    rw [settleTables_resolved hres]
    generalize settleRefund o.serial (s.cru.takenBy o) o.back (mapRefund o.serial (fun e => { e with hold := none }) s) = u
      at h1 h2 hstamp
    dsimp only
    generalize hv : removePending o.serial (unpledge o.serial u) = v
    have hcv : ChangesOnly [.cru] u v := hv ▸ (unpledge_changes o.serial u).seq (removePending_changes o.serial _)
    have hcru : v.cru = s.cru.settledBy o (s.cru.takenBy o) := by
      rw [← hv]
      unfold removePending unpledge Cru.settledBy
      rw [State.withCru_cru, mapRefund_cru, h1]
      dsimp only
      rw [List.map_map]
      refine congrArg₂ Cru.mk (List.map_congr_left fun e _ => ?_) (List.filter_congr fun p _ => ?_)
      · by_cases he : e.serial = o.serial <;> simp [he, RefundEntry.unheld, Option.isNone_eq_false_iff.mpr hsome]
      · rw [hsome, Bool.and_true]; rfl
    have hjrn : v.jrn = j.wrote st bs (n + emptiedRefunds o.serial (s.cru.takenBy o) o.back s.cru.refunds) := by
      rw [hcv.at .jrn, h2, hj, wrote_return]
    rw [hsome]
    by_cases hb : 0 < o.back
    · rw [if_pos hb]
      obtain ⟨e, he, hbody⟩ := refund_settled (k := o.serial) (keepsFigures_unheld o) hs.nodup (taken := s.cru.takenBy o)
        (Nat.pos_iff_ne_zero.mp hb) (hs.entry (Nat.pos_iff_ne_zero.mp hb)) (s.cru.pendings.filter fun p => !(p.serial == o.serial && o.resolution.isSome))
      obtain ⟨g1, g2, g3⟩ := recordRemainder_wrote (r := o.back) ((congrArg (·.refund o.serial) hcru).trans he) hjrn
        (hcv.stamp.trans hstamp) hn
      refine ⟨g1.trans hcru, ?_, fun _ => g3⟩
      rw [g2, hbody]
      rfl
    · have h0 : o.back = 0 := by omega
      rw [if_neg hb]
      refine ⟨((returnSlots_changes 1 v).at .cru).trans hcru, ?_, fun h => absurd h hb⟩
      rw [returnSlots_wrote 1 hjrn]
      unfold remainderBodies
      rw [if_pos h0, List.append_nil]
      rfl

end Sys2Proof.Machine
end


section
/-! PROOF. DONE for a credit-only order, a top-up and a new purchase (R87 to R89). -/
namespace Sys2Proof.Machine

/-! ## The books that an outcome finds (R94, R152) -/

section
variable {s v : State} {st : Station} {o : Order}

theorem settles_of_booksReady (hb : s.BooksReady) (ho : (s.exchange st).order = some o) : Settles o s.cru :=
  ⟨hb.2.1.2, fun h => hb.2.2 st o ho h⟩

/-- R152: an ORDERED exchange and the tables stand behind so many reservations. -/
theorem reserved_of_booksReady (hb : s.BooksReady) (ho : (s.exchange st).order = some o) :
    3 + s.cru.refunds.length + s.cru.pendings.length ≤ s.jrn.reservations := by
  have h := hb.1.2.2.2.2
  have h1 : 1 ≤ (s.pay.a.order.toList ++ s.pay.b.order.toList).length := by
    cases st
    · rw [show s.pay.a.order = some o from ho]; simp
    · rw [show s.pay.b.order = some o from ho]; simp
  unfold State.slotsOwed at h
  omega

theorem emptiedRefunds_le (k taken back : Nat) (l : List RefundEntry) : emptiedRefunds k taken back l ≤ l.length :=
  List.length_filter_le _ _

/-- R152: the record of an outcome is written against the exchange's first reservation. -/
theorem writeMoney_first (hb : s.BooksReady) (ho : (s.exchange st).order = some o) (b : RecordBody) :
    (writeMoney b s).jrn = s.jrn.wrote s.stamp [b] 1 :=
  writeMoney_jrn b s (by have := reserved_of_booksReady hb ho; omega)

/-- R87 step 2: the card's tables settled behind the record of the order. -/
theorem settleTables_books (hb : s.BooksReady) (ho : (s.exchange st).order = some o) (hv : ChangesOnly [.jrn, .evu] s v)
    {k : RecordKind} (hj : v.jrn = s.jrn.wrote s.stamp [o.body k .none] 1) :
    (settleTables o v).cru = (s.settled o k 0).cru ∧ (settleTables o v).jrn = (s.settled o k 0).jrn ∧
    (0 < o.back → (settleTables o v).evu.isSet .refundCredited = true) := by
  have hcru : v.cru = s.cru := hv.at .cru
  have hle := emptiedRefunds_le o.serial (v.cru.takenBy o) o.back v.cru.refunds
  have hres := reserved_of_booksReady hb ho
  have h := settleTables_settled (s := v) (hcru ▸ settles_of_booksReady hb ho) hj hv.stamp
    (by rw [hcru] at hle ⊢; omega)
  rwa [hcru] at h

theorem returnSlots_settled {t : State} {k : RecordKind} (n : Nat) (h : t.jrn = (s.settled o k 0).jrn) :
    (returnSlots n t).jrn = (s.settled o k n).jrn := returnSlots_wrote n h

end

/-! ## The exchange becomes IDLE and its line speaks -/

/-- R87 to R90: an outcome's exchange after it, and the other one. -/
structure Idled (st : Station) (s t : State) : Prop where
  here   : t.exchange st = { s.exchange st with order := none }
  there  : t.exchange (otherStation st) = s.exchange (otherStation st)
  halted : t.pay.halted = s.pay.halted

theorem idled {st : Station} {s u t : State} (hu : u.pay = s.pay) (ht : t.pay = (idleExchange st u).pay) : Idled st s t := by
  obtain ⟨hx, hh⟩ := Part.exchanges hu
  obtain ⟨hx', hh'⟩ := Part.exchanges ht
  exact
    { here := by rw [hx', idleExchange_self, hx]
      there := by rw [hx', idleExchange, setExchange_other, hx]
      halted := by rw [hh', idleExchange, setExchange_halted, hh] }

theorem takeResult_done {st : Station} {msg : ResultMsg} {o : Order} {s : State} (ho : (s.exchange st).order = some o)
    (hn : msg.order.toNat = o.number) (hout : msg.outcome = 0#8) {k : Word16} (hk : msg.counter = some k) :
    takeResult st msg s = endDone st o k.toNat s := by
  have hcode : msg.outcome.toNat = 0 := by rw [hout]; rfl
  unfold takeResult
  dsimp only
  rw [ho]
  dsimp only
  rw [if_neg (by rw [hn]; exact fun h => h rfl), hcode, hk]
  rfl

/-- R86: a DONE outcome with a counter read back. -/
theorem exec_done {st : Station} {msg : ResultMsg} {o : Order} {s : State} (hrun : s.phase = .running)
    (ho : (s.exchange st).order = some o) (hn : msg.order.toNat = o.number) (hout : msg.outcome = 0#8) {k : Word16}
    (hk : msg.counter = some k) : exec (.result st msg) s = .next (endDone st o k.toNat s) := by
  have hl : msg.codesListed = true := by
    unfold ResultMsg.codesListed; rw [hout, hk]; rfl
  rw [exec_result hrun hl, takeResult_done ho hn hout hk]

section
variable {st : Station} {msg : ResultMsg} {o : Order} {s : State} (hrun : s.phase = .running)
  (ho : (s.exchange st).order = some o) (hn : msg.order.toNat = o.number) (hout : msg.outcome = 0#8)
  (hk : msg.counter.map (·.toNat) = some o.newCounter)
include hrun ho hn hout hk

theorem exec_doneNew (hp : o.ptype = .new) : exec (.result st msg) s = .next (doneNew st o s) := by
  obtain ⟨k, hc, hkk⟩ := Option.map_eq_some_iff.mp hk
  rw [exec_done hrun ho hn hout hc, endDone, if_pos hkk, hp]

theorem exec_doneTopup (hp : o.ptype = .topup) : exec (.result st msg) s = .next (doneTopup st o s) := by
  obtain ⟨k, hc, hkk⟩ := Option.map_eq_some_iff.mp hk
  rw [exec_done hrun ho hn hout hc, endDone, if_pos hkk, hp]

theorem exec_doneCredit (hp : o.ptype = .creditOnly) : exec (.result st msg) s = .next (doneCredit st o s) := by
  obtain ⟨k, hc, hkk⟩ := Option.map_eq_some_iff.mp hk
  rw [exec_done hrun ho hn hout hc, endDone, if_pos hkk, hp]

end

/-- Settles O29: the record, the settlement and the two reservations, part by part. -/
theorem resultDoneCredits : Obligations.ResultDoneCredits := by
  intro st msg o s hrun ho hb hp _ hn hout hk
  refine ⟨_, exec_doneCredit hrun ho hn hout hk hp, ?_⟩
  have hw := writeMoney_changes (o.body .creditApplied .none) s
  obtain ⟨hcru, hjrn, _⟩ := settleTables_books hb ho hw (writeMoney_first hb ho _)
  have h1 := hw.seq (settleTables_changes o _) (rs := [.cru, .jrn, .evu])
  unfold doneCredit
  dsimp only
  generalize settleTables o (writeMoney (o.body .creditApplied .none) s) = u at *
  have h2 := h1.seq (returnSlots_changes 2 u) (rs := [.cru, .jrn, .evu])
  have hi := idleExchange_changes st (returnSlots 2 u)
  have hd := sendDecline_changes st .insufficient o.newBalance (idleExchange st (returnSlots 2 u))
  have hid : Idled st s _ := idled (h2.at .pay) (hd.at .pay)
  refine ⟨?_, ?_, hid.here, hid.there, hid.halted, lineShows_sendDecline _ _ _ _, ?_⟩
  · rw [hd.at .cru, hi.at .cru, returnSlots_cru, hcru]; rfl
  · rw [hd.at .jrn, hi.at .jrn, returnSlots_settled 2 hjrn]
  · exact (h2.seq hi (rs := [.pay, .cru, .jrn, .evu])).seq hd

/-! ## DONE for a top-up (R17, R88) -/

section
variable {st : Station} {o : Order} {s : State}

/-- R87, R88: the state once an outcome's record is written, its event set and the tables are settled. -/
abbrev recorded (ev : EventFlag) (k : RecordKind) (o : Order) (s : State) : State :=
  settleTables o (setEvent ev (writeMoney (o.body k .none) s))

theorem recorded_changes (ev : EventFlag) (k : RecordKind) (o : Order) (s : State) :
    ChangesOnly [.cru, .jrn, .evu] s (recorded ev k o s) :=
  ((writeMoney_changes (o.body k .none) s).seq (setEvent_changes ev _) (rs := [.jrn, .evu])).seq (settleTables_changes o _)

theorem recorded_books (ev : EventFlag) (k : RecordKind) (hb : s.BooksReady) (ho : (s.exchange st).order = some o) :
    SameBooks (s.settled o k 0) (recorded ev k o s) ∧ (0 < o.back → (recorded ev k o s).evu.isSet .refundCredited = true) := by
  have hw : ChangesOnly [.jrn, .evu] s _ := (writeMoney_changes (o.body k .none) s).seq (setEvent_changes ev _)
  obtain ⟨hcru, hjrn, hev⟩ := settleTables_books hb ho hw (writeMoney_first hb ho _)
  exact ⟨⟨hcru, hjrn, by rw [(recorded_changes ev k o s).at .sst]; rfl⟩, hev⟩

theorem recorded_event (ev : EventFlag) (k : RecordKind) (o : Order) (s : State) : (recorded ev k o s).evu.isSet ev = true :=
  (settleTables_steady o _).flags ev ((setEvent_isSet ev ev _).trans (by simp))

/-- R88: the session takes the top-up. -/
theorem doneTopup_takes {z : Session} (hz : TakesTopup (s.record o.machine) z o.serial) :
    doneTopup st o s = sendStation st (.receiptDryer o.machine (o.minutes.getD 0) (z.minutes.getD 0 + o.minutes.getD 0))
      (idleExchange st (returnSlots 2 ((recorded .topup .topup o s).mapSession o.machine fun z => z.topup o.charge (o.minutes.getD 0)))) := by
  have hrec : (recorded .topup .topup o s).record o.machine = s.record o.machine := (recorded_changes .topup .topup o s).record _
  have hz' : ((recorded .topup .topup o s).record o.machine).session = some z := by rw [hrec]; exact hz.1
  unfold doneTopup
  dsimp only
  rw [if_pos (by rw [hrec]; exact takesTopup_iff.mpr ⟨z, hz⟩), mapSession_record hz']
  rfl

/-- R88: no session takes it. -/
theorem doneTopup_refused (hz : ∀ z, ¬TakesTopup (s.record o.machine) z o.serial) :
    doneTopup st o s = sendDecline st .machineBusy o.newBalance (idleExchange st
      (if 0 < o.charge then creditSerial .topupRefused o.serial o.charge (addrNumber o.machine) (recorded .topup .topup o s)
       else returnSlots 2 (recorded .topup .topup o s))) := by
  have hrec : (recorded .topup .topup o s).record o.machine = s.record o.machine := (recorded_changes .topup .topup o s).record _
  unfold doneTopup
  dsimp only
  rw [if_neg]
  rw [hrec, takesTopup_iff]
  exact fun ⟨z, h⟩ => hz z h

end

/-- Settles O28: the record and the settlement once, then the session that takes the top-up and the credit of one that does not. -/
theorem resultDoneTopsUp : Obligations.ResultDoneTopsUp := by
  intro st msg o s hrun ho hb hp hn hout hk
  refine ⟨_, exec_doneTopup hrun ho hn hout hk hp, ?_⟩
  have hbooks := (recorded_books .topup .topup hb ho).1
  have hev := recorded_event .topup .topup o s
  have h1 := recorded_changes .topup .topup o s
  by_cases hz : ∃ z, TakesTopup (s.record o.machine) z o.serial
  · obtain ⟨z, hz⟩ := hz
    have hrec : (recorded .topup .topup o s).record o.machine = s.record o.machine := h1.record _
    rw [doneTopup_takes hz]
    generalize recorded .topup .topup o s = u at *
    have hu : (u.record o.machine).session = some z := by rw [hrec]; exact hz.1
    have hm := mapSession_changes o.machine (fun z => z.topup o.charge (o.minutes.getD 0)) u
    have hself := mapSession_record hu fun z => z.topup o.charge (o.minutes.getD 0)
    have hother : ∀ k, k ≠ o.machine → _ := fun k h => mapSession_record_ne h (fun z => z.topup o.charge (o.minutes.getD 0)) u
    generalize u.mapSession o.machine (fun z => z.topup o.charge (o.minutes.getD 0)) = v at *
    have hr := returnSlots_changes 2 v
    have hi := idleExchange_changes st (returnSlots 2 v)
    have hs := sendStation_changes st (.receiptDryer o.machine (o.minutes.getD 0) (z.minutes.getD 0 + o.minutes.getD 0))
      (idleExchange st (returnSlots 2 v))
    have hend : ChangesOnly [.jrn, .evu, .pay, .out] v _ := (hr.seq hi (rs := [.jrn, .evu, .pay])).seq hs
    have hv : ChangesOnly [.msv, .cru, .jrn, .evu] s _ := (h1.seq hm (rs := [.msv, .cru, .jrn, .evu])).seq hr
    have hid : Idled st s _ := idled (hv.at .pay) (hs.at .pay)
    refine ⟨?_, hid.here, hid.there, hid.halted, fun k hne => ?_, fun z' hz' => ⟨?_, ?_, ?_, ?_⟩, fun h => absurd hz (h z),
      (hv.seq hi (rs := [.msv, .pay, .cru, .jrn, .evu])).seq hs⟩
    · have hf := (returnSlots_setsAmong 2 v).flag .topup
      rw [hs.at .evu, hi.at .evu, hf, hm.at .evu]
      exact hev
    · rw [hend.record, hother k hne, h1.record]
    · rw [hend.at .cru, hm.at .cru, hbooks.cru]
    · rw [hs.at .jrn, hi.at .jrn]
      exact returnSlots_settled 2 ((hm.at .jrn).trans hbooks.jrn)
    · obtain rfl : z = z' := Option.some.inj (hz.1.symm.trans hz'.1)
      rw [hend.record, hself, hrec]
      rfl
    · obtain rfl : z = z' := Option.some.inj (hz.1.symm.trans hz'.1)
      exact lineShows_sendStation st _ _
  · have hz : ∀ z, ¬TakesTopup (s.record o.machine) z o.serial := fun z h => hz ⟨z, h⟩
    rw [doneTopup_refused hz]
    generalize recorded .topup .topup o s = u at *
    have hc : ChangesOnly [.cru, .jrn, .evu] u (if 0 < o.charge then
        creditSerial .topupRefused o.serial o.charge (addrNumber o.machine) u else returnSlots 2 u) :=
      .ite (creditSerial_changes _ _ _ _ u) (returnSlots_changes 2 u).up
    have hf : SetsAmong creditFlags u (if 0 < o.charge then
        creditSerial .topupRefused o.serial o.charge (addrNumber o.machine) u else returnSlots 2 u) :=
      .ite (creditSerial_setsAmong _ _ _ _ u) (returnSlots_setsAmong 2 u).mono
    have hpos : 0 < o.charge → SameBooks (creditSerial .topupRefused o.serial o.charge (addrNumber o.machine) (s.settled o .topup 0))
        (if 0 < o.charge then creditSerial .topupRefused o.serial o.charge (addrNumber o.machine) u else returnSlots 2 u) :=
      fun h => by rw [if_pos h]; exact booksOnly_creditSerial _ _ _ _ _ _ hbooks
    have hzero : o.charge = 0 → (if 0 < o.charge then creditSerial .topupRefused o.serial o.charge (addrNumber o.machine) u
        else returnSlots 2 u) = returnSlots 2 u := fun h => if_neg (by omega)
    generalize (if 0 < o.charge then creditSerial .topupRefused o.serial o.charge (addrNumber o.machine) u
      else returnSlots 2 u) = v at *
    have hi := idleExchange_changes st v
    have hd := sendDecline_changes st .machineBusy o.newBalance (idleExchange st v)
    have hv := h1.seq hc (rs := [.cru, .jrn, .evu])
    have hend : ChangesOnly [.pay, .out] v _ := hi.seq hd
    have hall : ChangesOnly [.pay, .cru, .jrn, .evu, .out] s _ := hv.seq hend
    have hid : Idled st s _ := idled (hv.at .pay) (hd.at .pay)
    refine ⟨?_, hid.here, hid.there, hid.halted, fun k _ => hall.record k, fun z h => absurd h (hz z),
      fun _ => ⟨fun h => ⟨?_, ?_⟩, fun h => ⟨?_, ?_⟩, hall.record _, lineShows_sendDecline _ _ _ _⟩, hall.up⟩
    · rw [hend.at .evu, hf.flag .topup, hev]
    · rw [hend.at .cru, (hpos h).cru]
    · rw [hend.at .jrn, (hpos h).jrn]
    · rw [hend.at .cru, hzero h, returnSlots_cru, hbooks.cru]
    · rw [hend.at .jrn, hzero h]
      exact returnSlots_settled 2 hbooks.jrn

end Sys2Proof.Machine
end


section
/-! PROOF. Abort orders that end a session: what they leave of the record, the bus, the books and the fault record (R20, R135). -/
namespace Sys2Proof.Machine

/-! ## What an order leaves -/

/-- R20: the state that an order leaves a session's record in, found in the state x. -/
def Severity.leaves (sev : Severity) (x : MState) (silent : Bool) : MState :=
  if x = .running then .aborting
  else if sev = .lockout then .outOfService
  else if silent then .offline else .faulted

/-- R20: the stop destination of an order. -/
def Severity.stopDest (sev : Severity) : StopDest := if sev = .lockout then .outOfService else .faulted

/-- R20: the command that an order gives the node. -/
def MState.orderCommand (x : MState) : BusCommand := if x = .running then .stop true else .disarm

/-- R20: a session found in the state x has been ended by an order with the refund r. -/
structure Ordered (m : Addr) (z : Session) (r : Nat) (x : MState) (sev : Severity) (s t : State) : Prop where
  record  : t.record m = { s.record m with
    state := sev.leaves x (s.record m).silent, session := none, silenceTimer := 0
    unloadTimer := if x = .running then (s.record m).unloadTimer else 0
    stopDest := if x = .running then some sev.stopDest else (s.record m).stopDest
    retained := if (s.record m).state = .recovering then none else (s.record m).retained }
  grant   : t.grant m = s.grant m
  raise   : t.fba.hasRaise m = false
  start   : t.fba.hasStart m = false
  node    : t.node m = s.node m
  command : (s.node m).known = true → Commanded t m x.orderCommand
  books   : SameBooks (s.refunded m z.payer r) t
  flags   : SetsAmong creditFlags s t
  others  : ∀ k, k ≠ m → s.fba.hasStart k = false → t.record k = s.record k ∧ t.fba.hasStart k = false
  changes : ChangesOnly sessionParts s t

theorem Ordered.gone {m : Addr} {z : Session} {r : Nat} {x : MState} {sev : Severity} {s t : State}
    (h : Ordered m z r x sev s t) : SessionGone s t m z.payer r :=
  ⟨by rw [h.record], by rw [h.record], h.books.cru, h.start, h.raise⟩

section
variable {m : Addr} {z : Session} {r : Nat} {x : MState} {sev : Severity} {s t u : State}

/-- What the fault record is before an order does not matter to it. -/
theorem Ordered.before (h : Ordered m z r x sev u t) (hc : ChangesOnly [.flm] s u) : Ordered m z r x sev s t :=
  have hfba : u.fba = s.fba := hc.at .fba
  { record := by rw [h.record, hc.record]
    grant := h.grant.trans (hc.grant m)
    raise := h.raise
    start := h.start
    node := h.node.trans (hc.node m)
    command := fun hn => h.command (by rw [hc.node]; exact hn)
    books := (booksOnly_refunded m _ _ _ _ hc.sameBooks).trans h.books
    flags := hc.setsAmong.trans h.flags
    others := fun k hk hs => by
      obtain ⟨h1, h2⟩ := h.others k hk (by rw [hfba]; exact hs)
      exact ⟨h1.trans (hc.record k), h2⟩
    changes := hc.seq h.changes }

/-- What becomes of the fault record after an order does not matter to it. -/
theorem Ordered.after (h : Ordered m z r x sev s t) (hc : ChangesOnly [.flm] t u) : Ordered m z r x sev s u :=
  have hfba : u.fba = t.fba := hc.at .fba
  { record := by rw [hc.record, h.record]
    grant := (hc.grant m).trans h.grant
    raise := by rw [hfba]; exact h.raise
    start := by rw [hfba]; exact h.start
    node := (hc.node m).trans h.node
    command := fun hn => (h.command hn).of_sameBus (hc.sameBus m)
    books := h.books.trans hc.sameBooks
    flags := h.flags.trans hc.setsAmong
    others := fun k hk hs => by
      obtain ⟨h1, h2⟩ := h.others k hk hs
      exact ⟨(hc.record k).trans h1, by rw [hfba]; exact h2⟩
    changes := h.changes.seq hc }

end

/-- R131: the fault record of a machine whose record an order leaves OFFLINE has its open mark cleared. -/
def FaultRecord.leftIn (f : FaultRecord) (x : MState) : FaultRecord := { f with openMark := !(x == .offline) && f.openMark }

theorem disposeSession_setsAmong (m : Addr) (r : Nat) (s : State) : SetsAmong creditFlags s (disposeSession m r s) := by
  cases hz : (s.record m).session with
  | none => unfold disposeSession; rw [hz]; exact .refl s
  | some z =>
    rw [disposeSession_refunded hz]
    exact (refunded_setsAmong m z.payer r s).trans (mapRecord_changes m _ _).setsAmong

theorem enterState_faults (m : Addr) (x : MState) (s : State) :
    (enterState m x s).faults m = { s.faults m with
      openMark := if (s.record m).landing x = .idle ∨ (s.record m).landing x = .offline then false else (s.faults m).openMark } := by
  unfold enterState
  dsimp only
  split <;> simp [mapRecord, setOpenMark]

section
variable {m : Addr} {s : State} {z : Session} {sev : Severity} {wr : Bool} {x : MState}

theorem refund_of_ne_running (z : Session) (grace : Nat) (hx : x ≠ .running) : z.refund x grace = z.total := by
  cases x with
  | running => exact absurd rfl hx
  | _ => rfl

theorem orderRefund_of (hz : (s.record m).session = some z) (hx : (s.record m).state = x) (wr : Bool) :
    s.orderRefund m wr = if wr then z.refund x s.sst.working.limits.grace else 0 := by
  unfold State.orderRefund; rw [hz, hx]

/-- R20: DISARM of a session that has not begun. -/
theorem ordered_unstarted (hz : (s.record m).session = some z) (hx : (s.record m).state = x) (hrun : x ≠ .running)
    (hrec : x ≠ .recovering) :
    Ordered m z (s.orderRefund m wr) x sev s
      (abortUnstarted m wr (if sev = .lockout then .outOfService else .faulted) s) ∧
    (abortUnstarted m wr (if sev = .lockout then .outOfService else .faulted) s).faults m =
      (s.faults m).leftIn (sev.leaves x (s.record m).silent) := by
  have hcall := calledOff_after m (c := .disarm) rfl s
  have hout := hcall.sessionOut hz (s.orderRefund m wr)
  have hfl : SetsAmong creditFlags s (disposeSession m (s.orderRefund m wr) (queueControl m .disarm (review (removeEntries m s)))) :=
    hcall.changes.setsAmong.trans (disposeSession_setsAmong _ _ _)
  unfold abortUnstarted
  generalize disposeSession m (s.orderRefund m wr) (queueControl m .disarm (review (removeEntries m s))) = u at hout hfl
  generalize hd : (if sev = .lockout then MState.outOfService else .faulted) = dest
  have he := enterState_changes m dest u
  have hland : (u.record m).landing dest = sev.leaves x (s.record m).silent := by
    rw [hout.record, ← hd]
    unfold Severity.leaves
    rw [if_neg hrun]
    by_cases hl : sev = .lockout
    · rw [if_pos hl, if_pos hl]; rfl
    · rw [if_neg hl, if_neg hl]; rfl
  have hne : sev.leaves x (s.record m).silent ≠ .done ∧ sev.leaves x (s.record m).silent ≠ .idle := by
    unfold Severity.leaves
    rw [if_neg hrun]
    split
    · simp
    · split <;> simp
  have hfba := he.at .fba
  have hfm : u.faults m = s.faults m := hout.changes.faults m
  refine ⟨?_, ?_⟩
  · exact
    { record := by
        rw [enterState_record, hland, hout.record, if_neg hne.1, if_neg hrun, if_neg hrun, if_neg (by rw [hx]; exact hrec)]
      grant := (he.grant m).trans hout.grant
      raise := by rw [hfba]; exact hout.raise
      start := by rw [hfba]; exact hout.start
      node := (he.node m).trans hout.node
      command := fun hn => by
        unfold MState.orderCommand
        rw [if_neg hrun]
        exact (hout.command hn).of_sameBus (he.sameBus m)
      books := hout.books.trans he.sameBooks
      flags := hfl.trans he.setsAmong
      others := fun k hk hs => by
        obtain ⟨h1, h2⟩ := hout.others k hk hs
        exact ⟨(enterState_record_ne hk _ _).trans h1, by rw [hfba]; exact h2⟩
      changes := hout.changes.seq he }
  · rw [enterState_faults, hland, hfm]
    unfold FaultRecord.leftIn
    cases hl : sev.leaves x (s.record m).silent <;> simp_all

/-- R20: STOP(abort) of a run. -/
theorem ordered_running (hz : (s.record m).session = some z) (hx : (s.record m).state = .running) :
    Ordered m z (s.orderRefund m wr) .running sev s (abortRunning m wr sev.stopDest s) ∧
    (abortRunning m wr sev.stopDest s).faults m = s.faults m := by
  have hcall := calledOff_before m (c := .stop true) rfl s
  have hout := hcall.sessionOut hz (s.orderRefund m wr)
  have hfl : SetsAmong creditFlags s (disposeSession m (s.orderRefund m wr) (review (removeEntries m (queueControl m (.stop true) s)))) :=
    hcall.changes.setsAmong.trans (disposeSession_setsAmong _ _ _)
  unfold abortRunning
  dsimp only
  generalize disposeSession m (s.orderRefund m wr) (review (removeEntries m (queueControl m (.stop true) s))) = u at hout hfl
  have he := mapRecord_changes m (fun x => { x with state := .aborting, stopDest := some sev.stopDest }) u
  have hself : (mapRecord m (fun x => { x with state := .aborting, stopDest := some sev.stopDest }) u).record m =
      { u.record m with state := .aborting, stopDest := some sev.stopDest } := by simp [mapRecord]
  have hother : ∀ k, k ≠ m →
      (mapRecord m (fun x => { x with state := .aborting, stopDest := some sev.stopDest }) u).record k = u.record k :=
    fun k hk => by simp [mapRecord, hk.symm]
  generalize mapRecord m (fun x => { x with state := .aborting, stopDest := some sev.stopDest }) u = t at *
  have hfba := he.at .fba
  refine ⟨?_, (he.faults m).trans (hout.changes.faults m)⟩
  exact
    { record := by
        rw [hself, hout.record, if_pos rfl, if_pos rfl, if_neg (by rw [hx]; simp)]
        rfl
      grant := (he.grant m).trans hout.grant
      raise := by rw [hfba]; exact hout.raise
      start := by rw [hfba]; exact hout.start
      node := (he.node m).trans hout.node
      command := fun hn => (hout.command hn).of_sameBus (he.sameBus m)
      books := hout.books.trans he.sameBooks
      flags := hfl.trans he.setsAmong
      others := fun k hk hs => by
        obtain ⟨h1, h2⟩ := hout.others k hk hs
        exact ⟨(hother k hk).trans h1, by rw [hfba]; exact h2⟩
      changes := hout.changes.seq he }

/-- R20: the table of abort orders, on a session. -/
theorem ordered_abortIn (hz : (s.record m).session = some z) (hx : (s.record m).state = x)
    (hxs : x = .armed ∨ x = .starting ∨ x = .running) (hsev : sev ≠ .retry) (wr : Bool) :
    Ordered m z (if wr then z.refund x s.sst.working.limits.grace else 0) x sev s (abortIn m sev wr s) ∧
    (abortIn m sev wr s).faults m = (s.faults m).leftIn (sev.leaves x (s.record m).silent) := by
  rw [← orderRefund_of hz hx]
  have hun := ordered_unstarted (sev := sev) (wr := wr) hz hx
  have hr := fun hx => ordered_running (sev := sev) (wr := wr) hz hx
  have hleft : ∀ f : FaultRecord, f.leftIn (sev.leaves .running (s.record m).silent) = f := fun _ => rfl
  unfold abortIn
  rw [hx]
  rcases hxs with rfl | rfl | rfl <;> cases sev
  case inl.retry => exact absurd rfl hsev
  case inr.inl.retry => exact absurd rfl hsev
  case inr.inr.retry => exact absurd rfl hsev
  case inl.stop => exact hun (by simp) (by simp)
  case inl.lockout => exact hun (by simp) (by simp)
  case inr.inl.stop => exact hun (by simp) (by simp)
  case inr.inl.lockout => exact hun (by simp) (by simp)
  case inr.inr.stop => rw [hleft]; exact hr hx
  case inr.inr.lockout => rw [hleft]; exact hr hx

/-! ## In recovery (R27) -/

theorem endRecovery_record (hx : (s.record m).standsIn x) (hne : x ≠ .recovering) :
    (endRecovery m s).record m = { s.record m with
      state := x, retained := if (s.record m).state = .recovering then none else (s.record m).retained } := by
  have hself : ∀ f, (mapRecord m f s).record m = f (s.record m) := fun f => by simp [mapRecord]
  unfold endRecovery
  rw [hself]
  rcases hx with hx | ⟨hx, hret⟩
  · rw [if_neg (by rw [hx]; exact hne)]
    split
    · next h _ => exact absurd (hx.symm.trans h) hne
    · rw [← hx]
  · obtain ⟨t, ht, rfl⟩ := Option.map_eq_some_iff.mp hret
    rw [hx, ht, if_pos rfl]

theorem endRecovery_record_ne {k : Addr} (h : k ≠ m) (s : State) : (endRecovery m s).record k = s.record k := by
  simp [endRecovery, mapRecord, h.symm]

theorem standsIn_ne_recovering (hxs : x = .armed ∨ x = .starting ∨ x = .running) : x ≠ .recovering := by
  rcases hxs with rfl | rfl | rfl <;> simp

theorem effective_of_standsIn {r : MachineRecord} (hx : r.standsIn x) (hne : x ≠ .recovering) : r.effective = x := by
  unfold MachineRecord.effective
  rcases hx with hx | ⟨hx, hret⟩
  · split
    · next h _ => exact absurd (hx.symm.trans h) hne
    · exact hx
  · obtain ⟨t, ht, rfl⟩ := Option.map_eq_some_iff.mp hret
    rw [hx, ht]

/-- R20, R27: an order acts on the retained state of a RECOVERING record. -/
theorem ordered_applyAbort (hz : (s.record m).session = some z) (hx : (s.record m).standsIn x)
    (hxs : x = .armed ∨ x = .starting ∨ x = .running) (hsev : sev ≠ .retry) (wr : Bool) :
    Ordered m z (if wr then z.refund x s.sst.working.limits.grace else 0) x sev s (applyAbort m sev wr s) ∧
    (applyAbort m sev wr s).faults m = (s.faults m).leftIn (sev.leaves x (s.record m).silent) := by
  have hne := standsIn_ne_recovering hxs
  have hrec := endRecovery_record hx hne
  have hc := endRecovery_changes m s
  have hother : ∀ k, k ≠ m → (endRecovery m s).record k = s.record k := fun k hk => endRecovery_record_ne hk s
  unfold applyAbort
  generalize endRecovery m s = u at *
  obtain ⟨h, hf⟩ := ordered_abortIn (s := u) (by rw [hrec]; exact hz) (by rw [hrec]) hxs hsev wr
  rw [hc.at .sst] at h
  have hfba : u.fba = s.fba := hc.at .fba
  refine ⟨?_, by rw [hf, hrec, hc.faults]⟩
  exact
    { record := by
        rw [h.record, hrec]
        dsimp only
        rw [if_neg hne]
      grant := h.grant.trans (hc.grant m)
      raise := h.raise
      start := h.start
      node := h.node.trans (hc.node m)
      command := fun hn => h.command (by rw [hc.node]; exact hn)
      books := (booksOnly_refunded m _ _ _ _ hc.sameBooks).trans h.books
      flags := hc.setsAmong.trans h.flags
      others := fun k hk hs => by
        obtain ⟨h1, h2⟩ := h.others k hk (by rw [hfba]; exact hs)
        exact ⟨h1.trans (hother k hk), h2⟩
      changes := hc.seq h.changes }

/-- R20 step 4: what an order reports to FLM. -/
theorem abortReport_of (hz : (s.record m).session = some z) (hx : (s.record m).standsIn x)
    (hxs : x = .armed ∨ x = .starting ∨ x = .running) (hsev : sev ≠ .retry) (wr : Bool) :
    abortReport m sev wr s = some (z.payer, if wr then z.refund x s.sst.working.limits.grace else 0) := by
  have hrec := endRecovery_record hx (standsIn_ne_recovering hxs)
  have hc := endRecovery_changes m s
  unfold abortReport
  dsimp only
  generalize endRecovery m s = u at *
  have hz' : (u.record m).session = some z := by rw [hrec]; exact hz
  have hx' : (u.record m).state = x := by rw [hrec]
  rw [orderRefund_of hz' hx', hz', hx', hc.at .sst]
  rcases hxs with rfl | rfl | rfl <;> cases sev
  case inl.retry => exact absurd rfl hsev
  case inr.inl.retry => exact absurd rfl hsev
  case inr.inr.retry => exact absurd rfl hsev
  all_goals rfl

/-! ## The refund in the current fault (R135) -/

/-- R135: the current fault with payer and refund. -/
def CurrentFault.refunding (c : CurrentFault) (e : Ended) : CurrentFault :=
  match e with
  | some (payer, r) => { c with payer := some payer, refund := some r }
  | none => c

theorem storeRefund_faults (m : Addr) (e : Ended) (s : State) :
    (storeRefund m e s).faults m = { s.faults m with current := (s.faults m).current.map (·.refunding e) } := by
  obtain ⟨cur, mark, stops, history, hf⟩ : ∃ a b c d, s.faults m = ⟨a, b, c, d⟩ := ⟨_, _, _, _, rfl⟩
  unfold storeRefund
  cases e <;> cases cur <;> simp [hf, CurrentFault.refunding]

/-- R20, R135: an order given by FLM or by the host, with its refund stored. -/
theorem ordered_orderAbort (hz : (s.record m).session = some z) (hx : (s.record m).standsIn x)
    (hxs : x = .armed ∨ x = .starting ∨ x = .running) (hsev : sev ≠ .retry) (wr : Bool) :
    let r := if wr then z.refund x s.sst.working.limits.grace else 0
    Ordered m z r x sev s (orderAbort m sev wr s) ∧
    (orderAbort m sev wr s).faults m = { (s.faults m).leftIn (sev.leaves x (s.record m).silent) with
      current := (s.faults m).current.map fun c => { c with payer := some z.payer, refund := some r } } := by
  obtain ⟨h, hf⟩ := ordered_applyAbort hz hx hxs hsev wr
  refine ⟨h.after (storeRefund_changes m _ _), ?_⟩
  unfold orderAbort
  rw [storeRefund_faults, abortReport_of hz hx hxs hsev wr, hf]
  rfl

/-- R142, R145, R146: a primary without a kind: the new current fault, and its order on the session. -/
theorem ordered_primary (hz : (s.record m).session = some z) (hx : (s.record m).standsIn x)
    (hxs : x = .armed ∨ x = .starting ∨ x = .running) (hsev : sev ≠ .retry) (cause : FaultCause) (wr : Bool) :
    let r := if wr then z.refund x s.sst.working.limits.grace else 0
    let t := orderAbort m sev wr (s.setFaults m { s.faults m with current := some (newCurrent m none cause sev false s) })
    Ordered m z r x sev s t ∧
    t.faults m = { (s.faults m).leftIn (sev.leaves x (s.record m).silent) with
      current := some { kind := none, cause := cause, severity := sev, escalated := false, stamp := s.stamp, state := x
                        payer := some z.payer, refund := some r, secondary := none } } := by
  have hc := setFaults_changes m { s.faults m with current := some (newCurrent m none cause sev false s) } s
  obtain ⟨h, hf⟩ := ordered_orderAbort
    (s := s.setFaults m { s.faults m with current := some (newCurrent m none cause sev false s) }) hz hx hxs hsev wr
  refine ⟨h.before hc, ?_⟩
  rw [hf]
  simp [FaultRecord.leftIn, newCurrent, effective_of_standsIn hx (standsIn_ne_recovering hxs)]

end

end Sys2Proof.Machine
end


section
/-! PROOF. The release of a grant (R70): what it leaves of the machine, of its commands and of the order of starting. -/
namespace Sys2Proof.Machine

/-! ## The order of starting (R65) -/

/-- R71: a GRANT queued marks the grant as pending, and changes nothing else of the feeder. -/
theorem queueGrant_fba (m : Addr) (l : Level) (f : Bool) (s : State) :
    (queueGrant m l f s).fba = s.fba ∨
    (queueGrant m l f s).fba = (s.setGrant m { s.grant m with pending := true }).fba := by
  unfold queueGrant
  split
  · exact .inr ((queueCommand_changes m (.grant l f) .fba (s.setGrant m { s.grant m with pending := true })).at .fba)
  · exact .inl rfl

theorem startList_queueGrant (m : Addr) (l : Level) (f : Bool) (s : State) :
    (queueGrant m l f s).fba.startList = s.fba.startList := by
  rcases queueGrant_fba m l f s with h | h
  · rw [h]
  · rw [h]; rfl

theorem startList_changeGrant (m : Addr) (l : Level) (f : Bool) (s : State) :
    (changeGrant m l f s).fba.startList = s.fba.startList := startList_queueGrant m l f _

theorem startList_ite {c : Prop} [Decidable c] {s t : State} {l : List Addr} (hs : s.fba.startList = l) (ht : t.fba.startList = l) :
    (if c then s else t).fba.startList = l := by
  split <;> assumption

theorem startList_setRaise (m : Addr) (l : Level) (f : Bool) (s : State) : (setRaise m l f s).fba.startList = s.fba.startList :=
  startList_ite rfl rfl

theorem startList_compareWanted (m : Addr) (s : State) : (compareWanted m s).fba.startList = s.fba.startList := by
  unfold compareWanted
  dsimp only
  split
  · split
    · exact startList_ite
        ((startList_setRaise _ _ _ _).trans (startList_ite rfl (startList_changeGrant _ _ _ s)))
        (startList_ite (t := changeGrant m _ _ s) rfl (startList_changeGrant _ _ _ s))
    · rfl
  · rfl

theorem startList_startRuns (m : Addr) (e : GrantEntry) (l : Level) (f : Bool) (s : State) :
    (startRuns m e l f s).fba.startList = s.fba.startList ++ [m] := startList_queueGrant m l f (startGranted m e s)

theorem startList_grantStart {e : AdmEntry} {s t : State} (h : grantStart e s = some t) :
    t.fba.startList = s.fba.startList ++ [e.machine] := by
  unfold grantStart at h
  split at h
  · cases h
  · split at h
    · split at h
      · cases h
        rw [grantWasherStart_eq, startList_compareWanted, startList_startRuns]
      · cases h
    · split at h
      · cases h
        rw [grantDryerStart_eq]
        split <;> exact startList_startRuns _ _ _ _ s
      · cases h

/-- R60, R61: a machine joins the order of starting by its START entry. -/
theorem notStarted_grantHead {m : Addr} {s t : State} (h : grantHead s = some t) (hs : s.fba.hasStart m = false)
    (hm : m ∉ s.fba.startList) : m ∉ t.fba.startList := by
  unfold grantHead at h
  split at h
  · unfold grantRaise at h
    dsimp only at h
    split at h
    · cases h; rw [startList_changeGrant]; exact hm
    · cases h
  · next e l _ hl =>
    rw [startList_grantStart h, List.mem_append, List.mem_singleton, not_or]
    exact ⟨hm, fun he => by simp [Fba.hasStart, hl, he] at hs⟩
  · cases h

theorem notStarted_review {m : Addr} (s : State) (hs : s.fba.hasStart m = false) (hm : m ∉ s.fba.startList) :
    m ∉ (review s).fba.startList := by
  have hheads : ∀ (k : Nat) (u : State), u.fba.hasStart m = false → m ∉ u.fba.startList → m ∉ (grantHeads k u).fba.startList := by
    intro k
    induction k with
    | zero => exact fun u _ hu => hu
    | succ k ih =>
      intro u hu hn
      unfold grantHeads
      split
      · exact hn
      · next t ht => exact ih t (grantHead_record ht hu).2 (notStarted_grantHead ht hu hn)
  have hc : (clearOverBudget s).fba.hasStart m = false ∧ m ∉ (clearOverBudget s).fba.startList := by
    unfold clearOverBudget; split <;> exact ⟨hs, hm⟩
  unfold review reexamine
  split
  · exact hc.2
  · exact hheads _ _ hc.1 hc.2

/-! ## A level command beside the control command -/

theorem find?_enqueueIn_class {k c : CommandClass} (h : k ≠ c) (q : List BusEntry) (n m : Addr) (cmd : BusCommand) (o : BusOwner)
    (hk : cmd.cls = some k) : (enqueueIn q n k cmd o).find? (·.fills m c) = q.find? (·.fills m c) := by
  have hnew : ∀ x : BusEntry, x.command.cls = some k → x.fills m c = false := fun x hx => by simp [BusEntry.fills, hx, h]
  have hold : ∀ x : BusEntry, x.fills n k = true → x.fills m c = false := fun x hx => hnew x (fills_iff.mp hx).2
  unfold enqueueIn
  dsimp only
  split
  · refine find?_map_apart (fun x => ?_) (fun x hx => ?_) q
    · split
      · next hx => rw [hold x hx]; exact hnew _ hk
      · rfl
    · rw [if_neg]
      intro hn
      rw [hold x hn] at hx
      cases hx
  · rw [List.find?_append, List.find?_cons_of_neg (by rw [hnew _ hk]; simp)]
    simp

theorem waiting_queueGrant (m n : Addr) (l : Level) (f : Bool) (s : State) :
    (queueGrant n l f s).mbc.waiting m .control = s.mbc.waiting m .control := by
  unfold queueGrant
  split
  · unfold queueCommand
    dsimp only [BusCommand.cls]
    split
    · exact find?_enqueueIn_class (by simp) _ n m _ _ rfl
    · rfl
  · rfl

theorem node_queueGrant (m n : Addr) (l : Level) (f : Bool) (s : State) : (queueGrant n l f s).node m = s.node m :=
  (queueGrant_queues n l f s).node m

/-- R71: FBA has told a machine of a grant: the grant itself, the queue of admission and the control command stand. -/
structure Tells (m : Addr) (s t : State) : Prop where
  granted : (t.grant m).granted = (s.grant m).granted
  draw    : (t.grant m).draw = (s.grant m).draw
  fill    : (t.grant m).fill = (s.grant m).fill
  order   : t.fba.startList = s.fba.startList
  raise   : ∀ k, t.fba.hasRaise k = s.fba.hasRaise k
  start   : ∀ k, t.fba.hasStart k = s.fba.hasStart k
  node    : t.node m = s.node m
  control : t.mbc.waiting m .control = s.mbc.waiting m .control
  changes : ChangesOnly [.mbc, .fba] s t

theorem Tells.refl (m : Addr) (s : State) : Tells m s s :=
  ⟨rfl, rfl, rfl, rfl, fun _ => rfl, fun _ => rfl, rfl, rfl, .refl _ s⟩

theorem tells_queueGrant (m : Addr) (l : Level) (f : Bool) (s : State) : Tells m s (queueGrant m l f s) := by
  have hg : (queueGrant m l f s).grant m = s.grant m ∨ (queueGrant m l f s).grant m = { s.grant m with pending := true } := by
    unfold State.grant
    rcases queueGrant_fba m l f s with h | h <;> rw [h]
    · exact .inl rfl
    · exact .inr (PerMachine.at_put_self _ _ _)
  have hf : (queueGrant m l f s).fba.raises = s.fba.raises ∧ (queueGrant m l f s).fba.starts = s.fba.starts := by
    rcases queueGrant_fba m l f s with h | h <;> rw [h] <;> exact ⟨rfl, rfl⟩
  exact
    { granted := by rcases hg with h | h <;> rw [h]
      draw := by rcases hg with h | h <;> rw [h]
      fill := by rcases hg with h | h <;> rw [h]
      order := startList_queueGrant m l f s
      raise := fun k => by unfold Fba.hasRaise; rw [hf.1]
      start := fun k => by unfold Fba.hasStart; rw [hf.2]
      node := node_queueGrant m m l f s
      control := waiting_queueGrant m m l f s
      changes := queueGrant_changes m l f s }

/-! ## R70 -/

/-- R70: a machine's grant has been released. -/
structure Released (m : Addr) (s t : State) : Prop where
  record  : t.record m = s.record m
  granted : (t.grant m).granted = none
  freed   : (s.grant m).granted ≠ none → (t.grant m).draw = 0 ∧ (t.grant m).fill = false ∧ m ∉ t.fba.startList
  raise   : t.fba.hasRaise m = false
  start   : t.fba.hasStart m = false
  node    : t.node m = s.node m
  control : t.mbc.waiting m .control = s.mbc.waiting m .control
  others  : ∀ k, s.fba.hasStart k = false → t.record k = s.record k ∧ t.fba.hasStart k = false
  changes : ChangesOnly [.msv, .mbc, .fba] s t

/-- R70: the grant gone, before the queue is reviewed. -/
def ungranted (m : Addr) (s : State) : State :=
  let s1 := mapGrant m (fun e =>
    { e with granted := none, fill := false, draw := 0, heldSilent := false, held := false, draws := none }) s
  s1.withFba { s1.fba with startList := s1.fba.startList.filter (· != m) }

theorem releaseGrant_none {m : Addr} {s : State} (h : (s.grant m).granted = none) :
    releaseGrant m s = review (removeEntries m s) := by
  unfold releaseGrant; dsimp only; rw [h]

theorem releaseGrant_some {m : Addr} {s : State} {g : Level} (h : (s.grant m).granted = some g) :
    releaseGrant m s = review (if (s.grant m).pending then
      queueGrant m (lowestLevel g.kind) false (removeEntries m (ungranted m s)) else removeEntries m (ungranted m s)) := by
  unfold releaseGrant; dsimp only; rw [h]; rfl

theorem released_releaseGrant (m : Addr) (s : State) : Released m s (releaseGrant m s) := by
  cases hg : (s.grant m).granted with
  | none =>
    have hw := withdrawn_review m s
    rw [releaseGrant_none hg]
    exact
      { record := hw.record, granted := by rw [hw.grant, hg], freed := fun h => absurd hg h, raise := hw.raise, start := hw.start
        node := hw.bus.node, control := hw.bus.waits .control, others := hw.others, changes := hw.changes }
  | some g =>
    have hu : ChangesOnly [.fba] s (removeEntries m (ungranted m s)) :=
      ((mapGrant_changes m _ s).seq (withFba_changes _ _) (rs := [.fba])).seq (removeEntries_changes m _)
    have hug : (removeEntries m (ungranted m s)).grant m =
        { s.grant m with granted := none, fill := false, draw := 0, heldSilent := false, held := false, draws := none } :=
      PerMachine.at_put_self _ _ _
    have hul : m ∉ (removeEntries m (ungranted m s)).fba.startList := by
      show m ∉ s.fba.startList.filter (· != m)
      simp
    obtain ⟨hur, hus⟩ := removeEntries_none m (ungranted m s)
    have huo : ∀ k, s.fba.hasStart k = false → (removeEntries m (ungranted m s)).fba.hasStart k = false :=
      fun k hk => hasStart_removeEntries (s := ungranted m s) hk
    rw [releaseGrant_some hg]
    generalize removeEntries m (ungranted m s) = u at *
    have hv : Tells m u (if (s.grant m).pending then queueGrant m (lowestLevel g.kind) false u else u) := by
      split
      · exact tells_queueGrant m _ _ u
      · exact .refl m u
    generalize (if (s.grant m).pending then queueGrant m (lowestLevel g.kind) false u else u) = v at *
    have hap := apart_review v ((hv.raise m).trans hur) ((hv.start m).trans hus)
    have hbus := sameBus_review v ((hv.raise m).trans hur) ((hv.start m).trans hus)
    exact
      { record := hap.record.trans ((hv.changes.record m).trans (hu.record m))
        granted := by rw [hap.grant, hv.granted, hug]
        freed := fun _ => by
          refine ⟨by rw [hap.grant, hv.draw, hug], by rw [hap.grant, hv.fill, hug], ?_⟩
          exact notStarted_review v ((hv.start m).trans hus) (by rw [hv.order]; exact hul)
        raise := hap.raise.trans ((hv.raise m).trans hur)
        start := hap.start.trans ((hv.start m).trans hus)
        node := hbus.node.trans (hv.node.trans (hu.node m))
        control := (hbus.waits .control).trans (hv.control.trans (by rw [hu.at .mbc]))
        others := fun k hk => by
          obtain ⟨h1, h2⟩ := review_record v ((hv.start k).trans (huo k hk))
          exact ⟨h1.trans ((hv.changes.record k).trans (hu.record k)), h2⟩
        changes := (hu.seq hv.changes (rs := [.mbc, .fba])).seq (review_changes v) }

end Sys2Proof.Machine
end


section
/-! PROOF. ABORT CYCLE and SERVICE OUT (R142, R143, R145). -/
namespace Sys2Proof.Machine

theorem flagOf_of_gt {b : Byte} (h : 1 < b.toNat) : flagOf b = none := by
  unfold flagOf
  rw [if_neg (by rintro rfl; simp at h), if_neg (by rintro rfl; simp at h)]

section
variable {m : Addr} {s : State} {z : Session} {x : MState}

/-- R142, R145: a host's order on a session. -/
theorem ordered_hostAbort (hz : (s.record m).session = some z) (hx : (s.record m).standsIn x)
    (hxs : x = .armed ∨ x = .starting ∨ x = .running) {sev : Severity} (hsev : sev ≠ .retry) (cause : FaultCause) (wr : Bool) :
    let r := if wr then z.refund x s.sst.working.limits.grace else 0
    Ordered m z r x sev s (hostAbort m cause sev wr s) ∧
    (hostAbort m cause sev wr s).faults m = { (s.faults m).leftIn (sev.leaves x (s.record m).silent) with
      current := some { kind := none, cause := cause, severity := sev, escalated := false, stamp := s.stamp, state := x
                        payer := some z.payer, refund := some r, secondary := none } } :=
  ordered_primary hz hx hxs hsev cause wr

theorem SessionGone.of_changes {p r : Nat} {u t : State} (h : SessionGone s u m p r) {ps : List Part} (hc : ChangesOnly ps u t)
    (hm : ps.contains .msv = false := by rfl) (hcr : ps.contains .cru = false := by rfl)
    (hf : ps.contains .fba = false := by rfl) : SessionGone s t m p r := by
  obtain ⟨h1, h2, h3, h4, h5⟩ := h
  have hfba : t.fba = u.fba := hc.at .fba hf
  have hrec : t.record m = u.record m := hc.record m hm
  exact ⟨by rw [hrec]; exact h1, by rw [hrec]; exact h2, (hc.at .cru hcr).trans h3, by rw [hfba]; exact h4, by rw [hfba]; exact h5⟩

/-- R139, R142, R145: the record of an order is written behind the refund. -/
theorem Ordered.took {r : Nat} {sev : Severity} {u t : State} (h : Ordered m z r x sev s u) {b : RecordBody}
    (ht : t.jrn = (writeFree b u).jrn) : TookFree (s.refunded m z.payer r) t b :=
  .of_same h.books.jrn h.books.stamp ht

theorem refund_eq (z : Session) (x : MState) (grace : Nat) :
    z.refund x grace = if x = .running then z.refund .running grace else z.total := by
  split
  · next h => rw [h]
  · next h => exact refund_of_ne_running z grace h

theorem stop_leaves (x : MState) (silent : Bool) :
    Severity.stop.leaves x silent = if x = .running then .aborting else if silent then .offline else .faulted := by
  unfold Severity.leaves
  rw [if_neg (c := Severity.stop = .lockout) (by simp)]

theorem setOpenMark_faults (m : Addr) (b : Bool) (s : State) :
    (setOpenMark m b s).faults m = { s.faults m with openMark := b } := by simp [setOpenMark]

/-- R145: what ABORT CYCLE does to the machine, the journal aside. -/
def State.cycleAborted (s : State) (m : Addr) (wr : Bool) : State :=
  let s1 := hostAbort m .hostAbort .stop wr s
  if (s1.record m).state = .aborting ∨ (s1.record m).state = .faulted then setOpenMark m true s1 else s1

/-- R145: the order, and the open mark of the state it leaves. -/
theorem ordered_cycleAborted (hz : (s.record m).session = some z) (hx : (s.record m).standsIn x)
    (hxs : x = .armed ∨ x = .starting ∨ x = .running) (wr : Bool) :
    let r := if wr then z.refund x s.sst.working.limits.grace else 0
    Ordered m z r x .stop s (s.cycleAborted m wr) ∧
    (s.cycleAborted m wr).faults m = { s.faults m with
      current := some { kind := none, cause := .hostAbort, severity := .stop, escalated := false, stamp := s.stamp, state := x
                        payer := some z.payer, refund := some r, secondary := none }
      openMark := decide (Severity.stop.leaves x (s.record m).silent ≠ .offline) } := by
  obtain ⟨h, hf⟩ := ordered_hostAbort hz hx hxs (sev := .stop) (by simp) .hostAbort wr
  have hst : ((hostAbort m .hostAbort .stop wr s).record m).state = Severity.stop.leaves x (s.record m).silent := by rw [h.record]
  have hl := stop_leaves x (s.record m).silent
  unfold State.cycleAborted
  dsimp only
  rw [hst]
  generalize (if wr = true then z.refund x s.sst.working.limits.grace else 0) = r at *
  by_cases ho : Severity.stop.leaves x (s.record m).silent = .offline
  · rw [if_neg (by rw [ho]; simp), ho]
    exact ⟨h, by rw [hf, ho]; rfl⟩
  · rw [if_pos (by rw [hl] at ho ⊢; split <;> simp_all)]
    refine ⟨h.after (setFaults_changes m _ _), ?_⟩
    rw [setOpenMark_faults, hf]
    simp [FaultRecord.leftIn, ho]

theorem abortCycleOn_eq (hz : (s.record m).session = some z) (hx : (s.record m).standsIn x)
    (hxs : x = .armed ∨ x = .starting ∨ x = .running) (wr : Bool) :
    let r := if wr then z.refund x s.sst.working.limits.grace else 0
    abortCycleOn m wr s =
      (.ok (nat8 (Severity.stop.leaves x (s.record m).silent).code ++ nat24 r),
        writeFree { kind := .service, machine := addrNumber m, serial := some z.payer, amount := some r, detail := .abort }
          (s.cycleAborted m wr)) := by
  obtain ⟨h, _⟩ := ordered_hostAbort hz hx hxs (sev := .stop) (by simp) .hostAbort wr
  unfold abortCycleOn State.cycleAborted
  dsimp only
  rw [abortReport_of hz hx hxs (sev := .stop) (by simp) wr, h.record]
  rfl

end

/-- Settles O21: by the arguments, the state and the session. -/
theorem abortCycleActs : Obligations.AbortCycleActs := by
  intro n flag s hs
  refine ⟨_, rfl, ?_⟩
  rw [serve_of_serves hs]
  refine ⟨fun hn => onlyReplies_answer ?_, fun m hm hfl => ⟨fun hx => onlyReplies_answer ?_, fun hx hz => refuses_answer ?_,
    fun z x hz hx hxs => ?_⟩⟩
  · unfold abortCycle
    rcases hn with h | h | h
    · rw [machineOf_eq_none (.inl h)]; rfl
    · rw [machineOf_eq_none (.inr h)]; rfl
    · rw [flagOf_of_gt h]; cases machineOf n.toNat <;> rfl
  · unfold abortCycle
    simp only [machineOf_eq_some hm, flagOf_of_le hfl, hx, if_true]
    rfl
  · unfold abortCycle
    simp only [machineOf_eq_some hm, flagOf_of_le hfl, hx, if_false, hz, Option.isNone_none, if_true]
  · have hne : (s.record m).state ≠ .reserved := by
      rcases hx with hx | ⟨hx, _⟩
      · rw [hx]; rcases hxs with rfl | rfl | rfl <;> simp
      · rw [hx]; simp
    have heq : abortCycle n flag s = abortCycleOn m (flag == 1#8) s := by
      unfold abortCycle
      simp only [machineOf_eq_some hm, flagOf_of_le hfl, hne, if_false, hz, Option.isNone_some, Bool.false_eq_true]
    obtain ⟨h, hf⟩ := ordered_cycleAborted hz hx hxs (flag == 1#8)
    have hset := heq.trans (abortCycleOn_eq hz hx hxs (flag == 1#8))
    have hamount : (if (flag == 1#8) = true then z.refund x s.sst.working.limits.grace else 0) =
        if flag = 1#8 then if x = .running then z.refund .running s.sst.working.limits.grace else z.total else 0 := by
      rw [refund_eq]; simp only [beq_iff_eq]
    dsimp only at h hf hset ⊢
    rw [hamount] at h hf hset
    rw [stop_leaves] at hf hset
    rw [answerRequest_eq hset]
    generalize (if flag = 1#8 then if x = MState.running then z.refund .running s.sst.working.limits.grace else z.total else 0) = r at *
    generalize s.cycleAborted m (flag == 1#8) = u at *
    generalize hb : ({ kind := .service, machine := addrNumber m, serial := some z.payer, amount := some r, detail := .abort } : RecordBody) = b
    have hw := writeFree_changes b u
    have hfault := (writeFree_setsAmong b u).flag .fault
    have htook := h.took (t := writeFree b u) rfl
    have hhli : (writeFree b u).hli = s.hli := (hw.at .hli).trans (h.changes.at .hli)
    generalize writeFree b u = v at *
    have hut : ∀ a : Reply, ChangesOnly [.jrn, .evu, .hli] u (putReply a false v) := fun a => hw.seq (putReply_changes a false v)
    have hrec := h.record
    rw [stop_leaves] at hrec
    refine ⟨h.gone.of_changes (hut _), ?_, fun hr => ?_, fun hn => ?_, ?_, htook, ?_, holds_putReply hhli _⟩
    · rw [(hut _).record, hrec]
    · rw [(hut _).record, hrec]; exact if_pos hr
    · exact (h.command hn).of_sameBus ((hut _).sameBus m)
    · rw [(hut _).faults, hf]
    · exact hfault.trans (h.flags.flag .fault)

/-! ## SERVICE OUT (R142, R143) -/

theorem enterState_out (m : Addr) (s : State) :
    enterState m .outOfService s = mapRecord m (fun r => { r with state := .outOfService, unloadTimer := 0 }) s := rfl

/-- R143, R25: a machine confirmed off. -/
structure ConfirmedOff (m : Addr) (s t : State) : Prop where
  record  : t.record m = { s.record m with state := .outOfService, stopDest := none, unloadTimer := 0 }
  granted : (t.grant m).granted = none
  freed   : (s.grant m).granted ≠ none → (t.grant m).draw = 0 ∧ m ∉ t.fba.startList
  raise   : t.fba.hasRaise m = false
  start   : t.fba.hasStart m = false
  node    : t.node m = s.node m
  control : t.mbc.waiting m .control = s.mbc.waiting m .control
  changes : ChangesOnly [.msv, .mbc, .fba] s t

theorem confirmedOff_confirmOff (m : Addr) (s : State) : ConfirmedOff m s (confirmOff m s) := by
  have hr := released_releaseGrant m s
  unfold confirmOff
  rw [enterState_out]
  generalize releaseGrant m s = u at *
  have hc : ChangesOnly [.msv] u (mapRecord m (fun r => { r with state := .outOfService, unloadTimer := 0 })
      (mapRecord m (fun x => { x with stopDest := none }) u)) := (mapRecord_changes m _ u).seq (mapRecord_changes m _ _)
  have hrec : (mapRecord m (fun r => { r with state := .outOfService, unloadTimer := 0 })
      (mapRecord m (fun x => { x with stopDest := none }) u)).record m =
      { u.record m with state := .outOfService, stopDest := none, unloadTimer := 0 } := by simp [mapRecord]
  generalize mapRecord m (fun r => { r with state := .outOfService, unloadTimer := 0 })
    (mapRecord m (fun x => { x with stopDest := none }) u) = t at *
  have hfba : t.fba = u.fba := hc.at .fba
  have hmbc : t.mbc = u.mbc := hc.at .mbc
  exact
    { record := by rw [hrec, hr.record]
      granted := by rw [hc.grant]; exact hr.granted
      freed := fun h => by rw [hc.grant, hfba]; exact ⟨(hr.freed h).1, (hr.freed h).2.2⟩
      raise := by rw [hfba]; exact hr.raise
      start := by rw [hfba]; exact hr.start
      node := (hc.node m).trans hr.node
      control := by rw [hmbc]; exact hr.control
      changes := hr.changes.seq hc }

section
variable {m : Addr} {s u : State} {z : Session} {x : MState} {off : Bool}

/-- R142: what an accepted SERVICE OUT leaves behind what it did to the machine. -/
theorem answered_serviceOut {f : Service} {e : Ended} (h : f s = serviceOutDone m e u) :
    let t := answerRequest 0x19#8 false f s
    ChangesOnly [.jrn, .evu, .hli] u t ∧ t.jrn = (writeFree (serviceBody m .out e) u).jrn ∧ t.evu.isSet .lockout = true ∧
    (u.hli = s.hli → Replies s t 0x99#8 .ok (nat8 (u.record m).state.code)) := by
  have hw : ChangesOnly [.jrn, .evu] u (setEvent .lockout (writeFree (serviceBody m .out e) u)) :=
    (writeFree_changes _ u).seq (setEvent_changes _ _)
  have hset : f s = (.ok (nat8 (u.record m).state.code), setEvent .lockout (writeFree (serviceBody m .out e) u)) := by
    rw [h]; unfold serviceOutDone; dsimp only; rw [hw.record]
  dsimp only
  refine ⟨?_, ?_, ?_, fun hu => replies_answer hset ((hw.at .hli).trans hu)⟩ <;> rw [answerRequest_eq hset]
  · exact hw.seq (putReply_changes _ _ _)
  · rfl
  · exact (setEvent_isSet .lockout .lockout _).trans rfl

/-- R142: a machine at rest. -/
theorem serviceOutOn_rest (h : (s.record m).state = .idle ∨ (s.record m).state = .done ∨ (s.record m).state = .faulted ∨
    (s.record m).state = .offline) : serviceOutOn m off s = serviceOutDone m none (enterState m .outOfService s) := by
  unfold serviceOutOn
  dsimp only
  rcases h with h | h | h | h <;> rw [h]

theorem serviceOutOn_aborting (h : (s.record m).state = .aborting) :
    serviceOutOn m off s = serviceOutDone m none
      (if off && (s.record m).silent then confirmOff m (mapRecord m (fun x => { x with stopDest := some .outOfService }) s)
       else mapRecord m (fun x => { x with stopDest := some .outOfService }) s) := by
  unfold serviceOutOn abortIn MachineRecord.confirmable
  dsimp only
  rw [h]

/-- R142: what SERVICE OUT does to a session, confirmed off aside. -/
def State.servicedOut (s : State) (m : Addr) : State := setOpenMark m true (hostAbort m .hostOut .lockout true s)

theorem confirmable_of_standsIn (hx : (s.record m).standsIn x) (hxs : x = .armed ∨ x = .starting ∨ x = .running) :
    (s.record m).confirmable = true ↔ x = .running ∧ ((s.record m).silent = true ∨ (s.record m).state = .recovering) := by
  unfold MachineRecord.confirmable
  rcases hx with hx | ⟨hx, hret⟩
  · rw [hx]
    rcases hxs with rfl | rfl | rfl <;> simp
  · obtain ⟨t, ht, rfl⟩ := Option.map_eq_some_iff.mp hret
    rw [hx, ht]
    cases t <;> simp [Retained.state]

theorem serviceOutOn_session (hz : (s.record m).session = some z) (hx : (s.record m).standsIn x)
    (hxs : x = .armed ∨ x = .starting ∨ x = .running) :
    serviceOutOn m off s = serviceOutDone m (some (z.payer, z.refund x s.sst.working.limits.grace))
      (if off && (s.record m).confirmable then confirmOff m (s.servicedOut m) else s.servicedOut m) := by
  have hr := abortReport_of hz hx hxs (sev := .lockout) (by simp) true
  rw [if_pos rfl] at hr
  rw [← hr]
  unfold serviceOutOn State.servicedOut
  dsimp only
  rcases hx with hx | ⟨hx, _⟩
  · rw [hx]; rcases hxs with rfl | rfl | rfl <;> rfl
  · rw [hx]

theorem ordered_servicedOut (hz : (s.record m).session = some z) (hx : (s.record m).standsIn x)
    (hxs : x = .armed ∨ x = .starting ∨ x = .running) :
    let r := z.refund x s.sst.working.limits.grace
    Ordered m z r x .lockout s (s.servicedOut m) ∧
    (s.servicedOut m).faults m = { s.faults m with
      current := some { kind := none, cause := .hostOut, severity := .lockout, escalated := false, stamp := s.stamp, state := x
                        payer := some z.payer, refund := some r, secondary := none }
      openMark := true } := by
  obtain ⟨h, hf⟩ := ordered_hostAbort hz hx hxs (sev := .lockout) (by simp) .hostOut true
  refine ⟨h.after (setOpenMark_changes m true _), ?_⟩
  unfold State.servicedOut
  rw [setOpenMark_faults, hf]
  rfl

end

/-- Settles O19: a machine at rest, an ABORTING one and a session, each confirmed off or not. -/
theorem serviceOutActs : Obligations.ServiceOutActs := by
  intro n off s hs
  refine ⟨_, rfl, ?_⟩
  rw [serve_of_serves hs]
  refine ⟨fun hn => onlyReplies_answer ?_, fun m hm hoff => ?_⟩
  · unfold serviceOut
    rcases hn with h | h | h
    · rw [machineOf_eq_none (.inl h)]; rfl
    · rw [machineOf_eq_none (.inr h)]; rfl
    · rw [flagOf_of_gt h]; cases machineOf n.toNat <;> rfl
  have heq : serviceOut n off s = serviceOutOn m (off == 1#8) s := by
    unfold serviceOut
    rw [machineOf_eq_some hm, flagOf_of_le hoff]
  refine ⟨fun hx => onlyReplies_answer (heq.trans ?_), fun hx => refuses_answer (heq.trans ?_),
    fun hx => onlyReplies_answer (heq.trans ?_), fun hx => ?_, fun hx => ?_, fun z x hz hx hxs => ?_⟩
  · unfold serviceOutOn; dsimp only; rw [hx]; rfl
  · unfold serviceOutOn; dsimp only; rw [hx]
  · unfold serviceOutOn; dsimp only; rw [hx]; rfl
  · obtain ⟨hc, hj, hl, hrep⟩ := answered_serviceOut (heq.trans (serviceOutOn_rest hx))
    rw [enterState_out] at *
    have hm := mapRecord_changes m (fun r => { r with state := .outOfService, unloadTimer := 0 }) s
    have hst : ((mapRecord m (fun r => { r with state := .outOfService, unloadTimer := 0 }) s).record m).state = .outOfService := by
      simp [mapRecord]
    rw [hst] at hrep
    exact ⟨(hc.at .msv).trans rfl, .of_same (hm.at .jrn) hm.stamp hj, hl, hrep (hm.at .hli), hm.seq hc⟩
  · obtain ⟨hc, hj, hl, hrep⟩ := answered_serviceOut (heq.trans (serviceOutOn_aborting hx))
    have hm := mapRecord_changes m (fun x => { x with stopDest := some .outOfService }) s
    have hmsv : (mapRecord m (fun x => { x with stopDest := some .outOfService }) s).msv =
        { s.msv with records := s.msv.records.put m { s.record m with stopDest := some .outOfService } } := rfl
    have hrec : (mapRecord m (fun x => { x with stopDest := some .outOfService }) s).record m =
        { s.record m with stopDest := some .outOfService } := by simp [mapRecord]
    generalize mapRecord m (fun x => { x with stopDest := some .outOfService }) s = v at *
    have hoff : (off == 1#8 && (s.record m).silent) = true ↔ off = 1#8 ∧ (s.record m).silent = true := by simp
    by_cases hb : (off == 1#8 && (s.record m).silent) = true
    · rw [if_pos hb] at *
      obtain ⟨h1, h2⟩ := hoff.mp hb
      have hconf := confirmedOff_confirmOff m v
      generalize confirmOff m v = w at *
      have hsw : ChangesOnly [.msv, .mbc, .fba] s w := hm.seq hconf.changes
      have hrw := hconf.record
      have hfba : (answerRequest 0x19#8 false (serviceOut n off) s).fba = w.fba := hc.at .fba
      rw [hrw] at hrep
      refine ⟨.of_same (hsw.at .jrn) hsw.stamp hj, hl, (hc.at .flm).trans (hsw.at .flm), fun h => ?_, fun _ _ => ⟨?_, ?_, fun hg => ?_,
        hrep (hsw.at .hli)⟩, hsw.seq hc⟩
      · rcases h with rfl | h
        · exact absurd h1 (by decide)
        · rw [h] at h2; cases h2
      · rw [hc.record, hrw, hrec]
      · rw [hc.grant]; exact hconf.granted
      · rw [hc.grant, hfba]
        exact hconf.freed (by rw [hm.grant]; exact hg)
    · rw [if_neg hb] at *
      rw [hrec] at hrep
      refine ⟨.of_same (hm.at .jrn) hm.stamp hj, hl, (hc.at .flm).trans (hm.at .flm),
        fun _ => ⟨(hc.at .msv).trans hmsv, (hc.at .fba).trans (hm.at .fba), ?_⟩, fun h1 h2 => absurd (hoff.mpr ⟨h1, h2⟩) hb,
        (hm.seq hc (rs := [.msv, .mbc, .fba, .jrn, .evu, .hli]))⟩
      rw [← hx]
      exact hrep (hm.at .hli)
  · obtain ⟨hc, hj, hl, hrep⟩ := answered_serviceOut (heq.trans (serviceOutOn_session hz hx hxs))
    obtain ⟨h, hf⟩ := ordered_servicedOut hz hx hxs
    have hconfirm := confirmable_of_standsIn hx hxs
    dsimp only at h hf ⊢
    rw [refund_eq z x] at h hf hj
    generalize (if x = MState.running then z.refund .running s.sst.working.limits.grace else z.total) = r at *
    generalize s.servicedOut m = u at *
    generalize answerRequest 0x19#8 false (serviceOut n off) s = t at *
    have hl' : Severity.lockout.leaves x (s.record m).silent = if x = .running then .aborting else .outOfService := rfl
    have hrec := h.record
    rw [hl'] at hrec
    have hoff : (off == 1#8 && (s.record m).confirmable) = true ↔
        off = 1#8 ∧ x = .running ∧ ((s.record m).silent = true ∨ (s.record m).state = .recovering) := by simp [hconfirm]
    have hhli : u.hli = s.hli := h.changes.at .hli
    by_cases hb : (off == 1#8 && (s.record m).confirmable) = true
    · rw [if_pos hb] at *
      obtain ⟨h1, hxr, h2⟩ := hoff.mp hb
      have hconf := confirmedOff_confirmOff m u
      generalize confirmOff m u = w at *
      have hrw := hconf.record
      have hgone : SessionGone s w m z.payer r :=
        ⟨by rw [hrw, hrec], by rw [hrw, hrec], (hconf.changes.at .cru).trans h.books.cru, hconf.start, hconf.raise⟩
      have hfba : t.fba = w.fba := hc.at .fba
      have hmbc : t.mbc = w.mbc := hc.at .mbc
      rw [hrw] at hrep
      refine ⟨hgone.of_changes hc, ?_, ?_, hl, fun hne => absurd hxr hne, fun _ => ⟨fun hn => ?_, fun hno => absurd ⟨h1, h2⟩ hno,
        fun _ => ⟨?_, ?_, fun hg => ?_, hrep ((hconf.changes.at .hli).trans hhli)⟩⟩⟩
      · rw [hc.faults, hconf.changes.faults, hf]
      · exact .of_same ((hconf.changes.at .jrn).trans h.books.jrn) (hconf.changes.stamp.trans h.books.stamp) hj
      · have := h.command hn
        unfold Commanded at this ⊢
        rw [hmbc, hconf.control, this, hxr]
        rfl
      · rw [hc.record, hrw]
      · rw [hc.grant]; exact hconf.granted
      · rw [hc.grant, hfba]
        exact hconf.freed (by rw [h.grant]; exact hg)
    · rw [if_neg hb] at *
      rw [hrec] at hrep
      have hrt : t.record m = u.record m := hc.record m
      rw [hrec] at hrt
      refine ⟨h.gone.of_changes hc, ?_, h.took hj, hl, fun hne => ⟨?_, fun hn => ?_, ?_⟩, fun hxr => ⟨fun hn => ?_, fun _ => ⟨?_, ?_, ?_, ?_⟩,
        fun hrel => absurd (hoff.mpr ⟨hrel.1, hxr, hrel.2⟩) hb⟩⟩
      · rw [hc.faults, hf]
      · rw [hrt]; exact if_neg hne
      · have := (h.command hn).of_sameBus (hc.sameBus m)
        unfold MState.orderCommand at this
        rwa [if_neg hne] at this
      · have := hrep hhli
        dsimp only at this
        rwa [if_neg hne] at this
      · have := (h.command hn).of_sameBus (hc.sameBus m)
        unfold MState.orderCommand at this
        rwa [if_pos hxr] at this
      · rw [hrt]; exact if_pos hxr
      · rw [hrt]; exact if_pos hxr
      · rw [hc.grant, h.grant]
      · have := hrep hhli
        dsimp only at this
        rwa [if_pos hxr] at this

end Sys2Proof.Machine
end


section
/-! PROOF. DONE for a new purchase (R8, R87). -/
namespace Sys2Proof.Machine

/-- R8: the session created and ARM queued, before a lockout pending or a CLOSED room ends it. -/
def armed (o : Order) (s : State) : State :=
  queueArm o.machine (s.setRecord o.machine { s.record o.machine with
    state := .armed, reserving := none, lockoutPending := false
    session := some (o.session s.sst.working.limits.startWindow)
    silenceTimer := if (s.record o.machine).silent then Config.silenceSeconds else 0 })

theorem armMachine_eq (o : Order) (s : State) :
    armMachine o s =
      if (s.record o.machine).lockoutPending then orderAbort o.machine .lockout true (armed o s)
      else if s.sst.roomMode = .closed then disarmRefund o.machine (armed o s) else armed o s := rfl

/-- R8: what creating the session leaves. -/
structure Armed (o : Order) (s t : State) : Prop where
  record  : t.record o.machine = { s.record o.machine with
    state := .armed, reserving := none, lockoutPending := false
    session := some (o.session s.sst.working.limits.startWindow)
    silenceTimer := if (s.record o.machine).silent then 300 else 0 }
  others  : ∀ k, k ≠ o.machine → t.record k = s.record k
  node    : t.node o.machine = s.node o.machine
  command : (s.node o.machine).known = true → Commanded t o.machine (.arm o.program o.option)
  changes : ChangesOnly [.msv, .mbc] s t

/-- R9: ARM queued for a session. -/
theorem queueArm_of {m : Addr} {s : State} {z : Session} (hz : (s.record m).session = some z) :
    queueArm m s = queueControl m (.arm z.program z.option) (s.mapSession m fun z => { z with armAcked := false }) := by
  unfold queueArm; rw [hz]

theorem armed_armed (o : Order) (s : State) : Armed o s (armed o s) := by
  unfold armed
  generalize hr : ({ s.record o.machine with
    state := .armed, reserving := none, lockoutPending := false
    session := some (o.session s.sst.working.limits.startWindow)
    silenceTimer := if (s.record o.machine).silent then Config.silenceSeconds else 0 } : MachineRecord) = r
  have hz : ((s.setRecord o.machine r).record o.machine).session = some (o.session s.sst.working.limits.startWindow) := by
    rw [State.record_setRecord, if_pos rfl, ← hr]
  rw [queueArm_of hz]
  have h1 := setRecord_changes o.machine r s
  have h2 := mapSession_changes o.machine (fun z => { z with armAcked := false }) (s.setRecord o.machine r)
  have hself := mapSession_record hz fun z => { z with armAcked := false }
  have hother : ∀ k, k ≠ o.machine → _ := fun k h => mapSession_record_ne h (fun z => { z with armAcked := false }) (s.setRecord o.machine r)
  generalize (s.setRecord o.machine r).mapSession o.machine (fun z => { z with armAcked := false }) = u at *
  have h12 := h1.seq h2 (rs := [.msv])
  have h3 := queueControl_changes o.machine (.arm (o.session s.sst.working.limits.startWindow).program
    (o.session s.sst.working.limits.startWindow).option) u
  exact
    { record := by
        rw [h3.record, hself, State.record_setRecord, if_pos rfl, ← hr]
        rfl
      others := fun k hk => by rw [h3.record, hother k hk, State.record_setRecord, if_neg (Ne.symm hk)]
      node := (node_queueControl _ _ _ _).trans (h12.node _)
      command := fun hn => commanded_queueControl rfl (by rw [h12.node]; exact hn)
      changes := h12.seq h3 }

/-- R87 step 5: the answer to a sale. -/
theorem answerSale_armed {st : Station} {o : Order} {l : Bool} {s : State} (h : (s.record o.machine).state = .armed) :
    LineShows (answerSale st o l s) st (match o.figures with
      | .washer _ _ _ => .receiptWasher o.machine o.program
      | .dryer _ _ _ _ => .receiptDryer o.machine (o.minutes.getD 0) (o.minutes.getD 0)) := by
  unfold answerSale
  rw [if_pos h]
  cases o.figures <;> exact lineShows_sendStation st _ _

theorem answerSale_ended {st : Station} {o : Order} {l : Bool} {s : State} (h : (s.record o.machine).state ≠ .armed)
    (hl : l = true ∨ s.sst.roomMode = .closed) :
    LineShows (answerSale st o l s) st (.decline (if s.sst.roomMode = .closed then .roomClosed else .machineOut)
      (if 99999 < o.newBalance then 0 else o.newBalance)) := by
  unfold answerSale
  rw [if_neg h]
  by_cases hc : s.sst.roomMode = .closed
  · rw [if_pos hc, if_pos hc]; exact lineShows_sendDecline st _ _ _
  · rw [if_neg hc, if_neg hc, if_pos (hl.resolve_right hc)]; exact lineShows_sendDecline st _ _ _

/-- R8, R20, R22: the session ended right after DONE: what a lockout pending and a CLOSED room leave alike. -/
structure EndedAtOnce (o : Order) (s t : State) : Prop where
  session   : (t.record o.machine).session = none
  timer     : (t.record o.machine).silenceTimer = 0
  reserving : (t.record o.machine).reserving = none
  lockout   : (t.record o.machine).lockoutPending = false
  start     : t.fba.hasStart o.machine = false
  raise     : t.fba.hasRaise o.machine = false
  books     : SameBooks (s.refunded o.machine o.serial o.charge) t
  command   : (s.node o.machine).known = true → Commanded t o.machine .disarm
  changes   : ChangesOnly sessionParts s t

theorem Disarmed.faults {m : Addr} {z : Session} {s t : State} (h : Disarmed m z s t) :
    t.faults m = { s.faults m with openMark := false } := by
  unfold State.faults
  rw [h.flm]
  exact PerMachine.at_put_self _ _ _

section
variable {o : Order} {s : State}

/-- R8, R20: a lockout pending ends the new session. -/
theorem armMachine_lockout (hl : (s.record o.machine).lockoutPending = true) :
    let t := armMachine o s
    EndedAtOnce o s t ∧ (t.record o.machine).state = .outOfService ∧
    t.faults o.machine = { s.faults o.machine with
      current := (s.faults o.machine).current.map fun c => { c with payer := some o.serial, refund := some o.charge } } := by
  have ha := armed_armed o s
  rw [armMachine_eq, if_pos hl]
  obtain ⟨h, hf⟩ := ordered_orderAbort (s := armed o s) (x := .armed) (sev := .lockout)
    (by rw [ha.record]) (.inl (by rw [ha.record])) (.inl rfl) (by simp) true
  generalize armed o s = v at *
  dsimp only at h ⊢
  have hrec := h.record
  rw [ha.record] at hrec
  have hstart := h.start
  have hraise := h.raise
  have hcommand := h.command
  have hch := ha.changes.seq h.changes (rs := sessionParts)
  have hbooks := (booksOnly_refunded o.machine o.serial o.charge _ _ ha.changes.sameBooks).trans h.books
  generalize orderAbort o.machine .lockout true v = t at *
  refine ⟨⟨by rw [hrec], by rw [hrec], by rw [hrec], by rw [hrec], hstart, hraise, hbooks, fun hn => ?_, hch⟩, by rw [hrec]; rfl, ?_⟩
  · exact hcommand (by rw [ha.node]; exact hn)
  · rw [hf, ha.changes.faults]
    rfl

/-- R8, R22: a CLOSED room ends the new session. -/
theorem armMachine_closed (hl : (s.record o.machine).lockoutPending = false) (hc : s.sst.roomMode = .closed) :
    let t := armMachine o s
    EndedAtOnce o s t ∧ (t.record o.machine).state = (if (s.record o.machine).silent then .offline else .idle) ∧
    t.faults o.machine = { s.faults o.machine with openMark := false } := by
  have ha := armed_armed o s
  rw [armMachine_eq, if_neg (by rw [hl]; exact Bool.false_ne_true), if_pos hc]
  have h := disarmed_disarmRefund (m := o.machine) (s := armed o s) (z := o.session s.sst.working.limits.startWindow) (by rw [ha.record])
  generalize armed o s = v at *
  dsimp only
  have hrec := h.record
  rw [ha.record] at hrec
  have hbooks := (booksOnly_refunded o.machine o.serial o.charge _ _ ha.changes.sameBooks).trans h.books
  refine ⟨⟨by rw [hrec], by rw [hrec], by rw [hrec], by rw [hrec], h.start, h.raise, hbooks, fun hn => ?_,
    ha.changes.seq h.changes⟩, by rw [hrec], ?_⟩
  · exact h.command (by rw [ha.node]; exact hn)
  · rw [h.faults, ha.changes.faults]

end

/-- Settles O27: the record and the settlement, then the new session, alone or ended at once. -/
theorem resultDoneArms : Obligations.ResultDoneArms := by
  intro st msg o s hrun ho hb hp hn hout hk
  refine ⟨_, exec_doneNew hrun ho hn hout hk hp, ?_⟩
  obtain ⟨hbooks, hback⟩ := recorded_books .sale .sale hb ho
  have hev := recorded_event .sale .sale o s
  have hc := recorded_changes .sale .sale o s
  have heq : doneNew st o s = answerSale st o (s.record o.machine).lockoutPending (idleExchange st (armMachine o (recorded .sale .sale o s))) := rfl
  rw [heq]
  generalize recorded .sale .sale o s = u at *
  obtain ⟨hsteady, _, hpay, _, _⟩ := armMachine_spends o u
  have hrec : u.record o.machine = s.record o.machine := hc.record _
  have hmode : u.sst.roomMode = s.sst.roomMode := by rw [hc.at .sst]
  have harm := armMachine_changes o u
  have hclosed := armMachine_closed (o := o) (s := u)
  have hlockout := armMachine_lockout (o := o) (s := u)
  have hplain : (u.record o.machine).lockoutPending = false → u.sst.roomMode ≠ .closed → Armed o u (armMachine o u) := fun h1 h2 => by
    rw [armMachine_eq, if_neg (by rw [h1]; exact Bool.false_ne_true), if_neg h2]; exact armed_armed o u
  generalize armMachine o u = w at *
  have hi := idleExchange_changes st w
  have ha := answerSale_changes st o (s.record o.machine).lockoutPending (idleExchange st w)
  have hline := answerSale_armed (st := st) (o := o) (l := (s.record o.machine).lockoutPending) (s := idleExchange st w)
  have hdecl := answerSale_ended (st := st) (o := o) (l := (s.record o.machine).lockoutPending) (s := idleExchange st w)
  have hid : Idled st s (answerSale st o (s.record o.machine).lockoutPending (idleExchange st w)) :=
    idled (hpay.trans (hc.at .pay)) (ha.at .pay)
  generalize answerSale st o (s.record o.machine).lockoutPending (idleExchange st w) = t at *
  have hwt : ChangesOnly [.pay, .out] w t := hi.seq ha
  have hevu : t.evu = w.evu := hwt.at .evu
  rw [hi.record, hi.at .sst] at hdecl
  rw [hi.record] at hline
  refine ⟨by rw [hevu]; exact hsteady.flags _ hev, fun h => by rw [hevu]; exact hsteady.flags _ (hback h), hid.here, hid.there,
    hid.halted, fun h1 h2 => ?_, fun h => ?_⟩
  · have h := hplain (by rw [hrec]; exact h1) (by rw [hmode]; exact h2)
    have hcw : ChangesOnly [.msv, .mbc, .cru, .jrn, .evu] s w := hc.seq h.changes
    refine ⟨?_, ?_, ?_, fun k hk => ?_, fun hn => ?_, hline (by rw [h.record]), hcw.seq hwt⟩
    · rw [hwt.at .cru, h.changes.at .cru, hbooks.cru]
    · rw [hwt.at .jrn, h.changes.at .jrn, hbooks.jrn]
    · have hsame : s.record o.machine = { s.record o.machine with lockoutPending := false } := by rw [← h1]
      rw [hwt.record, h.record, hrec, hc.at .sst]
      conv_rhs => rw [hsame]
      rfl
    · rw [hwt.record, h.others k hk, hc.record]
    · exact (h.command (by rw [hc.node]; exact hn)).of_sameBus (hwt.sameBus _)
  · have hend : EndedAtOnce o u w := by
      by_cases hl : (u.record o.machine).lockoutPending = true
      · exact (hlockout hl).1
      · exact (hclosed (by simpa using hl) (hmode.trans (h.resolve_left (by rw [← hrec]; exact hl)))).1
    have hb2 := (booksOnly_refunded o.machine o.serial o.charge _ _ hbooks).trans hend.books
    have hwm : w.sst.roomMode = s.sst.roomMode := by rw [harm.at .sst]; exact hmode
    have hwrec : t.record o.machine = w.record o.machine := hwt.record _
    have hfba : t.fba = w.fba := hwt.at .fba
    have hne : (w.record o.machine).state ≠ .armed := by
      by_cases hl : (u.record o.machine).lockoutPending = true
      · rw [(hlockout hl).2.1]; simp
      · rw [(hclosed (by simpa using hl) (hmode.trans (h.resolve_left (by rw [← hrec]; exact hl)))).2.1]
        split <;> simp
    rw [hwm] at hdecl
    refine ⟨⟨by rw [hwrec]; exact hend.session, by rw [hwrec]; exact hend.timer, (hwt.at .cru).trans hb2.cru,
      by rw [hfba]; exact hend.start, by rw [hfba]; exact hend.raise⟩, (hwt.at .jrn).trans hb2.jrn, fun hn => ?_,
      by rw [hwrec]; exact hend.reserving, by rw [hwrec]; exact hend.lockout, fun hl => ?_, fun hl => ?_, hdecl hne h,
      (hc.seq hend.changes (rs := [.msv, .mbc, .fba, .cru, .flm, .jrn, .evu])).seq hwt⟩
    · exact (hend.command (by rw [hc.node]; exact hn)).of_sameBus (hwt.sameBus _)
    · obtain ⟨_, h1, h2⟩ := hclosed (by rw [hrec]; exact hl) (hmode.trans (h.resolve_left (by rw [hl]; exact Bool.false_ne_true)))
      exact ⟨by rw [hwrec, h1, hrec], by rw [hwt.faults, h2, hc.faults]⟩
    · obtain ⟨_, h1, h2⟩ := hlockout (by rw [hrec]; exact hl)
      exact ⟨by rw [hwrec, h1], by rw [hwt.faults, h2, hc.faults]⟩

end Sys2Proof.Machine
end


section
/-! PROOF. The uncertain outcome of an order (R90, R91, R125). -/
namespace Sys2Proof.Machine

/-- What an uncertain outcome of an order rests on. -/
structure Uncertains (st : Station) (o : Order) (s : State) : Prop where
  order    : (s.exchange st).order = some o
  settles  : Settles o s.cru
  slots    : 3 + s.cru.refunds.length + s.cru.pendings.length ≤ s.jrn.reservations
  pendings : PendingsFit s.cru.pendings

theorem uncertains_of_booksReady {s : State} {st : Station} {o : Order} (hb : s.BooksReady) (ho : (s.exchange st).order = some o) :
    Uncertains st o s := ⟨ho, settles_of_booksReady hb ho, reserved_of_booksReady hb ho, hb.1.2.1, hb.1.2.2.1⟩

section
variable {st : Station} {o : Order} {s v : State} {cause : Detail}

/-! ## Eviction (R125) -/

/-- The serial that the other station's exchange has resolved and awaits (R124). -/
def Order.resolvesSerial (other : Option Order) (k : Nat) : Bool := other.any fun x => x.serial == k && x.resolution.isSome

theorem resolves_eq (x : Exchange) (k : Nat) : x.resolves k = Order.resolvesSerial x.order k := by
  unfold Exchange.resolves Order.resolvesSerial
  cases x.order <;> rfl

/-- R124: while this exchange has resolved nothing, only the other one's serial is in flight. -/
theorem inFlight_eq (ho : (s.exchange st).order = some o) (hres : o.resolution = none) (k : Nat) :
    s.inFlight k = Order.resolvesSerial (s.exchange (otherStation st)).order k := by
  have hself : Order.resolvesSerial (s.exchange st).order k = false := by rw [ho]; simp [Order.resolvesSerial, hres]
  unfold State.inFlight
  rw [resolves_eq, resolves_eq]
  cases st
  · exact (congrArg (· || _) hself).trans (Bool.false_or _)
  · exact (congrArg (_ || ·) hself).trans (Bool.or_false _)

/-- R125: the eviction that a new pending debit brings. -/
theorem evicting (hu : Uncertains st o s) (hres : o.resolution = none) (hv : ChangesOnly [.jrn, .evu] s v)
    {b : RecordBody} (hj : v.jrn = s.jrn.wrote s.stamp [b] 1) :
    let gone := s.evictedFor o (s.exchange (otherStation st)).order
    let t := if 8 ≤ v.cru.pendings.length then evictPending v else v
    t.jrn = s.jrn.wrote s.stamp (b :: (gone.map PendingEntry.evictedBody).toList) (1 + gone.toList.length) ∧
    t.cru = { refunds := s.cru.refunds.map fun e => if gone.any (·.serial == e.serial) then { e with pledged := false } else e
              pendings := s.cru.pendings.filter fun p => !gone.any (·.serial == p.serial) } ∧
    (gone.isSome = true → t.evu.isSet .debitUnresolved = true) ∧ (gone = none → t = v) := by
  have hcru : v.cru = s.cru := hv.at .cru
  have hpay : v.pay = s.pay := hv.at .pay
  rw [hcru]
  by_cases hl : 8 ≤ s.cru.pendings.length
  · obtain ⟨q, hq, hqf⟩ := exists_not_inFlight (s := s) hu.pendings hl (resolves_of_none hu.order hres)
    obtain ⟨p, hp⟩ : ∃ p, s.cru.pendings.find? (fun p => !s.inFlight p.serial) = some p := by
      rw [← Option.isSome_iff_exists, List.find?_isSome]; exact ⟨q, hq, by simp [hqf]⟩
    have hgone : s.evictedFor o (s.exchange (otherStation st)).order = some p := by
      unfold State.evictedFor
      rw [if_pos ⟨hres, hl⟩]
      simp only [inFlight_eq hu.order hres] at hp
      exact hp
    have hevict : evictPending v = dropPending p none none .evicted v := by
      have hfl : ∀ k, v.inFlight k = s.inFlight k := fun k => by unfold State.inFlight; rw [hpay]
      unfold evictPending
      simp only [hfl, hcru, hp, Option.some_or]
    have hpos : v.jrn.reservations ≠ 0 := by
      have := hu.slots
      rw [hj]
      show s.jrn.reservations - 1 ≠ 0
      omega
    obtain ⟨h1, h2, h3⟩ := dropPending_dropped p none none .evicted hpos
    rw [hgone, if_pos hl, hevict]
    refine ⟨?_, ?_, fun _ => h3, fun h => by cases h⟩
    · rw [h1, hv.stamp, hj, wrote_append]; rfl
    · rw [h2, hcru]
      refine congrArg₂ Cru.mk (List.map_congr_left fun e _ => ?_) (List.filter_congr fun q _ => ?_)
      · simp only [Option.any_some, Bool.beq_comm (a := e.serial)]
      · simp only [Option.any_some, bne, Bool.beq_comm (a := q.serial)]
  · have hgone : s.evictedFor o (s.exchange (otherStation st)).order = none := by
      unfold State.evictedFor
      rw [if_neg fun h => hl h.2]
    rw [hgone, if_neg hl]
    refine ⟨hj, ?_, fun h => absurd h (by simp), fun _ => rfl⟩
    rw [hcru]
    simp

/-! ## The pending debit that describes the order (R90 steps 2 and 3) -/

theorem keepsFigures_pledged (b : Bool) : KeepsFigures fun e => { e with hold := none, pledged := b } :=
  ⟨fun _ => rfl, fun _ => rfl, fun _ => rfl, fun _ _ => rfl⟩

theorem keepsFigures_id : KeepsFigures id := ⟨fun _ => rfl, fun _ => rfl, fun _ => rfl, fun _ _ => rfl⟩

/-- R90: what the record and the table entry of an uncertain outcome leave. -/
structure RecordedUncertain (st : Station) (o : Order) (cause : Detail) (s t : State) : Prop where
  cru        : t.cru = (s.uncertain o cause (s.exchange (otherStation st)).order).cru
  jrn        : t.jrn = (s.uncertain o cause (s.exchange (otherStation st)).order).jrn
  uncertain  : t.evu.isSet .debitUncertain = true
  credited   : 0 < o.back → t.evu.isSet .refundCredited = true
  unresolved : t.evu.isSet .debitUnresolved =
    ((s.evictedFor o (s.exchange (otherStation st)).order).isSome || s.evu.isSet .debitUnresolved)

theorem pledgeFor_cru (o : Order) (s : State) : (pledgeFor o s).cru = { s.cru with
    refunds := s.cru.refunds.map fun e =>
      if e.serial = o.serial then { e with hold := none, pledged := decide (0 < o.folded.getD 0) } else e } :=
  mapRefund_cru o.serial (fun e => { e with hold := none, pledged := decide (0 < o.folded.getD 0) }) s

/-- R90 step 2: no entry was resolved; the new one may evict another. -/
theorem recordedUncertain_create (hu : Uncertains st o s) (hres : o.resolution = none) :
    RecordedUncertain st o cause s (recordUncertain o cause s) := by
  have hsteady := createPending_steady o (setEvent .debitUncertain (writeMoney (o.body .debitUncertain cause) s))
  have heq : recordUncertain o cause s = createPending o (setEvent .debitUncertain (writeMoney (o.body .debitUncertain cause) s)) := by
    unfold recordUncertain
    dsimp only
    split
    · rfl
    · next h => rw [hres] at h; contradiction
  rw [heq]
  have hv : ChangesOnly [.jrn, .evu] s (setEvent .debitUncertain (writeMoney (o.body .debitUncertain cause) s)) :=
    (writeMoney_changes _ s).seq (setEvent_changes _ _)
  have hj : (setEvent .debitUncertain (writeMoney (o.body .debitUncertain cause) s)).jrn =
      s.jrn.wrote s.stamp [o.body .debitUncertain cause] 1 :=
    writeMoney_jrn _ s (by have := hu.slots; omega)
  have hev := (setEvent_isSet .debitUncertain .debitUncertain (writeMoney (o.body .debitUncertain cause) s)).trans rfl
  have hun : (setEvent .debitUncertain (writeMoney (o.body .debitUncertain cause) s)).evu.isSet .debitUnresolved =
      s.evu.isSet .debitUnresolved :=
    ((writeMoney_setsAmong _ s).mono (gs := [.journalWaiting, .journalTight, .journalFull, .debitUncertain])
      |>.trans (setEvent_setsAmong .debitUncertain _).mono).flag .debitUnresolved
  generalize setEvent .debitUncertain (writeMoney (o.body .debitUncertain cause) s) = v at *
  obtain ⟨h1, h2, h3, h4⟩ := evicting hu hres hv hj
  have htoday : v.today = s.today := by rw [State.today, hv.at .sst]; rfl
  have hkeeps : SetsAmong journalFlags (if 8 ≤ v.cru.pendings.length then evictPending v else v) (createPending o v) :=
    (((withCru_changes _ _).seq (pledgeFor_changes o _) (rs := [.cru])).setsAmong).trans (returnSlots_setsAmong 1 _)
  have hcreate : createPending o v = returnSlots 1 (pledgeFor o
      ((if 8 ≤ v.cru.pendings.length then evictPending v else v).withCru
        { (if 8 ≤ v.cru.pendings.length then evictPending v else v).cru with
          pendings := (if 8 ≤ v.cru.pendings.length then evictPending v else v).cru.pendings ++ [o.pendingEntry v.today] })) := rfl
  have hback : o.back = 0 := back_of_none hres
  rw [hcreate] at hkeeps hsteady ⊢
  generalize (if 8 ≤ v.cru.pendings.length then evictPending v else v) = w at *
  refine
    { cru := ?_
      jrn := ?_
      uncertain := hsteady.flags _ hev
      credited := fun h => by omega
      unresolved := ?_ }
  · rw [returnSlots_cru, pledgeFor_cru, State.withCru_cru, h2, htoday]
    unfold State.uncertain
    dsimp only
    rw [if_pos hres, hres, List.map_map]
    refine congrArg₂ Cru.mk (List.map_congr_left fun e _ => ?_) ?_
    · by_cases hg : (s.evictedFor o (s.exchange (otherStation st)).order).any (·.serial == e.serial) = true
      · simp only [Function.comp, if_pos hg]
      · simp only [Function.comp, if_neg hg]
    · simp [Order.pendingEntry]
  · rw [returnSlots_wrote 1 (((withCru_changes _ w).seq (pledgeFor_changes o _) (rs := [.cru])).at .jrn |>.trans h1)]
    unfold State.uncertain remainderBodies
    dsimp only
    rw [if_pos hres, if_pos hback, List.append_nil]
    exact congrArg _ (by omega)
  · rw [hkeeps.flag .debitUnresolved]
    cases hg : s.evictedFor o (s.exchange (otherStation st)).order with
    | none => rw [h4 hg, hun]; rfl
    | some p => exact h3 (by rw [hg]; rfl)

/-- R119, R122: the remainder of a settled entry on the books, where there is one. -/
theorem remainder_wrote {u : State} (hu : Settles o s.cru) {j : Jrn} {b : RecordBody} {n taken : Nat}
    (hcru : u.cru = { s.cru with refunds := settledRefunds o.serial taken o.back s.cru.refunds })
    (hj : u.jrn = j.wrote s.stamp [b] n) (hst : u.stamp = s.stamp) (hn : n < j.reservations) :
    let t := if 0 < o.back then recordRemainder o.serial o.back u else u
    t.cru = u.cru ∧
    t.jrn = j.wrote s.stamp (b :: remainderBodies o.serial taken o.back s.cru.refunds) (n + if 0 < o.back then 1 else 0) ∧
    (0 < o.back → t.evu.isSet .refundCredited = true) ∧ SetsAmong creditFlags u t := by
  by_cases hb : 0 < o.back
  · obtain ⟨e, he, hbody⟩ := refund_settled (k := o.serial) keepsFigures_id hu.nodup (taken := taken)
      (Nat.pos_iff_ne_zero.mp hb) (hu.entry (Nat.pos_iff_ne_zero.mp hb)) s.cru.pendings
    have he' : u.cru.refund o.serial = some e := by
      rw [hcru, ← he]
      simp
    obtain ⟨g1, g2, g3⟩ := recordRemainder_wrote (r := o.back) he' hj hst hn
    have hf : SetsAmong creditFlags u (recordRemainder o.serial o.back u) := by
      unfold recordRemainder
      rw [he']
      exact (writeMoney_setsAmong _ u).mono.trans (setEvent_setsAmong .refundCredited _).mono
    dsimp only
    rw [if_pos hb, if_pos hb]
    exact ⟨g1, by rw [g2, hbody]; rfl, fun _ => g3, hf⟩
  · have h0 : o.back = 0 := by omega
    dsimp only
    rw [if_neg hb, if_neg hb]
    refine ⟨rfl, ?_, fun h => absurd h hb, .refl u⟩
    unfold remainderBodies
    rw [hj, if_pos h0]
    rfl

/-- R90 step 3: the entry that was resolved is settled, rewritten and moved. -/
theorem recordedUncertain_update (hu : Uncertains st o s) (hres : o.resolution ≠ none) :
    RecordedUncertain st o cause s (recordUncertain o cause s) := by
  obtain ⟨res, hr⟩ := Option.ne_none_iff_exists'.mp hres
  have hback : res.remainder = o.back := by rw [← back_eq, hr]; rfl
  have hsteady := updatePending_steady o res (setEvent .debitUncertain (writeMoney (o.body .debitUncertain cause) s))
  have heq : recordUncertain o cause s = updatePending o res (setEvent .debitUncertain (writeMoney (o.body .debitUncertain cause) s)) := by
    unfold recordUncertain
    dsimp only
    split
    · next h => rw [hr] at h; contradiction
    · next h => rw [hr] at h; cases h; rfl
  rw [heq]
  have hv : ChangesOnly [.jrn, .evu] s (setEvent .debitUncertain (writeMoney (o.body .debitUncertain cause) s)) :=
    (writeMoney_changes _ s).seq (setEvent_changes _ _)
  have hj : (setEvent .debitUncertain (writeMoney (o.body .debitUncertain cause) s)).jrn =
      s.jrn.wrote s.stamp [o.body .debitUncertain cause] 1 :=
    writeMoney_jrn _ s (by have := hu.slots; omega)
  have hev := (setEvent_isSet .debitUncertain .debitUncertain (writeMoney (o.body .debitUncertain cause) s)).trans rfl
  have hun : SetsAmong [.journalWaiting, .journalTight, .journalFull, .debitUncertain] s
      (setEvent .debitUncertain (writeMoney (o.body .debitUncertain cause) s)) :=
    (writeMoney_setsAmong _ s).mono.trans (setEvent_setsAmong .debitUncertain _).mono
  generalize setEvent .debitUncertain (writeMoney (o.body .debitUncertain cause) s) = v at *
  have hcru : v.cru = s.cru := hv.at .cru
  have htoday : v.today = s.today := by rw [State.today, hv.at .sst]; rfl
  generalize htk : tookFolded (some res) (v.cru.pendingOf o.serial) = taken
  have hset := settleRefund_settled (k := o.serial) (taken := taken) (back := o.back) (s := v) (by rw [hcru]; exact hu.settles.nodup)
  have hsc := settleRefund_changes o.serial taken o.back v
  have hupdate : updatePending o res v =
      let s2 := if 0 < o.back then recordRemainder o.serial o.back (settleRefund o.serial taken o.back v)
        else settleRefund o.serial taken o.back v
      returnSlots (if 0 < o.back then 1 else 2) (pledgeFor o ((removePending o.serial s2).withCru
        { (removePending o.serial s2).cru with
          pendings := (removePending o.serial s2).cru.pendings ++ [o.pendingEntry v.today] })) := by
    unfold updatePending
    rw [htk, hback]
  have hsu : SetsAmong creditFlags v (settleRefund o.serial taken o.back v) := by
    unfold settleRefund
    split
    · exact .refl v
    · exact .ite ((removeRefund_setsAmong _ v).trans (returnSlots_setsAmong 1 _).mono) (mapRefund_setsAmong _ _ v)
  rw [hcru] at hset
  have hst : (settleRefund o.serial taken o.back v).stamp = s.stamp := hsc.stamp.trans hv.stamp
  generalize settleRefund o.serial taken o.back v = u at *
  have hle := emptiedRefunds_le o.serial taken o.back s.cru.refunds
  have hslots := hu.slots
  obtain ⟨h1, h2, h3, h4⟩ := remainder_wrote (u := u) hu.settles hset.1
    (j := s.jrn) (n := 1 + emptiedRefunds o.serial taken o.back s.cru.refunds)
    (by rw [hset.2, hj, wrote_return]) hst (by omega)
  rw [hupdate] at hsteady ⊢
  dsimp only at hsteady ⊢
  generalize (if 0 < o.back then recordRemainder o.serial o.back u else u) = w at *
  have hgone : s.evictedFor o (s.exchange (otherStation st)).order = none := by
    unfold State.evictedFor
    rw [if_neg fun h => hres h.1]
  generalize ht : pledgeFor o ((removePending o.serial w).withCru
        { (removePending o.serial w).cru with
          pendings := (removePending o.serial w).cru.pendings ++ [o.pendingEntry v.today] }) = t at *
  have hwt : ChangesOnly [.cru] w t :=
    ht ▸ (((removePending_changes o.serial w).seq (withCru_changes _ _) (rs := [.cru])).seq (pledgeFor_changes o _) (rs := [.cru]))
  have htk' : tookFolded o.resolution (s.cru.pendingOf o.serial) = taken := by rw [hr, ← hcru]; exact htk
  refine
    { cru := ?_
      jrn := ?_
      uncertain := hsteady.flags _ hev
      credited := fun h => (returnSlots_steady _ t).flags _ (by rw [hwt.at .evu]; exact h3 h)
      unresolved := ?_ }
  · rw [returnSlots_cru, ← ht, pledgeFor_cru, State.withCru_cru]
    unfold State.uncertain removePending
    dsimp only
    rw [hgone, if_neg hres, htk', State.withCru_cru, h1, hset.1, htoday, hr]
    refine congrArg₂ Cru.mk (List.map_congr_left fun e _ => ?_) ?_
    · simp
    · simp [Order.pendingEntry, bne]
  · rw [returnSlots_wrote _ ((hwt.at .jrn).trans h2)]
    unfold State.uncertain
    dsimp only
    rw [hgone, if_neg hres, htk']
    refine congrArg _ ?_
    split <;> omega
  · have := ((hun.mono (gs := [.journalWaiting, .journalTight, .journalFull, .debitUncertain, .refundCredited])).trans
      ((hsu.trans h4).mono)).flag .debitUnresolved
    rw [hgone, (returnSlots_setsAmong _ t).flag .debitUnresolved, hwt.at .evu, this]
    rfl

theorem recordedUncertain (hu : Uncertains st o s) : RecordedUncertain st o cause s (recordUncertain o cause s) := by
  by_cases hres : o.resolution = none
  · exact recordedUncertain_create hu hres
  · exact recordedUncertain_update hu hres

end

/-! ## The three causes (R86, R90, R91) -/

/-- R90: what an exchange that ends uncertain leaves; the outputs apart. -/
structure EndedUncertain (st : Station) (o : Order) (cause : Detail) (s t : State) : Prop where
  recorded : RecordedUncertain st o cause s t
  idled    : Idled st s t
  freed    : o.ptype = .new → (s.record o.machine).state = .reserved → Freed s t o.machine
  msv      : o.ptype ≠ .new ∨ (s.record o.machine).state ≠ .reserved → t.msv = s.msv
  changes  : ChangesOnly [.msv, .pay, .cru, .flm, .jrn, .evu, .out] s t

section
variable {st : Station} {o : Order} {s : State} {cause : Detail}

theorem endedUncertain (hb : s.BooksReady) (ho : (s.exchange st).order = some o) :
    EndedUncertain st o cause s (endUncertain st o cause s) ∧ (endUncertain st o cause s).out = s.out := by
  have h := recordedUncertain (cause := cause) (uncertains_of_booksReady hb ho)
  have hrc := recordUncertain_changes o cause s
  have hc := endUncertain_changes st o cause s
  unfold endUncertain at *
  generalize recordUncertain o cause s = u at *
  have hrel := releaseReserved_changes o u
  have hfreed := releaseReserved_freed (o := o) (s := u)
  have hmsv := releaseReserved_msv (o := o) (s := u)
  generalize releaseReserved o u = v at *
  have hi := idleExchange_changes st v
  have hut : ChangesOnly [.msv, .flm, .pay] u (idleExchange st v) := hrel.seq hi
  have hid : Idled st s (idleExchange st v) := idled ((hrel.at .pay).trans (hrc.at .pay)) rfl
  generalize idleExchange st v = t at *
  have hevu : t.evu = u.evu := hut.at .evu
  refine ⟨⟨⟨(hut.at .cru).trans h.cru, (hut.at .jrn).trans h.jrn, ?_, fun h0 => ?_, ?_⟩, hid, fun hn hr => ?_, fun hne => ?_, hc.up⟩,
    hc.at .out⟩
  · rw [hevu]; exact h.uncertain
  · rw [hevu]; exact h.credited h0
  · rw [hevu]; exact h.unresolved
  · exact (hfreed hn (by rw [hrc.record]; exact hr)).of_msv (hrc.at .msv) (hi.at .msv).symm
  · rw [hi.at .msv, hmsv (by rw [hrc.record]; exact hne), hrc.at .msv]

/-- R86: a DONE outcome whose counter is not the one ordered. -/
theorem EndedUncertain.declined {u : State} (h : EndedUncertain st o cause s u) (why : DeclineReason) (b : Nat) :
    EndedUncertain st o cause s (sendDecline st why b u) := by
  have hd := sendDecline_changes st why b u
  have hx := Part.exchanges (hd.at .pay)
  have hevu : (sendDecline st why b u).evu = u.evu := hd.at .evu
  have hr := h.recorded
  refine ⟨⟨(hd.at .cru).trans hr.cru, (hd.at .jrn).trans hr.jrn, by rw [hevu]; exact hr.uncertain,
    fun h0 => by rw [hevu]; exact hr.credited h0, by rw [hevu]; exact hr.unresolved⟩, ⟨?_, ?_, ?_⟩, fun hn hr => (h.freed hn hr).of_msv rfl (hd.at .msv).symm, fun hne => (hd.at .msv).trans (h.msv hne),
    h.changes.seq hd⟩
  · rw [hx.1]; exact h.idled.here
  · rw [hx.1]; exact h.idled.there
  · rw [hx.2]; exact h.idled.halted

end

/-- Settles O30: one lemma of the uncertain end; the wrong counter alone sends a message. -/
theorem uncertainMakesPending : Obligations.UncertainMakesPending := by
  intro c cause st o s hrun ho hb hc
  obtain ⟨h, hout⟩ := endedUncertain (cause := cause) hb ho
  have hquiet : cause ≠ .counter → exec c s = .next (endUncertain st o cause s) := fun hne => by
    rcases hc with ⟨msg, rfl, hn, hoc, hk, rfl⟩ | ⟨msg, k, rfl, hn, hoc, hk, hkn, rfl⟩ | ⟨rfl, htm, rfl⟩
    · have hl : msg.codesListed = true := by unfold ResultMsg.codesListed; rw [hoc, hk]; rfl
      have hcode : msg.outcome.toNat = 1 := by rw [hoc]; rfl
      rw [exec_result hrun hl]
      unfold takeResult
      dsimp only
      rw [ho]
      dsimp only
      rw [if_neg (by rw [hn]; exact fun h => h rfl), hcode, hk]
      rfl
    · exact absurd rfl hne
    · have hdue : s.resultDue st = true := by unfold State.resultDue; rw [ho]; simp [htm]
      have hexec : exec (.resultTimerExpiry st) s = .next (resultExpiry st s) :=
        congrArg Host.Outcome.next ((whenRunning_of_running hrun).trans (whenDue_of_due hdue))
      rw [hexec]
      unfold resultExpiry
      rw [ho]
  by_cases hcause : cause = .counter
  · have hexec : exec c s = .next (sendDecline st .cardInvalid o.balanceRead (endUncertain st o cause s)) := by
      rcases hc with ⟨msg, rfl, hn, hoc, hk, rfl⟩ | ⟨msg, k, rfl, hn, hoc, hk, hkn, rfl⟩ | ⟨rfl, htm, rfl⟩
      · exact absurd hcause (by simp)
      · rw [exec_done hrun ho hn hoc hk, endDone, if_neg hkn]
      · exact absurd hcause (by simp)
    have hd := h.declined .cardInvalid o.balanceRead
    exact ⟨_, hexec, hd.recorded.cru, hd.recorded.jrn, hd.recorded.uncertain, hd.recorded.credited, hd.recorded.unresolved,
      hd.idled.here, hd.idled.there, hd.idled.halted, hd.freed, hd.msv, fun _ => lineShows_sendDecline st _ _ _,
      fun hne => absurd hcause hne, hd.changes⟩
  · exact ⟨_, hquiet hcause, h.recorded.cru, h.recorded.jrn, h.recorded.uncertain, h.recorded.credited, h.recorded.unresolved,
      h.idled.here, h.idled.there, h.idled.halted, h.freed, h.msv, fun h => absurd h hcause, fun _ => hout, h.changes⟩

end Sys2Proof.Machine
end


section
/-! PROOF. What a reset that keeps retained memory leaves of machines, bus, grants and faults (R26, R33, R53, R73, R129). -/
namespace Sys2Proof.Machine

/-! ## The trim of the fill slots (R73) -/

theorem queueGrant_grant (m : Addr) (l : Level) (f : Bool) (s : State) :
    (queueGrant m l f s).grant m = { s.grant m with pending := (s.grant m).pending || (s.node m).known } := by
  unfold queueGrant
  cases h : (s.node m).known with
  | true =>
    rw [if_pos rfl, (queueCommand_changes m (.grant l f) .fba _).grant]
    simp
  | false =>
    rw [if_neg Bool.false_ne_true]
    simp

theorem changeGrant_grant (m : Addr) (l : Level) (f : Bool) (s : State) :
    (changeGrant m l f s).grant m =
      { (s.grant m).regrant l f with pending := (s.grant m).pending || (s.node m).known } := by
  have hm := mapGrant_changes m (·.regrant l f) s
  unfold changeGrant
  rw [queueGrant_grant, hm.node]
  simp [mapGrant, GrantEntry.regrant]

theorem levelled_changeGrant {m : Addr} {l : Level} {f : Bool} {s : State} (h : (s.node m).known = true) :
    Levelled (changeGrant m l f s) m l f := by
  have hm := mapGrant_changes m (·.regrant l f) s
  have hk : ((mapGrant m (·.regrant l f) s).node m).known = true := by rw [hm.node]; exact h
  unfold changeGrant queueGrant
  rw [if_pos hk]
  exact waiting_queueCommand m (.grant l f) .level .fba _ rfl hk

theorem sameBus_trimOne {m n : Addr} (h : n ≠ m) (s : State) : SameBus m s (trimOne s n) := by
  unfold trimOne
  split
  · exact sameBus_changeGrant h _ _ s
  · exact (mapGrant_changes n _ s).sameBus m

theorem foldl_trimOne_others {m : Addr} {l : List Addr} (h : m ∉ l) (s : State) :
    Apart m s (l.foldl trimOne s) ∧ SameBus m s (l.foldl trimOne s) := by
  induction l generalizing s with
  | nil => exact ⟨.refl m s, .refl m s⟩
  | cons n l ih =>
    rw [List.mem_cons, not_or] at h
    obtain ⟨h1, h2⟩ := ih h.2 (trimOne s n)
    exact ⟨(trimOne_apart (Ne.symm h.1) s).trans h1, (sameBus_trimOne (Ne.symm h.1) s).trans h2⟩

/-- A machine is trimmed once; what comes before and after leaves it. -/
theorem foldl_trimOne_self {m : Addr} {l : List Addr} (hn : l.Nodup) (h : m ∈ l) (s : State) : ∃ v,
    (Apart m s v ∧ SameBus m s v) ∧ Apart m (trimOne v m) (l.foldl trimOne s) ∧ SameBus m (trimOne v m) (l.foldl trimOne s) := by
  induction l generalizing s with
  | nil => cases h
  | cons n l ih =>
    rw [List.nodup_cons] at hn
    rcases List.mem_cons.mp h with rfl | h
    · exact ⟨s, ⟨.refl m s, .refl m s⟩, foldl_trimOne_others hn.1 _⟩
    · have hne : n ≠ m := fun he => hn.1 (he ▸ h)
      obtain ⟨v, ⟨h1, h2⟩, h3⟩ := ih hn.2 h (trimOne s n)
      exact ⟨v, ⟨(trimOne_apart hne s).trans h1, (sameBus_trimOne hne s).trans h2⟩, h3⟩

theorem startList_foldl_trimOne (l : List Addr) (s : State) : (l.foldl trimOne s).fba.startList = s.fba.startList := by
  induction l generalizing s with
  | nil => rfl
  | cons n l ih =>
    rw [List.foldl_cons, ih]
    unfold trimOne
    split
    · exact startList_changeGrant _ _ _ s
    · rfl

/-- What the trim leaves of the feeder beside its grants. -/
def Fba.ungrants (f : Fba) : List AdmEntry × List AdmEntry × Nat × Demand × Demand × Nat × Bool :=
  (f.raises, f.starts, f.beff, f.line, f.demand, f.debounce, f.overBudget)

theorem ungrants_queueGrant (m : Addr) (l : Level) (f : Bool) (s : State) : (queueGrant m l f s).fba.ungrants = s.fba.ungrants := by
  rcases queueGrant_fba m l f s with h | h
  · rw [h]
  · rw [h]; rfl

theorem ungrants_foldl_trimOne (l : List Addr) (s : State) : (l.foldl trimOne s).fba.ungrants = s.fba.ungrants := by
  induction l generalizing s with
  | nil => rfl
  | cons n l ih =>
    rw [List.foldl_cons, ih]
    unfold trimOne
    split
    · exact ungrants_queueGrant _ _ _ _
    · rfl

/-- Every command in the queue is FBA's. -/
def State.onlyFeeder (s : State) : Prop := ∀ e ∈ s.mbc.queue, e.owner = .fba

theorem onlyFeeder_queueGrant (m : Addr) (l : Level) (f : Bool) {s : State} (h : s.onlyFeeder) : (queueGrant m l f s).onlyFeeder := by
  unfold queueGrant
  split
  · unfold queueCommand
    dsimp only [BusCommand.cls]
    split
    · intro e he
      have hmem : e ∈ enqueueIn s.mbc.queue m .level (.grant l f) .fba := he
      unfold enqueueIn at hmem
      dsimp only at hmem
      split at hmem
      · obtain ⟨x, hx, rfl⟩ := List.mem_map.mp hmem
        split
        · rfl
        · exact h x hx
      · rcases List.mem_append.mp hmem with hm | hm
        · exact h e hm
        · rw [List.mem_singleton.mp hm]
    · exact h
  · exact h

theorem onlyFeeder_foldl_trimOne (l : List Addr) {s : State} (h : s.onlyFeeder) : (l.foldl trimOne s).onlyFeeder := by
  induction l generalizing s with
  | nil => exact h
  | cons n l ih =>
    rw [List.foldl_cons]
    refine ih ?_
    unfold trimOne
    split
    · exact onlyFeeder_queueGrant _ _ _ h
    · exact h

/-- What the trim leaves of the bus beside its queue. -/
theorem queues_trimFill (s : State) : Queues s (trimFill s) :=
  Queues.foldl (fun s n => by
    unfold trimOne
    split
    · exact changeGrant_queues _ _ _ s
    · exact (mapGrant_changes _ _ s).queues) _ s

theorem mem_take_iff {α : Type} {l : List α} (hn : l.Nodup) (k : Nat) (x : α) : x ∈ l.take k ↔ x ∈ l ∧ x ∉ l.drop k := by
  have h := List.take_append_drop k l
  rw [← h] at hn
  have hd := List.disjoint_of_nodup_append hn
  constructor
  · exact fun hx => ⟨List.mem_of_mem_take hx, fun hx' => hd hx hx'⟩
  · rintro ⟨h1, h2⟩
    rw [← h, List.mem_append] at h1
    exact h1.resolve_right h2

/-! ## Before the trim -/

/-- Retained memory has been kept; settings, exchanges and the link are free. -/
structure Kept (s w : State) : Prop where
  msv : w.msv = (keepRetained s).msv
  mbc : w.mbc = (keepRetained s).mbc
  fba : w.fba = (keepRetained s).fba
  flm : w.flm = (keepRetained s).flm

section
variable {s w : State} {m : Addr}

theorem Kept.record (h : Kept s w) (m : Addr) : w.record m = (s.record m).atReset := by
  rw [← keepRetained_record, State.record, h.msv]; rfl

theorem Kept.node (h : Kept s w) (m : Addr) : w.node m = .afterReset (s.node m).known (s.node m).kind := by
  unfold State.node
  rw [h.mbc]
  simp [keepRetained, Mbc.fresh]

theorem Kept.faults (h : Kept s w) (m : Addr) : w.faults m = (s.faults m).atReset (s.record m).atReset.state := by
  unfold State.faults
  rw [h.flm]
  simp [keepRetained, State.record]

theorem Kept.grant (h : Kept s w) (m : Addr) : w.grant m = (s.grant m).atReset (s.record m).atReset.state := by
  unfold State.grant
  rw [h.fba]
  simp [keepRetained, State.record]

/-- R26, R73: the states in which a reset finds the grants that it keeps. -/
theorem keepsGrant_atReset (s : State) (m : Addr) :
    (keepsGrant (s.record m).atReset.state && (s.grant m).granted.isSome) = s.keepsGrant m := by
  unfold State.keepsGrant MachineRecord.atReset keepsGrant
  rw [Bool.and_comm]
  cases (s.record m).state <;> rfl

theorem Kept.grant_empty (h : Kept s w) (hk : s.keepsGrant m = false) : w.grant m = .empty := by
  rw [h.grant, GrantEntry.atReset, keepsGrant_atReset, hk, if_neg Bool.false_ne_true]

theorem Kept.grant_kept (h : Kept s w) (hk : s.keepsGrant m = true) {g : Level} (hg : (s.grant m).granted = some g) :
    w.grant m = { GrantEntry.empty with
      granted := some g, fill := (s.grant m).fill, draws := (s.grant m).draws, draw := (s.grant m).drawOf g, heldSilent := true } := by
  rw [h.grant, GrantEntry.atReset, keepsGrant_atReset, hk, if_pos rfl, hg]
  rfl

theorem Kept.fill (h : Kept s w) (m : Addr) : (w.grant m).fill = (s.keepsGrant m && (s.grant m).fill) := by
  cases hk : s.keepsGrant m with
  | false => rw [h.grant_empty hk]; rfl
  | true =>
    have hsome : (s.grant m).granted.isSome = true := by unfold State.keepsGrant at hk; exact (Bool.and_eq_true _ _ ▸ hk).1
    obtain ⟨g, hg⟩ := Option.isSome_iff_exists.mp hsome
    rw [h.grant_kept hk hg]
    simp

/-- The machines whose kept grants hold fill. -/
def State.fillsHeld (s : State) : List Addr := allMachines.filter fun m => s.keepsGrant m && (s.grant m).fill

theorem fillsHeld_nodup (s : State) : s.fillsHeld.Nodup := allMachines_nodup.filter _

theorem Kept.trimmed (h : Kept s w) (limit : Nat) : trimmed limit w.fba = s.fillsHeld.drop limit := by
  unfold Machine.trimmed State.fillsHeld
  exact congrArg (List.drop limit) (List.filter_congr fun m _ => h.fill m)

theorem mem_fillsKept {limit : Nat} :
    m ∈ s.fillsKept limit ↔ m ∈ s.fillsHeld ∧ m ∉ s.fillsHeld.drop limit := mem_take_iff (fillsHeld_nodup s) limit m

theorem mem_fillsHeld : m ∈ s.fillsHeld ↔ s.keepsGrant m = true ∧ (s.grant m).fill = true := by
  unfold State.fillsHeld
  simp [mem_allMachines]

/-- R73: the grants once the fill slots are trimmed. -/
theorem Kept.grantsKept (h : Kept s w) : GrantsKept s (trimFill w) := by
  have hsst : (trimFill w).sst = w.sst := (trimFill_regrants w).changes.at .sst
  have htrim : Machine.trimmed w.fillLimit w.fba = s.fillsHeld.drop w.fillLimit := h.trimmed _
  unfold GrantsKept
  rw [hsst]
  have hlim : w.sst.working.limits.fillSlots = w.fillLimit := rfl
  rw [hlim]
  unfold trimFill
  rw [htrim]
  generalize w.fillLimit = limit
  have hnd : (s.fillsHeld.drop limit).Nodup := (fillsHeld_nodup s).sublist (List.drop_sublist _ _)
  refine ⟨?_, fun m => ⟨fun hk => ?_, fun g hk hg => ?_⟩⟩
  · rw [startList_foldl_trimOne, h.fba]
    show s.fba.startList.filter _ = _
    refine List.filter_congr fun m _ => ?_
    have hent : ((keepRetained s).fba.entries.at m).granted.isSome = s.keepsGrant m := by
      rw [← h.fba]
      show (w.grant m).granted.isSome = _
      cases hk : s.keepsGrant m with
      | false => rw [h.grant_empty hk]; rfl
      | true =>
        have hsome : (s.grant m).granted.isSome = true := by unfold State.keepsGrant at hk; exact (Bool.and_eq_true _ _ ▸ hk).1
        obtain ⟨g, hg⟩ := Option.isSome_iff_exists.mp hsome
        rw [h.grant_kept hk hg]
        rfl
    exact hent
  · have hm : m ∉ s.fillsHeld.drop limit := fun hm => by
      have := (mem_fillsHeld.mp (List.mem_of_mem_drop hm)).1
      rw [hk] at this; cases this
    rw [(foldl_trimOne_others hm w).1.grant, h.grant_empty hk]
  · have hw := h.grant_kept hk hg
    by_cases hm : m ∈ s.fillsHeld.drop limit
    · obtain ⟨v, ⟨hv1, hv2⟩, ht1, ht2⟩ := foldl_trimOne_self hnd hm w
      have hfill := (mem_fillsHeld.mp (List.mem_of_mem_drop hm)).2
      have hnk : m ∉ s.fillsKept limit := fun hx => (mem_fillsKept.mp hx).2 hm
      have hvg : v.grant m = w.grant m := hv1.grant
      have hkn : (v.node m).known = (s.node m).known := by rw [hv2.node, h.node]; rfl
      have htr : trimOne v m = changeGrant m g false v := by
        have hvs : (v.grant m).granted = some g := by rw [hvg, hw]
        unfold trimOne; rw [hvs]
      rw [htr] at ht1 ht2
      refine ⟨?_, fun _ _ hn => ?_⟩
      · rw [ht1.grant, changeGrant_grant, hvg, hkn, hw, hfill]
        simp [hnk, GrantEntry.empty, GrantEntry.regrant, GrantEntry.holdAt, GrantEntry.wantsHeat, GrantEntry.drawOf]
      · have := levelled_changeGrant (m := m) (l := g) (f := false) (s := v) (by rw [hkn]; exact hn)
        unfold Levelled at this ⊢
        rw [ht2.waits]
        exact this
    · have ht := (foldl_trimOne_others hm w).1
      have hiff : m ∈ s.fillsKept limit ↔ (s.grant m).fill = true := by
        rw [mem_fillsKept, mem_fillsHeld]
        simp [hk, hm]
      refine ⟨?_, fun hf hno => absurd (hiff.mpr hf) hno⟩
      rw [ht.grant, hw]
      cases hf : (s.grant m).fill <;> simp [hiff, hf, GrantEntry.empty]

/-- R26, R33, R129: the records, the node table and the fault records. -/
theorem recordsKept_of {t : State} (h : Kept s w) (hm : t.msv.records = w.msv.records) (hn : t.mbc.nodes = w.mbc.nodes)
    (hf : t.flm = w.flm) : RecordsKept s t := by
  intro m
  have hrec : t.record m = (s.record m).atReset := by rw [← h.record, State.record, hm]; rfl
  have hnode : t.node m = w.node m := by rw [State.node, hn]; rfl
  have hfault : t.faults m = w.faults m := by rw [State.faults, hf]; rfl
  rw [hrec, hnode, hfault, h.node, h.faults]
  unfold MachineRecord.atReset FaultRecord.atReset
  cases (s.record m).state <;> simp <;> rfl

end

end Sys2Proof.Machine
end


section
/-! PROOF. A warm reset begins (R181). -/
namespace Sys2Proof.Machine

/-- R181: the state of a warm reset before its trim. -/
def warmLoaded (k : ResetKind) (s : State) : State := verifyLoaded (loadSettings (keepRetained (quietLink k s)))

theorem beginWarm_eq (k : ResetKind) (s : State) :
    beginWarm k s = (trimFill (warmLoaded k s)).withPhase (.warmReset (!s.sst.imageValid)) := rfl

theorem verifyLoaded_changes (s : State) : ChangesOnly [.pay] s (verifyLoaded s) := .ite (withPay_changes _ s) (.refl _ s)

theorem verifyLoaded_pay (s : State) : (verifyLoaded s).pay = { s.pay with halted := s.pay.halted || s.sst.priceMismatch } := by
  unfold verifyLoaded
  cases h : s.sst.priceMismatch <;> simp

theorem kept_warmLoaded (k : ResetKind) (s : State) : Kept s (warmLoaded k s) := by
  have hv := verifyLoaded_changes (loadSettings (keepRetained (quietLink k s)))
  exact ⟨hv.at .msv, hv.at .mbc, hv.at .fba, hv.at .flm⟩

theorem quietLink_changes (k : ResetKind) (s : State) : ChangesOnly [.hli, .evu, .sst] s (quietLink k s) :=
  ((withHli_changes _ s).seq (withEvu_changes _ _) (rs := [.hli, .evu])).seq (withSst_changes _ _)

theorem keepRetained_changes (s : State) : ChangesOnly [.msv, .mbc, .fba, .pay, .flm] s (keepRetained s) := by
  intro p hp
  cases p <;> simp at hp <;> rfl

theorem loadSettings_changes (s : State) : ChangesOnly [.sst] s (loadSettings s) := withSst_changes _ s

theorem warmBegun_beginWarm (k : ResetKind) (s : State) :
    (beginWarm k s).resetHeld = s.resetHeld ∧ WarmBegun s (beginWarm k s) k := by
  have hkept := kept_warmLoaded k s
  have hv := verifyLoaded_changes (loadSettings (keepRetained (quietLink k s)))
  have hpay := verifyLoaded_pay (loadSettings (keepRetained (quietLink k s)))
  have ht := (trimFill_regrants (warmLoaded k s)).changes
  have hq := queues_trimFill (warmLoaded k s)
  have hun : (trimFill (warmLoaded k s)).fba.ungrants = (warmLoaded k s).fba.ungrants := ungrants_foldl_trimOne _ _
  have howner : (trimFill (warmLoaded k s)).onlyFeeder := onlyFeeder_foldl_trimOne _ (by
    unfold State.onlyFeeder
    rw [hkept.mbc]
    exact fun e he => by cases he)
  have hgrants := hkept.grantsKept
  have hsst : (trimFill (warmLoaded k s)).sst = _ := (ht.at .sst).trans (hv.at .sst)
  have hpay' : (trimFill (warmLoaded k s)).pay = _ := (ht.at .pay).trans hpay
  have hw : ChangesOnly [.msv, .mbc, .fba, .pay, .flm, .evu, .sst, .hli] s (warmLoaded k s) :=
    (((quietLink_changes k s).seq (keepRetained_changes _) (rs := [.msv, .mbc, .fba, .pay, .flm, .evu, .sst, .hli])).seq
      (loadSettings_changes _) (rs := [.msv, .mbc, .fba, .pay, .flm, .evu, .sst, .hli])).seq hv
  have hrest : ChangesOnly [.msv, .mbc, .fba, .pay, .flm, .evu, .sst, .hli] s (trimFill (warmLoaded k s)) := hw.seq ht
  have hhli : (trimFill (warmLoaded k s)).hli = _ := (ht.at .hli).trans (hv.at .hli)
  have hevu : (trimFill (warmLoaded k s)).evu = _ := (ht.at .evu).trans (hv.at .evu)
  have hmsv : (trimFill (warmLoaded k s)).msv = _ := (ht.at .msv).trans hkept.msv
  have hrec : RecordsKept s (trimFill (warmLoaded k s)) := by
    refine recordsKept_of hkept ?_ ?_ (ht.at .flm)
    · rw [ht.at .msv]
    · rw [hq.bus]
  have hbus := hq.bus
  rw [hkept.mbc] at hbus
  rw [hkept.fba] at hun
  rw [beginWarm_eq]
  generalize trimFill (warmLoaded k s) = t at *
  have hfields : (t.fba.raises, t.fba.starts, t.fba.beff, t.fba.line, t.fba.demand, t.fba.debounce, t.fba.overBudget) =
    ([], [], s.fba.beff, s.fba.line, s.fba.demand, s.fba.debounce, false) := hun
  simp only [Prod.mk.injEq] at hfields
  obtain ⟨hraises, hstarts, _, hline, _, _, hover⟩ := hfields
  refine ⟨hrest.at .resetHeld, rfl, hhli, ?_, ?_, ?_, ?_, ?_, hsst, ?_, ?_, ?_, hrec, ?_, ?_, ?_, hline, hraises, hstarts, hover, hgrants,
    ?_, ?_, howner, hrest.seq (withPhase_changes _ t)⟩
  · rw [State.withPhase_evu, hevu]; rfl
  · rw [State.withPhase_evu, hevu]; rfl
  · rw [State.withPhase_evu, hevu]; rfl
  · rw [State.withPhase_evu, hevu]; rfl
  · rw [State.withPhase_evu, hevu]; rfl
  · rw [State.withPhase_pay, hpay']; rfl
  · rw [State.withPhase_pay, hpay']; rfl
  · rw [State.withPhase_pay, State.withPhase_sst, hpay', hsst]; rfl
  · rw [State.withPhase_msv, hmsv]; rfl
  · rw [State.withPhase_mbc, hbus]; rfl
  · rw [State.withPhase_mbc, hbus]; rfl
  · rw [State.withPhase_mbc, hbus]; rfl
  · rw [State.withPhase_mbc, hbus]; rfl

/-- Settles O4: RESET's reply, then the one beginning for its two causes. -/
theorem warmResetBegins : Obligations.WarmResetBegins := by
  refine ⟨fun s hs => ?_, fun s hrun hd => ?_, fun s r hrun hd hbuf => ?_, fun s lost hp => ?_⟩
  · refine ⟨_, rfl, ?_⟩
    have heq : serveWith true 0x1E#8 .reset (readOnly fun _ => .ok []) s = putReply ⟨0x9E#8, .ok, none, none, []⟩ true s := by
      obtain ⟨hrun, hbuf | hbuf⟩ := hs <;> simp [serveWith, State.isRunning, hrun, hbuf] <;> rfl
    rw [heq]
    exact ⟨rfl, putReply_changes _ _ s⟩
  · refine ⟨_, rfl, ?_⟩
    rw [whenRunning_of_running hrun, finishSlot_of_done hd]
    unfold assertReset
    rw [hrun]
    obtain ⟨_, h1, h2, h3, h4, h5, h6, h7, h8, h9, h10, h11, h12, h13, h14, h15, h16, h17, h18, h19, h20, h21, h22, h23, h24⟩ :=
      warmBegun_beginWarm .warmPin s
    exact ⟨rfl, h1, h2, h3, h4, h5, h6, h7, h8, h9, h10, h11, h12, h13, h14, h15, h16, h17, h18, h19, h20, h21, h22, h23,
      h24.seq (withResetHeld_changes true _)⟩
  · refine ⟨_, rfl, ?_⟩
    rw [whenRunning_of_running hrun]
    have hres : s.hli.resets = true := by unfold Hli.resets; rw [hbuf]
    rw [whenDue_of_due hres, finishSlot_of_done hd]
    unfold replySent
    rw [hbuf]
    exact warmBegun_beginWarm .warmRequest s
  · refine congrArg Host.Outcome.next ?_
    rw [whenRunning_of_not_running (by rw [hp]; simp)]
    have h : assertReset s = s.withResetHeld true := by unfold assertReset; rw [hp]
    exact h

end Sys2Proof.Machine
end


section
/-! PROOF. The end of a reset: the budget found exactly, the orders converted, the commands of ABORTING records, and the start-up
events (R26, R51, R67, R95, R159, R172). -/
namespace Sys2Proof.Machine

/-! ## The budget found exactly (R67) -/

theorem grantHeads_mark (n : Nat) (s : State) : (grantHeads n s).fba.overBudget = s.fba.overBudget := by
  induction n generalizing s with
  | zero => rfl
  | succ n ih =>
    unfold grantHeads
    split
    · rfl
    · next t ht => exact (ih t).trans (grantHead_admits ht).mark

theorem review_within {s : State} (h : s.fba.committed ≤ s.fba.beff) :
    (review s).fba.overBudget = false ∧ (review s).fba.committed ≤ (review s).fba.beff := by
  have hc : clearOverBudget s = s.withFba { s.fba with overBudget := false } := if_pos h
  have hr : review s = grantHeads (s.fba.raises.length + 2 * s.fba.starts.length) (s.withFba { s.fba with overBudget := false }) := by
    unfold review reexamine
    rw [hc]
    exact if_neg Bool.false_ne_true
  rw [hr]
  exact ⟨grantHeads_mark _ _, (grantHeads_keeps _ _).2 h⟩

/-- R67: OVER_BUDGET stands exactly where committed draw is above B_eff, and its event is set on the declaration. -/
structure BudgetFound (s t : State) : Prop where
  mark  : t.fba.overBudget = decide (t.fba.beff < t.fba.committed)
  event : t.evu.isSet .overBudget = ((t.fba.overBudget && !s.fba.overBudget) || s.evu.isSet .overBudget)

theorem budgetFound_review {s : State} (h : s.fba.committed ≤ s.fba.beff) : BudgetFound s (review s) := by
  obtain ⟨h1, h2⟩ := review_within h
  refine ⟨by rw [h1]; simp [h2], ?_⟩
  rw [h1, (review_changes s).at .evu]
  simp

theorem budgetFound_check (s : State) : BudgetFound s (checkOrReview s) := by
  unfold checkOrReview
  split
  · have hr : Regrants s (shedStep .heat .base (shedStep .low .air (shedStep .high .low s))) :=
      ((shedStep_regrants _ _ s).trans (shedStep_regrants _ _ _)).trans (shedStep_regrants _ _ _)
    unfold budgetCheck
    dsimp only
    generalize shedStep .heat .base (shedStep .low .air (shedStep .high .low s)) = u at hr
    have hevu : u.evu = s.evu := hr.changes.at .evu
    split
    · next hc =>
      have h := budgetFound_review hc
      exact ⟨h.mark, by rw [h.event, hr.mark, hevu]⟩
    · next hc =>
      refine ⟨?_, ?_⟩
      · rw [setEventIf_fba]
        have : u.fba.beff < u.fba.committed := by omega
        simp only [State.withFba_fba]
        exact (decide_eq_true this).symm
      · rw [setEventIf_isSet, setEventIf_fba, hr.mark]
        simp [hevu]
  · next h => exact budgetFound_review (by omega)

/-- R51, R73: what the demand taken at a reset's end leaves. -/
structure DemandTaken (s t : State) : Prop where
  demand   : t.fba.demand = s.fba.line
  debounce : t.fba.debounce = 0
  line     : t.fba.line = s.fba.line
  beff     : t.fba.beff = t.effectiveBudget
  budget   : BudgetFound s t
  shed     : t.evu.isSet .demandShed = (s.fba.line == .shed || s.evu.isSet .demandShed)
  flags    : SetsAmong [.overBudget, .demandShed] s t
  changes  : ChangesOnly [.msv, .mbc, .fba, .evu] s t

theorem takeDemand_taken (s : State) : DemandTaken s (takeDemand s) := by
  suffices h : ∀ v, v = s.withFba { s.fba with demand := s.fba.line, debounce := 0 } →
      DemandTaken s (setEventIf (s.fba.line == .shed) .demandShed (recomputeBudget v)) from h _ rfl
  intro v hv
  have hb : BudgetFound (v.withFba { v.fba with beff := v.effectiveBudget }) (recomputeBudget v) := budgetFound_check _
  have hg := recomputeBudget_given v
  have hf := recomputeBudget_setsAmong v
  have hc := recomputeBudget_changes v
  have hsv : ChangesOnly [.fba] s v := hv ▸ withFba_changes _ s
  have hline : v.fba.line = s.fba.line := by rw [hv]; rfl
  have hdemand : v.fba.demand = s.fba.line := by rw [hv]; rfl
  have hdeb : v.fba.debounce = 0 := by rw [hv]; rfl
  have hover : v.fba.overBudget = s.fba.overBudget := by rw [hv]; rfl
  have hevu : v.evu = s.evu := hsv.at .evu
  generalize recomputeBudget v = u at *
  have hset := setEventIf_changes (s.fba.line == .shed) .demandShed u
  unfold Fba.given at hg
  simp only [Prod.mk.injEq] at hg
  obtain ⟨g1, g2, g3, g4⟩ := hg
  exact
    { demand := by rw [setEventIf_fba, g3, hdemand]
      debounce := by rw [setEventIf_fba, g4, hdeb]
      line := by rw [setEventIf_fba, g2, hline]
      beff := by
        unfold State.effectiveBudget at g1 ⊢
        rw [setEventIf_fba, setEventIf_sst, g1, g3, hc.at .sst]
      budget := ⟨by rw [setEventIf_fba]; exact hb.mark, by
        rw [setEventIf_isSet, setEventIf_fba, hb.event, State.withFba_evu, hevu]
        simp [hover]⟩
      shed := by
        rw [setEventIf_isSet, hf.flag .demandShed, hevu]
        simp
      flags := ((hsv.setsAmong).trans hf.mono).trans (setEventIf_setsAmong _ .demandShed _).mono
      changes := (hsv.seq hc (rs := [.msv, .mbc, .fba, .evu])).seq hset }

/-! ## STOP(abort) for each ABORTING record (R26) -/

theorem sameBus_restop {m n : Addr} (h : n ≠ m) (s : State) : SameBus m s (restop n s) :=
  .ite (sameBus_queueCommand h _ _ s) (.refl m s)

theorem foldl_restop_others {m : Addr} {l : List Addr} (h : m ∉ l) (s : State) :
    SameBus m s (l.foldl (fun s m => restop m s) s) := by
  induction l generalizing s with
  | nil => exact .refl m s
  | cons n l ih =>
    rw [List.mem_cons, not_or] at h
    exact (sameBus_restop (Ne.symm h.1) s).trans (ih h.2 (restop n s))

theorem foldl_restop_commands {m : Addr} {l : List Addr} (hn : l.Nodup) (h : m ∈ l) {s : State}
    (hx : (s.record m).state = .aborting) (hk : (s.node m).known = true) :
    Commanded (l.foldl (fun s m => restop m s) s) m (.stop true) := by
  induction l generalizing s with
  | nil => cases h
  | cons n l ih =>
    rw [List.nodup_cons] at hn
    have hr := restop_changes n s
    rcases List.mem_cons.mp h with rfl | h
    · have hc : Commanded (restop m s) m (.stop true) := by
        unfold restop
        rw [if_pos hx]
        exact commanded_queueControl rfl hk
      exact hc.of_sameBus (foldl_restop_others hn.1 _)
    · have hne : n ≠ m := fun he => hn.1 (he ▸ h)
      exact ih hn.2 h (by rw [hr.record]; exact hx) (by rw [(sameBus_restop hne s).node]; exact hk)

theorem queues_restop (s : State) : Queues s (forMachines restop s) :=
  Queues.foldl (fun s m => .ite (queueControl_queues m _ s) (.refl s)) _ s

theorem restop_commands {m : Addr} {s : State} (hx : (s.record m).state = .aborting) (hk : (s.node m).known = true) :
    Commanded (forMachines restop s) m (.stop true) :=
  foldl_restop_commands allMachines_nodup (mem_allMachines m) hx hk

/-! ## The orders converted (R90, R95) -/

/-- The flags that an uncertain outcome may set. -/
abbrev uncertainFlags : List EventFlag :=
  [.journalWaiting, .journalTight, .journalFull, .refundCredited, .debitUncertain, .debitUnresolved]

theorem createPending_setsAmong (o : Order) (s : State) : SetsAmong uncertainFlags s (createPending o s) := by
  have h : SetsAmong uncertainFlags s (if Config.pendingEntries ≤ s.cru.pendings.length then evictPending s else s) := by
    refine .ite ?_ (.refl s)
    unfold evictPending
    split
    · exact .refl s
    · exact (dropPending_setsAmong _ _ _ _ s).mono
  exact (h.trans ((withCru_changes _ _).seq (pledgeFor_changes o _) (rs := [.cru])).setsAmong).trans (returnSlots_setsAmong 1 _).mono

theorem updatePending_setsAmong (o : Order) (res : Resolution) (s : State) : SetsAmong uncertainFlags s (updatePending o res s) := by
  have h1 : ∀ taken r, SetsAmong uncertainFlags s (settleRefund o.serial taken r s) := fun taken r => by
    unfold settleRefund
    split
    · exact .refl s
    · exact .ite ((removeRefund_setsAmong _ s).trans (returnSlots_setsAmong 1 _).mono) (mapRefund_setsAmong _ _ s)
  have h2 : ∀ r u, SetsAmong uncertainFlags u (recordRemainder o.serial r u) := fun r u => by
    unfold recordRemainder
    split
    · exact .refl u
    · exact (writeMoney_setsAmong _ u).mono.trans (setEvent_setsAmong .refundCredited _).mono
  have h3 : ∀ u : State, SetsAmong uncertainFlags u (pledgeFor o ((removePending o.serial u).withCru
      { (removePending o.serial u).cru with pendings := (removePending o.serial u).cru.pendings ++ [o.pendingEntry s.today] })) :=
    fun u => (((removePending_changes o.serial u).seq (withCru_changes _ _) (rs := [.cru])).seq (pledgeFor_changes o _)
      (rs := [.cru])).setsAmong
  have h4 := (h1 (tookFolded (some res) (s.cru.pendingOf o.serial)) res.remainder)
  unfold updatePending
  dsimp only
  exact ((SetsAmong.ite (h4.trans (h2 _ _)) h4).trans (h3 _)).trans (returnSlots_setsAmong _ _).mono

theorem recordUncertain_setsAmong (o : Order) (d : Detail) (s : State) : SetsAmong uncertainFlags s (recordUncertain o d s) := by
  have h1 : SetsAmong uncertainFlags s (setEvent .debitUncertain (writeMoney (o.body .debitUncertain d) s)) :=
    (writeMoney_setsAmong _ s).mono.trans (setEvent_setsAmong .debitUncertain _).mono
  unfold recordUncertain
  dsimp only
  split
  · exact h1.trans (createPending_setsAmong o _)
  · exact h1.trans (updatePending_setsAmong o _ _)

/-- R90: its event is set, and the journal holds a record. -/
theorem recordUncertain_marks (o : Order) (d : Detail) (s : State) :
    (recordUncertain o d s).evu.isSet .debitUncertain = true ∧ (recordUncertain o d s).jrn.records ≠ [] := by
  have h1 := (setEvent_isSet .debitUncertain .debitUncertain (writeMoney (o.body .debitUncertain d) s)).trans rfl
  have h2 : (setEvent .debitUncertain (writeMoney (o.body .debitUncertain d) s)).jrn.records ≠ [] := by
    show (writeMoney (o.body .debitUncertain d) s).jrn.records ≠ []
    by_cases hr : s.jrn.reservations = 0
    · unfold writeMoney
      rw [if_pos hr, writeFree_jrn]
      split
      · next hf =>
        unfold Jrn.free at hf
        have hcap : Config.journalSlots = 128 := rfl
        intro he
        rw [he, hr, hcap] at hf
        simp at hf
      · simp [Jrn.append]
    · rw [writeMoney_jrn _ _ hr]
      simp [Jrn.append]
  unfold recordUncertain
  dsimp only
  split
  · have hst := createPending_steady o (setEvent .debitUncertain (writeMoney (o.body .debitUncertain d) s))
    exact ⟨hst.flags _ h1, fun he => h2 (List.prefix_nil.mp (he ▸ hst.records))⟩
  · next res _ =>
    have hst := updatePending_steady o res (setEvent .debitUncertain (writeMoney (o.body .debitUncertain d) s))
    exact ⟨hst.flags _ h1, fun he => h2 (List.prefix_nil.mp (he ▸ hst.records))⟩

/-- R95: what one exchange's conversion leaves beside the books. -/
structure ConvertedOne (st : Station) (s t : State) : Prop where
  pay       : t.pay = (s.setExchange st { s.exchange st with order := none }).pay
  uncertain : t.evu.isSet .debitUncertain = ((s.exchange st).order.isSome || s.evu.isSet .debitUncertain)
  records   : ((s.exchange st).order.isSome = true → t.jrn.records ≠ []) ∧ s.jrn.records <+: t.jrn.records
  flags     : SetsAmong uncertainFlags s t
  none      : (s.exchange st).order = none → t = s
  changes   : ChangesOnly [.pay, .cru, .jrn, .evu] s t

theorem convertExchange_converted (st : Station) (s : State) : ConvertedOne st s (convertExchange st s) := by
  cases ho : (s.exchange st).order with
  | none =>
    have heq : convertExchange st s = s := by unfold convertExchange; rw [ho]
    rw [heq]
    refine ⟨?_, by rw [ho]; rfl, ⟨fun h => absurd (ho ▸ h) (by simp), List.prefix_rfl⟩, .refl s, fun _ => rfl, .refl _ s⟩
    have hx : ({ s.exchange st with order := none } : Exchange) = s.exchange st := by rw [← ho]
    rw [hx]
    cases st <;> rfl
  | some o =>
    have heq : convertExchange st s = idleExchange st (recordUncertain o .reset s) := by unfold convertExchange; rw [ho]
    have hc := recordUncertain_changes o .reset s
    obtain ⟨hm, hr⟩ := recordUncertain_marks o .reset s
    have hf := recordUncertain_setsAmong o .reset s
    have hst := recordUncertain_steady o .reset s
    rw [heq]
    generalize recordUncertain o .reset s = u at *
    have hi := idleExchange_changes st u
    have hpay : u.pay = s.pay := hc.at .pay
    refine ⟨?_, ?_, ⟨fun _ => ?_, ?_⟩, hf.trans hi.setsAmong, fun h => absurd (ho.symm.trans h) (by simp), hc.seq hi⟩
    · unfold idleExchange
      rw [exchange_of_pay hpay]
      cases st <;> simp [State.setExchange, hpay]
    · rw [hi.at .evu, hm, ho]; rfl
    · rw [hi.at .jrn]; exact hr
    · rw [hi.at .jrn]; exact hst.records

/-- R90: what an uncertain outcome leaves of the books is found from the books and the clock alone. -/
theorem uncertain_congr {s u : State} (hcru : u.cru = s.cru) (hjrn : u.jrn = s.jrn) (hclock : u.sst.clock = s.sst.clock)
    (o : Order) (d : Detail) (x : Option Order) :
    (u.uncertain o d x).cru = (s.uncertain o d x).cru ∧ (u.uncertain o d x).jrn = (s.uncertain o d x).jrn ∧
      (u.uncertain o d x).sst.clock = (s.uncertain o d x).sst.clock := by
  unfold State.uncertain State.evictedFor State.stamp State.today
  rw [hcru, hjrn, hclock]
  exact ⟨rfl, rfl, rfl⟩

/-- Two states that the conversion of the orders cannot tell apart. -/
structure SameOrders (s u : State) : Prop where
  cru   : u.cru = s.cru
  jrn   : u.jrn = s.jrn
  clock : u.sst.clock = s.sst.clock
  a     : u.pay.a.order = s.pay.a.order
  b     : u.pay.b.order = s.pay.b.order

theorem SameOrders.converted {s u t : State} (h : SameOrders s u) (hu : Converted u t) : Converted s t := by
  unfold Converted at hu ⊢
  rw [h.a, h.b] at hu
  cases ha : s.pay.a.order with
  | none =>
    rw [ha] at hu
    cases hb : s.pay.b.order with
    | none => rw [hb] at hu; exact ⟨hu.1.trans h.cru, hu.2.trans h.jrn⟩
    | some y =>
      rw [hb] at hu
      obtain ⟨h1, h2, _⟩ := uncertain_congr h.cru h.jrn h.clock y .reset none
      exact ⟨hu.1.trans h1, hu.2.trans h2⟩
  | some x =>
    rw [ha] at hu
    obtain ⟨h1, h2, h3⟩ := uncertain_congr h.cru h.jrn h.clock x .reset s.pay.b.order
    cases hb : s.pay.b.order with
    | none => rw [hb] at hu h1 h2; exact ⟨hu.1.trans h1, hu.2.trans h2⟩
    | some y =>
      rw [hb] at hu h1 h2 h3
      obtain ⟨k1, k2, _⟩ := uncertain_congr h1 h2 h3 y .reset none
      exact ⟨hu.1.trans k1, hu.2.trans k2⟩

theorem SameOrders.ready {s u : State} (h : SameOrders s u) (hb : u.BooksBacked) (hs : s.BooksReady) : u.BooksReady := by
  refine ⟨hb, by unfold State.RefundsFit; rw [h.cru]; exact hs.2.1, fun st o ho => ?_⟩
  rw [h.cru]
  cases st
  · exact hs.2.2 .a o (h.a.symm.trans ho)
  · exact hs.2.2 .b o (h.b.symm.trans ho)

theorem convertExchange_books {s : State} {st : Station} {o : Order} (hb : s.BooksReady) (ho : (s.exchange st).order = some o) :
    (convertExchange st s).cru = (s.uncertain o .reset (s.exchange (otherStation st)).order).cru ∧
    (convertExchange st s).jrn = (s.uncertain o .reset (s.exchange (otherStation st)).order).jrn := by
  have heq : convertExchange st s = idleExchange st (recordUncertain o .reset s) := by unfold convertExchange; rw [ho]
  have h := recordedUncertain (cause := .reset) (uncertains_of_booksReady hb ho)
  have hi := idleExchange_changes st (recordUncertain o .reset s)
  rw [heq]
  exact ⟨(hi.at .cru).trans h.cru, (hi.at .jrn).trans h.jrn⟩

/-- R90, R118: an uncertain outcome takes no refund entry but its own card's out of the table. -/
theorem refund_uncertain_other {s : State} {o : Order} {d : Detail} {x : Option Order} {k : Nat} (hk : k ≠ o.serial)
    (h : ∃ e ∈ s.cru.refunds, e.serial = k) : ∃ e ∈ (s.uncertain o d x).cru.refunds, e.serial = k := by
  obtain ⟨e, he, rfl⟩ := h
  unfold State.uncertain
  dsimp only
  have hmem : e ∈ (if o.resolution = none then s.cru.refunds
      else settledRefunds o.serial (tookFolded o.resolution (s.cru.pendingOf o.serial)) o.back s.cru.refunds) := by
    split
    · exact he
    · exact List.mem_filterMap.mpr ⟨e, he, if_neg hk⟩
  refine ⟨_, List.mem_map.mpr ⟨e, hmem, rfl⟩, ?_⟩
  rw [if_neg hk]
  split <;> rfl

/-- R95: both exchanges converted, station A before station B. -/
structure ConvertedBoth (s t : State) : Prop where
  pay       : t.pay = { s.pay with a := { s.pay.a with order := none }, b := { s.pay.b with order := none } }
  uncertain : t.evu.isSet .debitUncertain = (s.pay.a.order.isSome || s.pay.b.order.isSome || s.evu.isSet .debitUncertain)
  records   : (s.pay.a.order.isSome || s.pay.b.order.isSome) = true → t.jrn.records ≠ []
  flags     : SetsAmong uncertainFlags s t
  none      : s.pay.a.order = none → s.pay.b.order = none → t = s
  books     : s.BooksReady → Converted s t
  changes   : ChangesOnly [.pay, .cru, .jrn, .evu] s t

theorem convertExchange_ready {s : State} (hb : s.BooksReady) : (convertExchange .a s).BooksReady := by
  have ha := convertExchange_converted .a s
  have hup := convertExchange_upholds .a s
  have hpay := ha.pay
  refine ⟨hup.books hb.1, hup.steady.refunds hb.2.1, fun st y hy hback => ?_⟩
  cases st with
  | a =>
    have : ((convertExchange .a s).exchange .a).order = none := by
      show (convertExchange .a s).pay.a.order = none
      rw [hpay]; rfl
    exact absurd (this.symm.trans hy) (by simp)
  | b =>
    have hyb : s.pay.b.order = some y := by
      rw [← hy]
      show s.pay.b.order = (convertExchange .a s).pay.b.order
      rw [hpay]; rfl
    have hentry := hb.2.2 .b y hyb hback
    cases ho : s.pay.a.order with
    | none => rw [ha.none ho]; exact hentry
    | some x =>
      rw [(convertExchange_books hb (st := .a) ho).1]
      exact refund_uncertain_other (fun he => hb.1.1 x y ho hyb he.symm) hentry

theorem convertBoth_converted (s : State) : ConvertedBoth s (convertExchange .b (convertExchange .a s)) := by
  have ha := convertExchange_converted .a s
  have hb := convertExchange_converted .b (convertExchange .a s)
  have horder : ((convertExchange .a s).exchange .b).order = s.pay.b.order := by
    show (convertExchange .a s).pay.b.order = _
    rw [ha.pay]; rfl
  have hnone : ((convertExchange .a s).exchange .a).order = none := by
    show (convertExchange .a s).pay.a.order = none
    rw [ha.pay]; rfl
  have hclock : (convertExchange .a s).sst = s.sst := ha.changes.at .sst
  have hbooks : s.BooksReady → Converted s (convertExchange .b (convertExchange .a s)) := fun hs => by
    have hr := convertExchange_ready hs
    have hmid : (s.pay.a.order = none → convertExchange .a s = s) ∧ ∀ x, s.pay.a.order = some x →
        (convertExchange .a s).cru = (s.uncertain x .reset s.pay.b.order).cru ∧
        (convertExchange .a s).jrn = (s.uncertain x .reset s.pay.b.order).jrn :=
      ⟨ha.none, fun x hx => convertExchange_books hs (st := .a) hx⟩
    have hend : ∀ y, s.pay.b.order = some y →
        (convertExchange .b (convertExchange .a s)).cru = ((convertExchange .a s).uncertain y .reset none).cru ∧
        (convertExchange .b (convertExchange .a s)).jrn = ((convertExchange .a s).uncertain y .reset none).jrn := fun y hy => by
      have h := convertExchange_books hr (st := .b) (horder.trans hy)
      rwa [show otherStation .b = .a from rfl, hnone] at h
    have hstill : s.pay.b.order = none → convertExchange .b (convertExchange .a s) = convertExchange .a s :=
      fun h => hb.none (horder.trans h)
    generalize convertExchange .b (convertExchange .a s) = t at *
    generalize convertExchange .a s = v at *
    unfold Converted
    cases hx : s.pay.a.order with
    | none =>
      cases hmid.1 hx
      cases hy : s.pay.b.order with
      | none => rw [hstill hy]; exact ⟨rfl, rfl⟩
      | some y => exact hend y hy
    | some x =>
      obtain ⟨h1, h2⟩ := hmid.2 x hx
      cases hy : s.pay.b.order with
      | none => rw [hstill hy]; rw [hy] at h1 h2; exact ⟨h1, h2⟩
      | some y =>
        rw [hy] at h1 h2
        obtain ⟨h3, h4⟩ := hend y hy
        obtain ⟨k1, k2, _⟩ := uncertain_congr h1 h2 (congrArg Sst.clock hclock) y .reset none
        exact ⟨h3.trans k1, h4.trans k2⟩
  refine
    { pay := by rw [hb.pay, State.setExchange, State.exchange, ha.pay]; rfl
      uncertain := by
        rw [hb.uncertain, ha.uncertain, horder]
        show (_ || (s.pay.a.order.isSome || _)) = _
        cases s.pay.a.order.isSome <;> cases s.pay.b.order.isSome <;> rfl
      records := fun h => ?_
      flags := ha.flags.trans hb.flags
      none := fun h1 h2 => by
        have := ha.none h1
        rw [this] at hb ⊢
        exact hb.none h2
      books := hbooks
      changes := ha.changes.seq hb.changes }
  rcases Bool.or_eq_true _ _ ▸ h with h | h
  · exact fun he => ha.records.1 h (List.prefix_nil.mp (he ▸ hb.records.2))
  · exact hb.records.1 (by rw [horder]; exact h)

end Sys2Proof.Machine
end


section
/-! PROOF. The end of a reset, put together, and the end of a warm reset (R172, R181). -/
namespace Sys2Proof.Machine

theorem journalEvents_isSet (s : State) (f : EventFlag) : (journalEvents s).evu.isSet f =
    ((s.jrn.state == .full && decide (EventFlag.journalFull = f)) || ((s.jrn.state == .tight && decide (EventFlag.journalTight = f)) ||
      ((!s.jrn.records.isEmpty && decide (EventFlag.journalWaiting = f)) || s.evu.isSet f))) := by
  unfold journalEvents
  rw [setEventIf_isSet, setEventIf_isSet, setEventIf_isSet]

theorem lossEvents_isSet (b c : Bool) (s : State) (f : EventFlag) : (lossEvents b c s).evu.isSet f =
    ((s.pay.halted && decide (EventFlag.payHalted = f)) || ((c && decide (EventFlag.settingsLost = f)) ||
      ((b && decide (EventFlag.retainedLost = f)) || s.evu.isSet f))) := by
  unfold lossEvents
  rw [setEventIf_isSet, setEventIf_isSet, setEventIf_isSet]

theorem Jrn.state_tight_iff (j : Jrn) : j.state = .tight ↔ 1 ≤ j.free ∧ j.free ≤ 2 := by
  unfold Jrn.state
  split
  · exact ⟨fun h => absurd h (by simp), fun h => by omega⟩
  · split
    · exact ⟨fun _ => by omega, fun _ => rfl⟩
    · exact ⟨fun h => absurd h (by simp), fun h => by omega⟩

theorem Jrn.state_full_iff (j : Jrn) : j.state = .full ↔ j.free = 0 := by
  unfold Jrn.state
  split
  · exact ⟨fun h => absurd h (by simp), fun h => by omega⟩
  · split
    · exact ⟨fun h => absurd h (by simp), fun h => by omega⟩
    · exact ⟨fun _ => by omega, fun _ => rfl⟩

theorem Jrn.state_tight_beq (j : Jrn) : (j.state == .tight) = (decide (1 ≤ j.free) && decide (j.free ≤ 2)) := by
  rw [Bool.eq_iff_iff, beq_iff_eq, Jrn.state_tight_iff]
  simp

theorem Jrn.state_full_beq (j : Jrn) : (j.state == .full) = (j.free == 0) := by
  rw [Bool.eq_iff_iff, beq_iff_eq, Jrn.state_full_iff]
  simp

/-- The flags that a reset's end may set where no order stood. -/
abbrev resetFlags : List EventFlag :=
  [.journalWaiting, .journalTight, .journalFull, .payHalted, .settingsLost, .retainedLost, .demandShed, .overBudget]

/-- R170: the masks and the class enables stand. -/
structure SameMasks (s t : State) : Prop where
  masks       : t.evu.masks = s.evu.masks
  routine     : t.evu.routine = s.evu.routine
  exceptional : t.evu.exceptional = s.evu.exceptional

theorem SameMasks.refl (s : State) : SameMasks s s := ⟨rfl, rfl, rfl⟩

theorem SameMasks.trans {s t u : State} (h : SameMasks s t) (k : SameMasks t u) : SameMasks s u :=
  ⟨k.masks.trans h.masks, k.routine.trans h.routine, k.exceptional.trans h.exceptional⟩

theorem SameMasks.of_evu {s t : State} (h : t.evu = s.evu) : SameMasks s t := ⟨by rw [h], by rw [h], by rw [h]⟩

theorem sameMasks_setEventIf (c : Bool) (f : EventFlag) (s : State) : SameMasks s (setEventIf c f s) := by
  cases c
  · exact .refl s
  · exact ⟨rfl, rfl, rfl⟩

theorem sameMasks_withFba (f : Fba) (s : State) : SameMasks s (s.withFba f) := ⟨rfl, rfl, rfl⟩

theorem sameMasks_review (s : State) : SameMasks s (review s) := .of_evu ((review_changes s).at .evu)

theorem sameMasks_recomputeBudget (s : State) : SameMasks s (recomputeBudget s) := by
  suffices h : ∀ v : State, SameMasks v (checkOrReview v) from
    (sameMasks_withFba _ s).trans (h _)
  intro v
  unfold checkOrReview
  split
  · have hr : SameMasks v (shedStep .heat .base (shedStep .low .air (shedStep .high .low v))) :=
      .of_evu ((((shedStep_regrants _ _ v).trans (shedStep_regrants _ _ _)).trans (shedStep_regrants _ _ _)).changes.at .evu)
    unfold budgetCheck
    dsimp only
    split
    · exact hr.trans (sameMasks_review _)
    · exact (hr.trans (sameMasks_withFba _ _)).trans (sameMasks_setEventIf _ _ _)
  · exact sameMasks_review v

theorem sameMasks_takeDemand (s : State) : SameMasks s (takeDemand s) :=
  (sameMasks_withFba _ s).trans ((sameMasks_recomputeBudget _).trans (sameMasks_setEventIf _ _ _))

/-- What every reset's end leaves, `d` being the state once the demand is taken, `b` and `c` saying whether retained memory and the settings were lost. -/
structure ResetEnded (b c fast : Bool) (s d t : State) : Prop where
  phase     : t.phase = .running
  msv       : t.msv = { d.msv with recoveryWindow := some 30 }
  fba       : t.fba = d.fba
  bus       : Queues d t
  restopped : ∀ m, (t.record m).state = .aborting → (t.node m).known = true → Commanded t m (.stop true)
  levels    : ∀ n, t.mbc.waiting n .level = d.mbc.waiting n .level
  noStops   : (∀ m, (t.record m).state ≠ .aborting) → t.mbc = d.mbc
  hli       : t.hli = { s.hli with fast := fast }
  pay       : t.pay = { s.pay with a := { s.pay.a with order := none }, b := { s.pay.b with order := none } }
  books     : s.BooksReady → Converted s t
  noOrders  : s.pay.a.order = none → s.pay.b.order = none → t.cru = s.cru ∧ t.jrn = s.jrn ∧ SetsAmong resetFlags s t ∧ SameMasks s t
  uncertain : t.evu.isSet .debitUncertain = (s.pay.a.order.isSome || s.pay.b.order.isSome || s.evu.isSet .debitUncertain)
  settings  : t.evu.isSet .settingsLost = (c || s.evu.isSet .settingsLost)
  retained  : t.evu.isSet .retainedLost = (b || s.evu.isSet .retainedLost)
  halted    : t.evu.isSet .payHalted = (s.pay.halted || s.evu.isSet .payHalted)
  shed      : t.evu.isSet .demandShed = (s.fba.line == .shed || s.evu.isSet .demandShed)
  overdrawn : t.evu.isSet .overBudget = ((t.fba.overBudget && !s.fba.overBudget) || s.evu.isSet .overBudget)
  waiting   : t.evu.isSet .journalWaiting = (!t.jrn.records.isEmpty || s.evu.isSet .journalWaiting)
  tight     : 1 ≤ t.jrn.free → t.jrn.free ≤ 2 → t.evu.isSet .journalTight = true
  full      : t.jrn.free = 0 → t.evu.isSet .journalFull = true
  stands    : s.pay.a.order = none → s.pay.b.order = none →
    t.evu.isSet .journalTight = ((1 ≤ s.jrn.free && s.jrn.free ≤ 2) || s.evu.isSet .journalTight) ∧
    t.evu.isSet .journalFull = (s.jrn.free == 0 || s.evu.isSet .journalFull)
  changes   : ChangesOnly [.phase, .msv, .mbc, .fba, .pay, .cru, .jrn, .evu, .hli] s t

theorem waiting_restop (m : Addr) (s : State) :
    ∀ n, ((restop m s).mbc.waiting n .level) = s.mbc.waiting n .level := by
  intro n
  unfold restop
  split
  · unfold queueControl queueCommand
    dsimp only [BusCommand.cls]
    split
    · exact find?_enqueueIn_class (by decide) _ _ _ _ _ rfl
    · rfl
  · rfl

theorem waiting_foldl_restop (l : List Addr) (s : State) (n : Addr) :
    (l.foldl (fun s m => restop m s) s).mbc.waiting n .level = s.mbc.waiting n .level := by
  induction l generalizing s with
  | nil => rfl
  | cons m l ih => exact (ih (restop m s)).trans (waiting_restop m s n)

theorem foldl_restop_id {l : List Addr} {s : State} (h : ∀ m, (s.record m).state ≠ .aborting) :
    l.foldl (fun s m => restop m s) s = s := by
  induction l with
  | nil => rfl
  | cons n l ih =>
    rw [List.foldl_cons, show restop n s = s from if_neg (h n)]
    exact ih

theorem resetEnded_finishReset (b c fast : Bool) (s : State) : ResetEnded b c fast s (takeDemand s) (finishReset b c fast s) := by
  have hd := takeDemand_taken s
  have hmd := sameMasks_takeDemand s
  have hr := forMachines_restop_changes (takeDemand s)
  have hqr := queues_restop (takeDemand s)
  have hcmd := fun m => restop_commands (m := m) (s := takeDemand s)
  have hlev : ∀ n, (forMachines restop (takeDemand s)).mbc.waiting n .level = (takeDemand s).mbc.waiting n .level :=
    waiting_foldl_restop allMachines (takeDemand s)
  have hid : (∀ m, ((takeDemand s).record m).state ≠ .aborting) → forMachines restop (takeDemand s) = takeDemand s := foldl_restop_id
  have hrb : s.BooksReady → (forMachines restop (takeDemand s)).BooksReady := fun hs => by
    have hk := (takeDemand_declares s).1.trans (Keeps.forMachines restop_keeps (takeDemand s))
    exact SameOrders.ready ⟨(hr.at .cru).trans (hd.changes.at .cru), (hr.at .jrn).trans (hd.changes.at .jrn),
      congrArg Sst.clock ((hr.at .sst).trans (hd.changes.at .sst)), by rw [hr.at .pay, hd.changes.at .pay],
      by rw [hr.at .pay, hd.changes.at .pay]⟩ (hk.backed.books hs.1) hs
  rw [finishReset_eq, settleReset]
  generalize takeDemand s = d at *
  generalize forMachines restop d = r at *
  have hdr : ChangesOnly [.msv, .mbc, .fba, .evu] s r := hd.changes.seq hr
  have hpay : r.pay = s.pay := hdr.at .pay
  have horders : SameOrders s r := ⟨hdr.at .cru, hdr.at .jrn, congrArg Sst.clock (hdr.at .sst), by rw [hpay], by rw [hpay]⟩
  have hevu : r.evu = d.evu := hr.at .evu
  have hv := convertBoth_converted r
  generalize convertExchange .b (convertExchange .a r) = v at *
  have hvpay := hv.pay
  have hj := journalEvents_changes v
  have hl := lossEvents_changes b c (journalEvents v)
  have hflag : ∀ f, (resume fast (lossEvents b c (journalEvents v))).evu.isSet f =
      ((s.pay.halted && decide (EventFlag.payHalted = f)) || ((c && decide (EventFlag.settingsLost = f)) ||
      ((b && decide (EventFlag.retainedLost = f)) || ((v.jrn.state == .full && decide (EventFlag.journalFull = f)) ||
      ((v.jrn.state == .tight && decide (EventFlag.journalTight = f)) ||
      ((!v.jrn.records.isEmpty && decide (EventFlag.journalWaiting = f)) || v.evu.isSet f)))))) := fun f => by
    rw [(resume_changes fast _).at .evu, lossEvents_isSet, journalEvents_isSet, hj.at .pay, hvpay, hpay]
  have hm : SameMasks v (resume fast (lossEvents b c (journalEvents v))) := by
    have h1 : SameMasks v (journalEvents v) :=
      ((sameMasks_setEventIf _ _ v).trans (sameMasks_setEventIf _ _ _)).trans (sameMasks_setEventIf _ _ _)
    have h2 : SameMasks (journalEvents v) (lossEvents b c (journalEvents v)) :=
      ((sameMasks_setEventIf _ _ _).trans (sameMasks_setEventIf _ _ _)).trans (sameMasks_setEventIf _ _ _)
    exact (h1.trans h2).trans (.of_evu ((resume_changes fast _).at .evu))
  have hvl : ChangesOnly [.evu] v (lossEvents b c (journalEvents v)) := hj.seq hl
  generalize lossEvents b c (journalEvents v) = l at *
  have hres := resume_changes fast l
  have hjrn : (resume fast l).jrn = v.jrn := (hres.at .jrn).trans (hvl.at .jrn)
  have hmsv : (resume fast l).msv = { d.msv with recoveryWindow := some 30 } := by
    show ({ l.msv with recoveryWindow := some Config.recoverySeconds } : Msv) = _
    rw [hvl.at .msv, hv.changes.at .msv, hr.at .msv]; rfl
  have hmbc : (resume fast l).mbc = r.mbc := (hres.at .mbc).trans ((hvl.at .mbc).trans (hv.changes.at .mbc))
  have hrec : ∀ m, (resume fast l).record m = d.record m := fun m => by rw [State.record, hmsv]; rfl
  have hnode : ∀ m, (resume fast l).node m = d.node m := fun m => by
    unfold State.node; rw [hmbc]; exact hqr.node m
  have hfba : (resume fast l).fba = d.fba := (hres.at .fba).trans ((hvl.at .fba).trans ((hv.changes.at .fba).trans (hr.at .fba)))
  have hnov : r.pay.a.order = none → r.pay.b.order = none → v = r := hv.none
  rw [hpay] at hnov hvpay
  have hu : ∀ f, f ∉ [EventFlag.overBudget, .demandShed] → r.evu.isSet f = s.evu.isSet f := fun f hf => by
    rw [hevu]; exact hd.flags f hf
  have hvu : ∀ f, f ∉ uncertainFlags → v.evu.isSet f = r.evu.isSet f := hv.flags
  refine
    { phase := rfl
      msv := hmsv
      fba := hfba
      bus := ⟨by rw [hmbc]; exact hqr.bus, by rw [hmbc]; exact hqr.fresh⟩
      restopped := fun m hx hk => ?_
      levels := by rw [hmbc]; exact hlev
      noStops := fun h => ?_
      hli := ?_
      pay := ?_
      books := fun hs => ?_
      noOrders := fun ha hb => ?_
      uncertain := ?_
      settings := ?_
      retained := ?_
      halted := ?_
      shed := ?_
      overdrawn := ?_
      waiting := ?_
      tight := fun h1 h2 => ?_
      full := fun h => ?_
      stands := fun ha hb => ?_
      changes := ?_ }
  · have h := hcmd m (by rw [← hrec]; exact hx) (by rw [← hnode]; exact hk)
    unfold Commanded at h ⊢
    rw [hmbc]
    exact h
  · rw [hmbc, hid fun m => by rw [← hrec]; exact h m]
  · show ({ l.hli with fast := fast } : Hli) = _
    rw [hvl.at .hli, hv.changes.at .hli, hdr.at .hli]
  · rw [hres.at .pay, hvl.at .pay, hvpay]
  · have h := horders.converted (hv.books (hrb hs))
    unfold Converted at h ⊢
    rw [hjrn, hres.at .cru, hvl.at .cru]
    exact h
  · cases hnov ha hb
    refine ⟨(hres.at .cru).trans ((hvl.at .cru).trans horders.cru), hjrn.trans horders.jrn, fun f hf => ?_,
      (hmd.trans (.of_evu hevu)).trans hm⟩
    have hof : f ∉ [EventFlag.overBudget, .demandShed] := fun h => hf (by revert h; simp; tauto)
    rw [hflag, hu f hof]
    simp only [List.mem_cons, not_or] at hf
    obtain ⟨h1, h2, h3, h4, h5, h6, -⟩ := hf
    simp [Ne.symm h1, Ne.symm h2, Ne.symm h3, Ne.symm h4, Ne.symm h5, Ne.symm h6]
  · rw [hflag, hv.uncertain, hpay, hu .debitUncertain (by decide)]
    simp
  · rw [hflag, hvu .settingsLost (by decide), hu .settingsLost (by decide)]
    simp
  · rw [hflag, hvu .retainedLost (by decide), hu .retainedLost (by decide)]
    simp
  · rw [hflag, hvu .payHalted (by decide), hu .payHalted (by decide)]
    simp
  · rw [hflag, hvu .demandShed (by decide), hevu, hd.shed]
    simp
  · rw [hflag, hvu .overBudget (by decide), hevu, hd.budget.event, hfba]
    simp
  · rw [hflag, hjrn]
    cases ho : (s.pay.a.order.isSome || s.pay.b.order.isSome) with
    | false =>
      rw [Bool.or_eq_false_iff] at ho
      rw [hnov (Option.not_isSome_iff_eq_none.mp (by rw [ho.1]; simp)) (Option.not_isSome_iff_eq_none.mp (by rw [ho.2]; simp)),
        hu .journalWaiting (by decide)]
      simp
    | true =>
      have hne := hv.records (by rw [hpay]; exact ho)
      rw [show v.jrn.records.isEmpty = false from by rw [Bool.eq_false_iff, ne_eq, List.isEmpty_iff]; exact hne]
      simp
  · rw [hjrn] at h1 h2
    rw [hflag, (Jrn.state_tight_iff _).mpr ⟨h1, h2⟩]
    simp
  · rw [hjrn] at h
    rw [hflag, (Jrn.state_full_iff _).mpr h]
    simp
  · cases hnov ha hb
    refine ⟨?_, ?_⟩
    · rw [hflag, Jrn.state_tight_beq, horders.jrn, hu .journalTight (by decide)]
      simp
    · rw [hflag, Jrn.state_full_beq, horders.jrn, hu .journalFull (by decide)]
      simp
  · exact ((hdr.seq hv.changes (rs := [.msv, .mbc, .fba, .pay, .cru, .jrn, .evu])).seq hvl
      (rs := [.msv, .mbc, .fba, .pay, .cru, .jrn, .evu])).seq hres

/-- Settles O5: what every reset's end leaves, with no retained memory lost. -/
theorem warmResetEnds : Obligations.WarmResetEnds := by
  refine ⟨fun lost fast s hp => ⟨_, rfl, ?_⟩, fun fast s hp => ?_⟩
  · have heq : endWarm fast s = finishReset false lost fast (s.withResetHeld false) := by unfold endWarm; rw [hp]
    rw [heq]
    have hd := takeDemand_taken (s.withResetHeld false)
    have h := resetEnded_finishReset false lost fast (s.withResetHeld false)
    generalize finishReset false lost fast (s.withResetHeld false) = t at *
    have hfba := h.fba
    generalize takeDemand (s.withResetHeld false) = d at *
    have hpay := h.pay
    refine ⟨h.phase, h.changes.at .resetHeld, by rw [h.msv], h.hli, by rw [hfba]; exact hd.demand, by rw [hfba]; exact hd.debounce, ?_,
      by rw [hfba]; exact hd.budget.mark, h.overdrawn, h.pay,
      fun hs => SameOrders.converted (u := s.withResetHeld false) ⟨rfl, rfl, rfl, rfl, rfl⟩ (h.books hs), h.uncertain, h.settings, h.retained.trans (Bool.false_or _),
      h.halted, h.shed, h.waiting, h.tight, h.full, fun ha hb => ?_, h.restopped, ?_⟩
    · rw [hfba, hd.beff]
      unfold State.effectiveBudget
      rw [hfba, h.changes.at .sst, hd.changes.at .sst]
    · obtain ⟨h1, h2, _⟩ := h.noOrders ha hb
      exact ⟨h1, h2, h.stands ha hb⟩
    · exact (withResetHeld_changes false s).seq h.changes
  · refine congrArg Host.Outcome.next ?_
    unfold endWarm
    rw [hp]

end Sys2Proof.Machine
end


section
/-! PROOF. A cold reset, whole (R180). -/
namespace Sys2Proof.Machine

/-! ## The budget where nothing runs and nothing waits (R59, R65) -/

theorem shedStep_idle {u l : Level} {s : State} (h : ∀ m, (s.record m).state ≠ .running) : shedStep u l s = s := by
  unfold shedStep
  induction s.fba.startList.reverse with
  | nil => rfl
  | cons n ns ih =>
    have hn : s.sheddable n u l = false := by simp [State.sheddable, h n]
    rw [List.foldl_cons, hn, Bool.and_false, if_neg Bool.false_ne_true]
    exact ih

theorem review_empty {s : State} (hr : s.fba.raises = []) (hs : s.fba.starts = []) : review s = clearOverBudget s := by
  have hc : (clearOverBudget s).fba.raises = [] ∧ (clearOverBudget s).fba.starts = [] := by
    unfold clearOverBudget
    split
    · exact ⟨hr, hs⟩
    · exact ⟨hr, hs⟩
  unfold review reexamine
  rw [hc.1, hc.2]
  split
  · rfl
  · rfl

/-- Grants, queue and the other blocks stand; only the budget's own figures may have changed. -/
structure OnlyBudget (s t : State) : Prop where
  entries   : t.fba.entries = s.fba.entries
  startList : t.fba.startList = s.fba.startList
  raises    : t.fba.raises = s.fba.raises
  starts    : t.fba.starts = s.fba.starts
  changes   : ChangesOnly [.fba, .evu] s t

theorem onlyBudget_checkOrReview {s : State} (h : ∀ m, (s.record m).state ≠ .running) (hr : s.fba.raises = [])
    (hs : s.fba.starts = []) : OnlyBudget s (checkOrReview s) := by
  have hclear : OnlyBudget s (clearOverBudget s) := by
    unfold clearOverBudget
    split
    · exact ⟨rfl, rfl, rfl, rfl, (withFba_changes _ s).up⟩
    · exact ⟨rfl, rfl, rfl, rfl, .refl _ s⟩
  unfold checkOrReview
  split
  · unfold budgetCheck
    rw [shedStep_idle h, shedStep_idle h, shedStep_idle h]
    dsimp only
    split
    · rw [review_empty hr hs]; exact hclear
    · have hc : ChangesOnly [.fba, .evu] s (setEventIf (!s.fba.overBudget) .overBudget (s.withFba { s.fba with overBudget := true })) :=
        (withFba_changes _ s).seq (setEventIf_changes _ _ _)
      refine ⟨?_, ?_, ?_, ?_, hc⟩ <;> rw [setEventIf_fba] <;> rfl
  · rw [review_empty hr hs]; exact hclear

theorem onlyBudget_takeDemand {s : State} (h : ∀ m, (s.record m).state ≠ .running) (hr : s.fba.raises = [])
    (hs : s.fba.starts = []) : OnlyBudget s (takeDemand s) := by
  suffices hv : ∀ v : State, ChangesOnly [.fba] s v → v.fba.entries = s.fba.entries → v.fba.startList = s.fba.startList →
      v.fba.raises = s.fba.raises → v.fba.starts = s.fba.starts →
      OnlyBudget s (setEventIf (s.fba.line == .shed) .demandShed (checkOrReview v)) from
    hv ((s.withFba { s.fba with demand := s.fba.line, debounce := 0 }).withFba
        { (s.withFba { s.fba with demand := s.fba.line, debounce := 0 }).fba with
          beff := (s.withFba { s.fba with demand := s.fba.line, debounce := 0 }).effectiveBudget })
      ((withFba_changes _ s).seq (withFba_changes _ _)) rfl rfl rfl rfl
  intro v hsv he hl hra hst
  have hb := onlyBudget_checkOrReview (s := v) (fun m => by rw [State.record, hsv.at .msv]; exact h m) (hra.trans hr) (hst.trans hs)
  generalize checkOrReview v = w at *
  exact
    { entries := by rw [setEventIf_fba, hb.entries, he]
      startList := by rw [setEventIf_fba, hb.startList, hl]
      raises := by rw [setEventIf_fba, hb.raises, hra]
      starts := by rw [setEventIf_fba, hb.starts, hst]
      changes := (hsv.seq hb.changes (rs := [.fba, .evu])).seq (setEventIf_changes _ _ _) }

/-! ## The commands that a grant waits with -/

theorem waiting_startDiscovery (c : DiscoveryCause) (s : State) (n : Addr) (k : CommandClass) :
    (startDiscovery c s).mbc.waiting n k = s.mbc.waiting n k := by
  unfold startDiscovery offerNext
  split
  · rfl
  · simp [Mbc.waiting, BusEntry.fills, BusCommand.cls]

/-! ## The state that a cold reset has loaded -/

/-- R180 step 1: the state of a cold reset with retained memory kept or cleared. -/
def coldFound (ok imageOk : Bool) (s : State) : State :=
  if ok then keepRetained (quietLink .cold (s.withSst { s.sst with imageCheck := s.sst.imageCheck && imageOk }))
  else clearRetained (quietLink .cold (s.withSst { s.sst with imageCheck := s.sst.imageCheck && imageOk }))

/-- R180 steps 1 to 4: the state of a cold reset before its trim. -/
def coldLoaded (ok fitted imageOk : Bool) (s : State) : State :=
  verifyLoaded (loadSettings (serviceStrap fitted (coldFound ok imageOk s)))

/-- R180: the state in which a cold reset ends, before the outcome of its demand and its orders. -/
def coldTrimmed (ok fitted imageOk : Bool) (s : State) : State :=
  ((trimFill (coldLoaded ok fitted imageOk s)).withResetHeld false).withOut { lineA := none, lineB := none, beacon := none }

/-- R177: whether a cold reset finds the stored image valid. -/
def coldValid (imageOk : Bool) (s : State) : Bool := s.sst.imageMarked && s.sst.imageCheck && imageOk

theorem coldReset_eq (ok fitted imageOk fast : Bool) (s : State) : coldReset ok fitted imageOk fast s =
    startDiscovery .startUp (finishReset (!ok) (!coldValid imageOk s) fast (coldTrimmed ok fitted imageOk s)) := by
  unfold coldReset coldTrimmed coldLoaded coldFound coldValid Sst.imageValid
  rw [Bool.and_assoc]
  cases ok <;> rfl

theorem serviceStrap_changes (b : Bool) (s : State) : ChangesOnly [.pay, .sst] s (serviceStrap b s) :=
  .ite ((withSst_changes _ s).seq (withPay_changes _ _)) (.refl _ s)

theorem coldTrimmed_changes (ok fitted imageOk : Bool) (s : State) :
    ChangesOnly [.resetHeld, .mbc, .fba, .out] (coldLoaded ok fitted imageOk s) (coldTrimmed ok fitted imageOk s) :=
  ((trimFill_regrants _).changes.seq (withResetHeld_changes _ _) (rs := [.resetHeld, .mbc, .fba])).seq (withOut_changes _ _)

theorem coldLoaded_sst (ok fitted imageOk : Bool) (s : State) :
    (coldLoaded ok fitted imageOk s).sst.working = (if coldValid imageOk s then s.sst.image else .factory) ∧
    (coldLoaded ok fitted imageOk s).sst.image = s.sst.image ∧ (coldLoaded ok fitted imageOk s).sst.commit = none ∧
    (coldLoaded ok fitted imageOk s).sst.unsaved = false ∧ (coldLoaded ok fitted imageOk s).sst.lastReset = .cold ∧
    (fitted = true → (coldLoaded ok fitted imageOk s).sst.lock = false ∧ (coldLoaded ok fitted imageOk s).sst.lockCode = none) ∧
    (fitted = false → (coldLoaded ok fitted imageOk s).sst.lock = s.sst.lock ∧
      (coldLoaded ok fitted imageOk s).sst.lockCode = s.sst.lockCode) := by
  unfold coldLoaded
  rw [(verifyLoaded_changes _).at .sst]
  unfold coldValid
  rw [Bool.and_assoc]
  cases ok <;> cases fitted <;>
    exact ⟨rfl, rfl, rfl, rfl, rfl, fun h => by cases h <;> exact ⟨rfl, rfl⟩, fun h => by cases h <;> exact ⟨rfl, rfl⟩⟩

theorem coldLoaded_hli (ok fitted imageOk : Bool) (s : State) :
    (coldLoaded ok fitted imageOk s).hli = { s.hli with buffer := none, linkErrors := 0 } ∧
    (coldLoaded ok fitted imageOk s).evu = .cleared ∧ (coldLoaded ok fitted imageOk s).fba.line = s.fba.line := by
  have hv := verifyLoaded_changes
  unfold coldLoaded
  rw [(hv _).at .hli, (hv _).at .evu, (hv _).at .fba]
  cases ok <;> cases fitted <;> exact ⟨rfl, rfl, rfl⟩

/-- What a cold reset leaves, from what its end leaves. -/
structure ColdEnded (ok imageOk fast : Bool) (s u d e t : State) : Prop where
  ended   : ResetEnded (!ok) (!coldValid imageOk s) fast u d e
  offers  : Offers (e.withMbc { e.mbc with
    discovery := { active := true, cause := some .startUp, offered := none, window := 0, unanswered := 0, occupied := [], fresh := false } }) t
  changes : ChangesOnly [.mbc] e t
  bus     : t.mbc.scanComplete = e.mbc.scanComplete ∧ t.mbc.beacons = e.mbc.beacons
  waiting : ∀ n k, t.mbc.waiting n k = e.mbc.waiting n k
  attn    : t.AttnRight

theorem coldEnded (ok fitted imageOk fast : Bool) (s : State) : ColdEnded ok imageOk fast s (coldTrimmed ok fitted imageOk s)
    (takeDemand (coldTrimmed ok fitted imageOk s)) (finishReset (!ok) (!coldValid imageOk s) fast (coldTrimmed ok fitted imageOk s))
    (coldReset ok fitted imageOk fast s) := by
  rw [coldReset_eq]
  have hattn : (coldTrimmed ok fitted imageOk s).AttnRight :=
    cleared_attnRight (((coldTrimmed_changes ok fitted imageOk s).at .evu).trans (coldLoaded_hli ok fitted imageOk s).2.1)
  have hend := (finishReset_sane (!ok) (!coldValid imageOk s) fast (coldTrimmed ok fitted imageOk s)).upholds.steady.attn hattn
  have he := resetEnded_finishReset (!ok) (!coldValid imageOk s) fast (coldTrimmed ok fitted imageOk s)
  generalize finishReset (!ok) (!coldValid imageOk s) fast (coldTrimmed ok fitted imageOk s) = e at *
  refine ⟨he, offerNext_offers _, startDiscovery_changes _ e, ?_, waiting_startDiscovery _ e, (startDiscovery_steady _ e).attn hend⟩
  unfold startDiscovery offerNext
  split
  · exact ⟨rfl, rfl⟩
  · exact ⟨rfl, rfl⟩

/-! ## Retained memory kept -/

theorem kept_coldLoaded (fitted imageOk : Bool) (s : State) : Kept s (coldLoaded true fitted imageOk s) := by
  have hv := verifyLoaded_changes
  unfold coldLoaded
  refine ⟨?_, ?_, ?_, ?_⟩
  · rw [(hv _).at .msv]; cases fitted <;> rfl
  · rw [(hv _).at .mbc]; cases fitted <;> rfl
  · rw [(hv _).at .fba]; cases fitted <;> rfl
  · rw [(hv _).at .flm]; cases fitted <;> rfl

theorem GrantsKept.of {s u t : State} (h : GrantsKept s u) (hsst : t.sst = u.sst) (hl : t.fba.startList = u.fba.startList)
    (he : t.fba.entries = u.fba.entries) (hw : ∀ n, t.mbc.waiting n .level = u.mbc.waiting n .level) : GrantsKept s t := by
  have hgrant : ∀ m, t.grant m = u.grant m := fun m => by unfold State.grant; rw [he]
  unfold GrantsKept at h ⊢
  rw [hsst, hl]
  refine ⟨h.1, fun m => ?_⟩
  unfold Levelled
  rw [hgrant, hw]
  exact h.2 m

theorem atReset_ne_running (r : MachineRecord) : r.atReset.state ≠ .running := by
  unfold MachineRecord.atReset
  cases h : r.state <;> simp

theorem serviceStrap_stands (b : Bool) (s : State) : (serviceStrap b s).pay.a = s.pay.a ∧ (serviceStrap b s).pay.b = s.pay.b ∧
    (serviceStrap b s).cru = s.cru ∧ (serviceStrap b s).jrn = s.jrn ∧ (serviceStrap b s).sst.clock = s.sst.clock ∧
    (serviceStrap b s).sst.roomMode = s.sst.roomMode := by
  cases b <;> exact ⟨rfl, rfl, rfl, rfl, rfl, rfl⟩

theorem coldLoaded_pay (fitted imageOk : Bool) (s : State) :
    (coldLoaded true fitted imageOk s).pay.a = s.pay.a.atReset ∧ (coldLoaded true fitted imageOk s).pay.b = s.pay.b.atReset ∧
    (coldLoaded true fitted imageOk s).cru = s.cru ∧ (coldLoaded true fitted imageOk s).jrn = s.jrn ∧
    (coldLoaded true fitted imageOk s).sst.clock = s.sst.clock ∧ (coldLoaded true fitted imageOk s).sst.roomMode = s.sst.roomMode := by
  have hv := verifyLoaded_changes (loadSettings (serviceStrap fitted (coldFound true imageOk s)))
  obtain ⟨h1, h2, h3, h4, h5, h6⟩ := serviceStrap_stands fitted (coldFound true imageOk s)
  unfold coldLoaded
  rw [verifyLoaded_pay, hv.at .cru, hv.at .jrn, hv.at .sst]
  exact ⟨h1, h2, h3, h4, h5, h6⟩

/-- R180: what a cold reset has loaded keeps what is owed to the cards. -/
theorem booksBacked_coldTrimmed (fitted imageOk : Bool) {s : State} (h : s.BooksBacked) :
    (coldTrimmed true fitted imageOk s).BooksBacked := by
  have h0 := (withSst_carries { s.sst with imageCheck := s.sst.imageCheck && imageOk } s id).trans (quietLink_carries .cold _)
  have h1 := ((h0.trans (keepRetained_carries _)).trans (serviceStrap_carries fitted _)).trans (loadSettings_carries _)
  have h2 := (h1.trans (verifyLoaded_carries _)).trans (trimFill_carries _)
  exact ((h2.trans (withResetHeld_changes false _).carries).trans (withOut_changes _ _).carries).books h

theorem whenRunning_finishSlot_of_done {s : State} (h : s.phase = .running → s.SlotDone) : whenRunning finishSlot s = s := by
  by_cases hr : s.phase = .running
  · rw [whenRunning_of_running hr, finishSlot_of_done (h hr)]
  · exact whenRunning_of_not_running hr

/-- Settles O3: what was kept, what the end of a reset makes of it, and a discovery that touches neither. -/
theorem coldResetKeepsRetained : Obligations.ColdResetKeepsRetained := by
  intro fitted imageOk fast s hdone
  have hfin : whenRunning finishSlot s = s := whenRunning_finishSlot_of_done hdone
  have hexec : exec (.coldReset true fitted imageOk fast) s = .next (coldReset true fitted imageOk fast s) :=
    congrArg (fun u => Host.Outcome.next (coldReset true fitted imageOk fast u)) hfin
  refine ⟨_, hexec, ?_⟩
  have hkept := kept_coldLoaded fitted imageOk s
  have htrim := queues_trimFill (coldLoaded true fitted imageOk s)
  have hun : (trimFill (coldLoaded true fitted imageOk s)).fba.ungrants = (coldLoaded true fitted imageOk s).fba.ungrants :=
    ungrants_foldl_trimOne _ _
  have hgk := hkept.grantsKept
  obtain ⟨hpa, hpb, hcru, hjrn, hclock, hmode⟩ := coldLoaded_pay fitted imageOk s
  have hwu := coldTrimmed_changes true fitted imageOk s
  have hbooks := booksBacked_coldTrimmed fitted imageOk (s := s)
  have hevu : (coldTrimmed true fitted imageOk s).evu = .cleared := (hwu.at .evu).trans (coldLoaded_hli true fitted imageOk s).2.1
  have hufba : (coldTrimmed true fitted imageOk s).fba = (trimFill (coldLoaded true fitted imageOk s)).fba := rfl
  have humbc : (coldTrimmed true fitted imageOk s).mbc = (trimFill (coldLoaded true fitted imageOk s)).mbc := rfl
  have husst : (coldTrimmed true fitted imageOk s).sst = (trimFill (coldLoaded true fitted imageOk s)).sst := rfl
  have hcold := coldEnded true fitted imageOk fast s
  have hd := takeDemand_taken (coldTrimmed true fitted imageOk s)
  have honly := onlyBudget_takeDemand (s := coldTrimmed true fitted imageOk s)
  generalize coldReset true fitted imageOk fast s = t at *
  generalize takeDemand (coldTrimmed true fitted imageOk s) = d at *
  generalize finishReset _ _ _ _ = e at *
  generalize coldTrimmed true fitted imageOk s = u at *
  generalize trimFill (coldLoaded true fitted imageOk s) = v at *
  generalize coldLoaded true fitted imageOk s = w at *
  have hend := hcold.ended
  have hte := hcold.changes
  have hfba : t.fba = d.fba := (hte.at .fba).trans hend.fba
  have hsst : t.sst = w.sst := (hte.at .sst).trans ((hend.changes.at .sst).trans (hwu.at .sst))
  have hnorun : ∀ m, (u.record m).state ≠ .running := fun m => by
    rw [State.record, hwu.at .msv]
    have h := hkept.record m
    unfold State.record at h
    rw [h]
    exact atReset_ne_running _
  rw [hkept.fba] at hun
  have hfields : (v.fba.raises, v.fba.starts, v.fba.beff, v.fba.line, v.fba.demand, v.fba.debounce, v.fba.overBudget) =
    ([], [], s.fba.beff, s.fba.line, s.fba.demand, s.fba.debounce, false) := hun
  simp only [Prod.mk.injEq] at hfields
  obtain ⟨hraises, hstarts, _, _, _, _, hover⟩ := hfields
  have hon := honly hnorun (hufba ▸ hraises) (hufba ▸ hstarts)
  have hnodes : t.mbc.nodes = w.mbc.nodes := by
    rw [hcold.offers.nodes]
    show e.mbc.nodes = _
    rw [hend.bus.bus, hon.changes.at .mbc, humbc, htrim.bus]
  have hrecs : t.msv.records = w.msv.records := by
    rw [hte.at .msv, hend.msv]
    show d.msv.records = _
    rw [hon.changes.at .msv, hwu.at .msv]
  have hflm : t.flm = w.flm := (hte.at .flm).trans ((hend.changes.at .flm).trans (hwu.at .flm))
  have hpay : u.pay = w.pay := hwu.at .pay
  have hevu' : t.evu = e.evu := hte.at .evu
  have horders : SameOrders s u := ⟨(hwu.at .cru).trans hcru, (hwu.at .jrn).trans hjrn,
    (congrArg Sst.clock (hwu.at .sst)).trans hclock, by rw [hpay, hpa]; rfl, by rw [hpay, hpb]; rfl⟩
  refine ⟨by rw [hsst, hclock], by rw [hsst, hmode], ?_, ?_, ?_, ?_, fun ha hb => ?_, fun hs => ?_, ?_, ?_, ?_, ?_, ?_, ?_, ?_,
    recordsKept_of hkept hrecs hnodes hflm⟩
  · rw [hevu', hend.retained, hevu]; rfl
  · rw [hte.at .msv, hend.msv]
  · rw [hte.at .pay, hend.pay, hpay, hpa]; rfl
  · rw [hte.at .pay, hend.pay, hpay, hpb]; rfl
  · obtain ⟨h1, h2, _⟩ := hend.noOrders (horders.a.trans ha) (horders.b.trans hb)
    exact ⟨(hte.at .cru).trans (h1.trans horders.cru), (hte.at .jrn).trans (h2.trans horders.jrn)⟩
  · have h := horders.converted (hend.books (horders.ready (hbooks hs.1) hs))
    unfold Converted at h ⊢
    rw [hte.at .cru, hte.at .jrn]
    exact h
  · rw [hevu', hend.uncertain, hevu, horders.a, horders.b]
    exact Bool.or_false _
  · refine hgk.of (hsst.trans ?_) ?_ ?_ fun n => ?_
    · rw [← husst, hwu.at .sst]
    · rw [hfba, hon.startList, hufba]
    · rw [hfba, hon.entries, hufba]
    · rw [hcold.waiting, hend.levels, hon.changes.at .mbc, humbc]
  · rw [hfba, hon.raises, hufba, hraises]
  · rw [hfba, hon.starts, hufba, hstarts]
  · rw [hfba, hd.beff]
    unfold State.effectiveBudget
    rw [hfba, hsst, hd.changes.at .sst, hwu.at .sst]
  · rw [hfba, hd.budget.mark]
  · rw [hevu', hend.overdrawn, hend.fba, hfba, hufba, hover, hevu]
    simp [Evu.isSet, Evu.cleared]

/-! ## Retained memory cleared -/

/-- R180 step 1: what a cold reset finds of the blocks once retained memory is cleared. -/
structure Emptied (s w : State) : Prop where
  msv  : w.msv = { records := Vector.replicate 24 .cleared, recoveryWindow := none }
  mbc  : w.mbc = .fresh (Vector.replicate 24 (.afterReset false none))
  fba  : w.fba = { s.fba with
    entries := Vector.replicate 24 .empty, startList := [], raises := [], starts := [], arrivals := 0, overBudget := false }
  pay  : w.pay = { a := .cleared, b := .cleared, halted := w.sst.priceMismatch }
  cru  : w.cru = ⟨[], []⟩
  flm  : w.flm = Vector.replicate 24 .cleared
  jrn  : w.jrn = .cleared
  room : w.sst.clock = none ∧ w.sst.roomMode = .opened

theorem emptied_coldLoaded (fitted imageOk : Bool) (s : State) : Emptied s (coldLoaded false fitted imageOk s) := by
  have hv := verifyLoaded_changes (loadSettings (serviceStrap fitted (coldFound false imageOk s)))
  have hp := verifyLoaded_pay (loadSettings (serviceStrap fitted (coldFound false imageOk s)))
  have hl := loadSettings_changes (serviceStrap fitted (coldFound false imageOk s))
  have hs := serviceStrap_changes fitted (coldFound false imageOk s)
  obtain ⟨h1, h2, _, _, h5, h6⟩ := serviceStrap_stands fitted (coldFound false imageOk s)
  have hhalt : (serviceStrap fitted (coldFound false imageOk s)).pay.halted = false := by cases fitted <;> rfl
  unfold coldLoaded
  exact
    { msv := (hv.at .msv).trans ((hl.at .msv).trans (hs.at .msv))
      mbc := (hv.at .mbc).trans ((hl.at .mbc).trans (hs.at .mbc))
      fba := (hv.at .fba).trans ((hl.at .fba).trans (hs.at .fba))
      pay := by
        rw [hp, hv.at .sst, hl.at .pay, hhalt, Bool.false_or]
        exact congrArg₂ (fun a b => Pay.mk a b _) h1 h2
      cru := (hv.at .cru).trans ((hl.at .cru).trans (hs.at .cru))
      flm := (hv.at .flm).trans ((hl.at .flm).trans (hs.at .flm))
      jrn := (hv.at .jrn).trans ((hl.at .jrn).trans (hs.at .jrn))
      room := by
        rw [hv.at .sst]
        exact ⟨h5, h6⟩ }

section
variable {s w : State}

theorem Emptied.record (h : Emptied s w) (m : Addr) : w.record m = .cleared := by simp [State.record, h.msv, PerMachine.at]
theorem Emptied.node (h : Emptied s w) (m : Addr) : w.node m = .afterReset false none := by
  simp [State.node, h.mbc, Mbc.fresh, PerMachine.at]
theorem Emptied.grant (h : Emptied s w) (m : Addr) : w.grant m = .empty := by simp [State.grant, h.fba, PerMachine.at]
theorem Emptied.faults (h : Emptied s w) (m : Addr) : w.faults m = .cleared := by simp [State.faults, h.flm, PerMachine.at]

theorem Emptied.trimFill (h : Emptied s w) : trimFill w = w := by
  have hempty : trimmed w.fillLimit w.fba = [] := by
    unfold trimmed
    rw [List.filter_eq_nil_iff.mpr fun m _ => by rw [show (w.fba.entries.at m) = .empty from h.grant m]; decide]
    exact List.drop_nil
  unfold Machine.trimFill
  rw [hempty]
  rfl

theorem Emptied.committed (h : Emptied s w) {t : State} (he : t.fba.entries = w.fba.entries) : t.fba.committed = 0 := by
  unfold Fba.committed
  rw [he, h.fba]
  rfl

theorem Emptied.lowestFree (h : Emptied s w) {b : Mbc} (hn : b.nodes = w.mbc.nodes) (ho : b.discovery.occupied = []) :
    b.lowestFree = some 0 :=
  lowestFree_eq_some.mpr ⟨⟨by
    have hnode := h.node 0
    unfold State.node at hnode
    rw [hn, hnode]; rfl, by rw [ho]; simp⟩, fun k hk => absurd hk (Fin.not_lt_zero k)⟩

end

/-- Settles O2: with everything retained cleared, only the start-up events are set. -/
theorem coldResetClearsRetained : Obligations.ColdResetClearsRetained := by
  intro fitted imageOk fast s hdone
  have hfin : whenRunning finishSlot s = s := whenRunning_finishSlot_of_done hdone
  have hexec : exec (.coldReset false fitted imageOk fast) s = .next (coldReset false fitted imageOk fast s) :=
    congrArg (fun u => Host.Outcome.next (coldReset false fitted imageOk fast u)) hfin
  refine ⟨_, hexec, ?_⟩
  dsimp only
  have hw := emptied_coldLoaded fitted imageOk s
  obtain ⟨hworking, himage, hcommit, hunsaved, hlast, hfit, hunfit⟩ := coldLoaded_sst false fitted imageOk s
  obtain ⟨hhli, hevu, hline⟩ := coldLoaded_hli false fitted imageOk s
  have hu : coldTrimmed false fitted imageOk s =
      ((coldLoaded false fitted imageOk s).withResetHeld false).withOut { lineA := none, lineB := none, beacon := none } := by
    unfold coldTrimmed; rw [hw.trimFill]
  have hwu : ChangesOnly [.resetHeld, .out] (coldLoaded false fitted imageOk s) (coldTrimmed false fitted imageOk s) := by
    rw [hu]; exact (withResetHeld_changes _ _).seq (withOut_changes _ _)
  have hout : (coldTrimmed false fitted imageOk s).out = ⟨none, none, none⟩ := rfl
  have hcold := coldEnded false fitted imageOk fast s
  have hd := takeDemand_taken (coldTrimmed false fitted imageOk s)
  have honly := onlyBudget_takeDemand (s := coldTrimmed false fitted imageOk s)
  generalize coldReset false fitted imageOk fast s = t at *
  generalize takeDemand (coldTrimmed false fitted imageOk s) = d at *
  generalize finishReset _ _ _ _ = e at *
  generalize coldTrimmed false fitted imageOk s = u at *
  generalize coldLoaded false fitted imageOk s = w at *
  have hend := hcold.ended
  have hte := hcold.changes
  have hoff := hcold.offers
  have hufba : u.fba = w.fba := hwu.at .fba
  have hon := honly (fun m => by
    have h := hw.record m
    unfold State.record at h
    rw [State.record, hwu.at .msv, h]
    decide) (by rw [hufba, hw.fba]) (by rw [hufba, hw.fba])
  have hfba : t.fba = d.fba := (hte.at .fba).trans hend.fba
  have hsst : t.sst = w.sst := (hte.at .sst).trans ((hend.changes.at .sst).trans (hwu.at .sst))
  have hmsv : t.msv = { w.msv with recoveryWindow := some 30 } := by
    rw [hte.at .msv, hend.msv, hon.changes.at .msv, hwu.at .msv]
  have hrec : ∀ m, t.record m = .cleared := fun m => by rw [← hw.record m, State.record, hmsv]; rfl
  have herec : ∀ m, (e.record m).state ≠ .aborting := fun m => by
    have h : e.record m = .cleared := by rw [← hrec m, State.record, State.record, hte.at .msv]
    rw [h]; decide
  have hembc : e.mbc = w.mbc := by rw [hend.noStops herec, hon.changes.at .mbc, hwu.at .mbc]
  have hoffered : t.mbc.discovery.offered = some 0 := by
    rw [hoff.offered]
    exact hw.lowestFree (show e.mbc.nodes = w.mbc.nodes from congrArg Mbc.nodes hembc) rfl
  have hqueue := hoff.queue
  rw [hoffered] at hqueue
  have hpay : e.pay = { w.pay with a := { w.pay.a with order := none }, b := { w.pay.b with order := none } } := by
    rw [hend.pay, hwu.at .pay]
  rw [hw.pay] at hpay
  obtain ⟨hecru, hejrn, hflags, hmasks⟩ := hend.noOrders (by rw [hwu.at .pay, hw.pay]; rfl) (by rw [hwu.at .pay, hw.pay]; rfl)
  have huevu : u.evu = .cleared := (hwu.at .evu).trans hevu
  have htevu : t.evu = e.evu := hte.at .evu
  have hbeff : t.fba.beff = t.effectiveBudget := by
    rw [hfba, hd.beff]
    unfold State.effectiveBudget
    rw [hfba, hsst, hd.changes.at .sst, hwu.at .sst]
  have hover : t.fba.overBudget = false := by
    rw [hfba, hd.budget.mark, hw.committed (hon.entries.trans (by rw [hufba]))]
    simp
  have hmask : t.evu.masks = 0#19 := by rw [htevu, hmasks.masks, huevu]; rfl
  have hattn : t.evu.attn = false := by
    rw [Bool.eq_false_iff]
    intro h
    obtain ⟨f, _, hm, _⟩ := hcold.attn.mp h
    rw [hmask] at hm
    simp at hm
  have hline' : u.fba.line = s.fba.line := by rw [hufba, hline]
  have hejrn' : e.jrn = .cleared := hejrn.trans ((hwu.at .jrn).trans hw.jrn)
  have hclear : ∀ f, u.evu.isSet f = false := fun f => by rw [huevu]; simp [Evu.isSet, Evu.cleared]
  have hstands := hend.stands (by rw [hwu.at .pay, hw.pay]; rfl) (by rw [hwu.at .pay, hw.pay]; rfl)
  have hujrn : u.jrn = .cleared := (hwu.at .jrn).trans hw.jrn
  have hflag : ∀ f, t.evu.isSet f = true ↔ f = .retainedLost ∨ (f = .settingsLost ∧ coldValid imageOk s = false) ∨
      (f = .payHalted ∧ t.sst.priceMismatch = true) ∨ (f = .demandShed ∧ s.fba.line = .shed) := fun f => by
    rw [htevu]
    cases f with
    | journalWaiting => rw [hend.waiting, hejrn', hclear]; simp [Jrn.cleared]
    | journalTight => rw [hstands.1, hujrn, hclear]; simp [Jrn.cleared, Jrn.free, Config.journalSlots]
    | journalFull => rw [hstands.2, hujrn, hclear]; simp [Jrn.cleared, Jrn.free, Config.journalSlots]
    | payHalted => rw [hend.halted, hclear, hwu.at .pay, hw.pay, hsst]; simp
    | settingsLost => rw [hend.settings, hclear]; simp
    | retainedLost => rw [hend.retained]; simp
    | demandShed => rw [hend.shed, hclear, hline']; simp
    | overBudget => rw [hend.overdrawn, hclear, hend.fba, ← hfba, hover]; simp
    | sale | topup | cycleEnd | refundCredited | fault | lockout | nodeSilent | addressClash | debitUncertain | debitUnresolved
      | linkOverrun => rw [hflags _ (by decide), hclear]; simp
  have hnode : ∀ m, t.node m = .afterReset false none := fun m => by
    rw [← hw.node m, State.node, hoff.nodes]
    show (e.mbc.nodes.at m) = _
    rw [hembc]; rfl
  exact ⟨(hte.at .phase).trans hend.phase, by rw [hte.at .hli, hend.hli, hwu.at .hli, hhli],
    (hte.at .out).trans ((hend.changes.at .out).trans hout),
    fun m => ⟨hrec m, hnode m, by rw [State.grant, hfba, hon.entries, hufba]; exact hw.grant m,
      by rw [State.faults, hte.at .flm, hend.changes.at .flm, hwu.at .flm]; exact hw.faults m⟩,
    by rw [hmsv], by rw [hte.at .cru, hecru, hwu.at .cru, hw.cru], by rw [hte.at .jrn, hejrn'],
    by rw [hte.at .pay, hpay]; rfl, by rw [hte.at .pay, hpay]; rfl, by rw [hte.at .pay, hpay, hsst],
    by rw [hsst, hworking]; rfl, by rw [hsst, himage], by rw [hsst, hcommit], by rw [hsst, hunsaved], by rw [hsst, hw.room.1],
    by rw [hsst, hw.room.2], by rw [hsst, hlast], by rw [hsst]; exact hfit, by rw [hsst]; exact hunfit,
    by rw [hfba, hon.raises, hufba, hw.fba], by rw [hfba, hon.starts, hufba, hw.fba], by rw [hfba, hon.startList, hufba, hw.fba],
    by rw [hfba, hd.line, hline'], by rw [hfba, hd.demand, hline'], hbeff, by rw [hcold.bus.1, hembc, hw.mbc]; rfl,
    by rw [hoff.active rfl, hoffered]; rfl, hoff.cause, hoffered,
    by rw [hqueue]; show e.mbc.queue.map _ ++ _ = _; rw [hembc, hw.mbc]; rfl, hmask,
    by rw [htevu, hmasks.routine, huevu]; rfl, by rw [htevu, hmasks.exceptional, huevu]; rfl, hattn, hflag⟩

end Sys2Proof.Machine
end


section
/-! PROOF. What the operations on one machine leave of another, and of the books of many: SET ROOM MODE to CLOSED and the end of the
recovery window (R22, R28, R165). -/
namespace Sys2Proof.Machine

/-! ## What an operation on other machines leaves of one (R57, R58) -/

/-- An operation that is not about m: m's record stands where it has no START entry, and the commands that wait for it where it has no
entry at all. -/
structure Leaves (m : Addr) (s t : State) : Prop where
  record : s.fba.hasStart m = false → t.record m = s.record m ∧ t.fba.hasStart m = false
  alone  : s.fba.hasRaise m = false → s.fba.hasStart m = false → t.fba.hasRaise m = false ∧ SameBus m s t
  node   : t.node m = s.node m
  faults : t.faults m = s.faults m
  mode   : t.sst.roomMode = s.sst.roomMode
  calm   : (s.record m).state ≠ .recovering → (t.record m).state ≠ .recovering

namespace Leaves

variable {m n : Addr} {s t u : State}

theorem refl (m : Addr) (s : State) : Leaves m s s := ⟨fun h => ⟨rfl, h⟩, fun h _ => ⟨h, .refl m s⟩, rfl, rfl, rfl, id⟩

theorem trans (h : Leaves m s t) (k : Leaves m t u) : Leaves m s u where
  record hs := by
    obtain ⟨h1, h2⟩ := h.record hs
    obtain ⟨k1, k2⟩ := k.record h2
    exact ⟨k1.trans h1, k2⟩
  alone hr hs := by
    obtain ⟨h1, h2⟩ := h.alone hr hs
    obtain ⟨k1, k2⟩ := k.alone h1 (h.record hs).2
    exact ⟨k1, h2.trans k2⟩
  node := k.node.trans h.node
  faults := k.faults.trans h.faults
  mode := k.mode.trans h.mode
  calm := k.calm ∘ h.calm

theorem ite {c : Prop} [Decidable c] (h : Leaves m s t) (k : Leaves m s u) : Leaves m s (if c then t else u) := by
  split <;> assumption

theorem foldl {f : State → Addr → State} {l : List Addr} (hf : ∀ s n, n ∈ l → Leaves m s (f s n)) (s : State) :
    Leaves m s (l.foldl f s) := by
  induction l generalizing s with
  | nil => exact refl m s
  | cons n l ih =>
    exact (hf s n List.mem_cons_self).trans (ih (fun s k hk => hf s k (List.mem_cons_of_mem n hk)) (f s n))

theorem of_apart (h : Apart m s t) (hb : SameBus m s t) (hf : t.faults m = s.faults m) (hm : t.sst.roomMode = s.sst.roomMode) :
    Leaves m s t :=
  ⟨fun hs => ⟨h.record, h.start.trans hs⟩, fun hr _ => ⟨h.raise.trans hr, hb⟩, hb.node, hf, hm, by rw [h.record]; exact id⟩

end Leaves

theorem ChangesOnly.leaves {ps : List Part} {s t : State} (h : ChangesOnly ps s t) (m : Addr)
    (h1 : ps.contains .msv = false := by rfl) (h2 : ps.contains .mbc = false := by rfl) (h3 : ps.contains .fba = false := by rfl)
    (h4 : ps.contains .flm = false := by rfl) (h5 : ps.contains .sst = false := by rfl) : Leaves m s t :=
  .of_apart ⟨h.record m h1, h.grant m h3, by rw [h.at .fba h3], by rw [h.at .fba h3]⟩ (h.sameBus m h2) (h.faults m h4)
    (by rw [h.at .sst h5])

variable {m n : Addr}

theorem leaves_setRecord (h : n ≠ m) (r : MachineRecord) (s : State) : Leaves m s (s.setRecord n r) :=
  .of_apart (apart_setRecord h r s) ⟨rfl, fun _ => rfl⟩ rfl rfl

theorem leaves_setFaults (h : n ≠ m) (f : FaultRecord) (s : State) : Leaves m s (s.setFaults n f) :=
  .of_apart ⟨rfl, rfl, rfl, rfl⟩ ⟨rfl, fun _ => rfl⟩ (by simp [h]) rfl

theorem leaves_queueControl (h : n ≠ m) (c : BusCommand) (s : State) : Leaves m s (queueControl n c s) :=
  .of_apart (apart_queueCommand n c .msv s) (sameBus_queueCommand h c .msv s) ((queueControl_changes n c s).faults m)
    (by rw [(queueControl_changes n c s).at .sst])

theorem leaves_removeEntries (h : n ≠ m) (s : State) : Leaves m s (removeEntries n s) :=
  .of_apart (apart_removeEntries h s) ((removeEntries_changes n s).sameBus m) rfl rfl

theorem leaves_review (m : Addr) (s : State) : Leaves m s (review s) where
  record hs := review_record s hs
  alone hr hs := ⟨(apart_review s hr hs).raise.trans hr, sameBus_review s hr hs⟩
  node := (review_queues s).node m
  faults := (review_changes s).faults m
  mode := by rw [(review_changes s).at .sst]
  calm hx := by
    rcases (review_mayStart s).states m with h | ⟨_, h⟩
    · rw [h]; exact hx
    · rw [h]; simp

theorem leaves_enterState (h : n ≠ m) (x : MState) (s : State) : Leaves m s (enterState n x s) := by
  unfold enterState
  dsimp only
  exact .ite ((leaves_setRecord h _ s).trans (leaves_setFaults h _ _)) (leaves_setRecord h _ s)

theorem leaves_disarmRefund (h : n ≠ m) (s : State) : Leaves m s (disarmRefund n s) := by
  unfold disarmRefund
  split
  · exact .refl m s
  · next z hz =>
    have h1 := ((leaves_queueControl h .disarm s).trans (leaves_removeEntries h _)).trans (leaves_review m _)
    have hrec : ((review (removeEntries n (queueControl n .disarm s))).record n).session = some z := by
      rw [(calledOff_before n rfl s).record]; exact hz
    rw [disposeSession_refunded hrec]
    exact ((h1.trans ((refunded_changes n z.payer z.total _).leaves m)).trans (leaves_setRecord h _ _)).trans (leaves_enterState h _ _)

theorem leaves_feederSilent (h : n ≠ m) (s : State) : Leaves m s (feederSilent n s) :=
  .ite (.refl m s) (((Leaves.of_apart (apart_mapGrant h _ s) ((mapGrant_changes n _ s).sameBus m) rfl rfl).trans
    (leaves_removeEntries h _)).trans (leaves_review m _))

theorem leaves_sessionsSilent (h : n ≠ m) (s : State) : Leaves m s (sessionsSilent n s) := by
  have he : ∀ u, Leaves m u (setEvent .nodeSilent u) := fun u => (setEvent_changes .nodeSilent u).leaves m
  unfold sessionsSilent
  dsimp only
  refine .ite (.refl m s) (.ite (he s) ?_)
  split
  · exact ((he s).trans (leaves_setRecord h _ _)).trans (leaves_enterState h _ _)
  · exact ((he s).trans (leaves_setRecord h _ _)).trans (leaves_enterState h _ _)
  · exact ((he s).trans (leaves_setRecord h _ _)).trans (leaves_enterState h _ _)
  · exact (he s).trans (leaves_setRecord h _ _)

theorem leaves_repeatNotice (h : n ≠ m) (s : State) : Leaves m s (repeatNotice n s) :=
  .ite ((leaves_sessionsSilent h s).trans (leaves_feederSilent h _)) (.refl m s)

theorem leaves_windowEnds (h : n ≠ m) (s : State) : Leaves m s (windowEnds n s) := by
  unfold windowEnds
  dsimp only
  split
  · have h1 : Leaves m s (mapRecord n (fun x => { x with silent := true, silenceTimer := Config.silenceSeconds }) (endRecovery n s)) :=
      (leaves_setRecord h _ s).trans (leaves_setRecord h _ _)
    exact .ite h1 (h1.trans (.ite (leaves_disarmRefund h _) (.refl m _)))
  · exact .ite ((leaves_setRecord h _ s).trans (leaves_enterState h _ _)) (.refl m s)
  · exact .refl m s

/-- An operation for each of many machines, seen from one of them. -/
theorem foldl_about {f : State → Addr → State} {l : List Addr} (hf : ∀ s n, n ≠ m → Leaves m s (f s n)) (hm : m ∈ l) (hn : l.Nodup)
    (s : State) : ∃ u, Leaves m s u ∧ Leaves m (f u m) (l.foldl f s) := by
  induction l generalizing s with
  | nil => cases hm
  | cons n l ih =>
    rw [List.nodup_cons] at hn
    rw [List.foldl_cons]
    rcases List.mem_cons.mp hm with rfl | hm
    · exact ⟨s, .refl m s, .foldl (fun u k hk => hf u k fun he => hn.1 (he ▸ hk)) _⟩
    · obtain ⟨u, h1, h2⟩ := ih hm hn.2 (f s n)
      exact ⟨u, (hf s n fun he => hn.1 (he ▸ hm)).trans h1, h2⟩

/-! ## The refunds of many machines on the books -/

/-- R10, R22: one machine's session refunded in full on the books. -/
def State.refundOf (s u : State) (m : Addr) : State :=
  match (s.record m).session with
  | some z => u.refunded m z.payer z.total
  | none => u

theorem refundedInFull_eq (s : State) (l : List Addr) : s.refundedInFull l = l.foldl s.refundOf s := rfl

theorem refundOf_of_some {s u : State} {z : Session} (h : (s.record m).session = some z) :
    s.refundOf u m = u.refunded m z.payer z.total := by
  unfold State.refundOf; rw [h]

theorem refundOf_of_none {s u : State} (h : (s.record m).session = none) : s.refundOf u m = u := by
  unfold State.refundOf; rw [h]

theorem booksOnly_refundOf (s : State) (m : Addr) : BooksOnly (s.refundOf · m) := fun u v h => by
  show SameBooks (s.refundOf u m) (s.refundOf v m)
  cases hz : (s.record m).session with
  | none => rw [refundOf_of_none hz, refundOf_of_none hz]; exact h
  | some z => rw [refundOf_of_some hz, refundOf_of_some hz]; exact booksOnly_refunded m _ _ _ _ h

theorem disarmRefund_of_none {s : State} (h : (s.record m).session = none) : disarmRefund m s = s := by
  unfold disarmRefund; rw [h]

theorem sameBooks_disarmRefund {s u : State} (h : (u.record m).session = (s.record m).session) :
    SameBooks (s.refundOf u m) (disarmRefund m u) := by
  cases hz : (s.record m).session with
  | none => rw [refundOf_of_none hz, disarmRefund_of_none (h.trans hz)]; exact .refl u
  | some z => rw [refundOf_of_some hz]; exact (disarmed_disarmRefund (h.trans hz)).books

/-! ## The recovery window's end (R28) -/

/-- R28: the record that the window's end restores, as silent. -/
def MachineRecord.restored (r : MachineRecord) (x : Retained) : MachineRecord :=
  { r with state := x.state, retained := none, silent := true, silenceTimer := 300 }

theorem restored_record {s : State} {x : Retained} (hx : (s.record m).state = .recovering) (hr : (s.record m).retained = some x) :
    (mapRecord m (fun x => { x with silent := true, silenceTimer := Config.silenceSeconds }) (endRecovery m s)).record m =
      (s.record m).restored x := by
  simp [mapRecord, endRecovery, hx, hr, MachineRecord.restored, Config.silenceSeconds]

/-- R28: a record that resolves as silent, before a CLOSED room disarms it. -/
def resolveSilent (m : Addr) (s : State) : State :=
  mapRecord m (fun x => { x with silent := true, silenceTimer := Config.silenceSeconds }) (endRecovery m s)

theorem resolveSilent_changes (m : Addr) (s : State) : ChangesOnly [.msv] s (resolveSilent m s) :=
  (endRecovery_changes m s).seq (mapRecord_changes m _ _)

theorem windowEnds_recovering {s : State} (hx : (s.record m).state = .recovering) : windowEnds m s =
    if ((resolveSilent m s).record m).state = .running then resolveSilent m s else disarmIfClosed m (resolveSilent m s) := by
  unfold windowEnds resolveSilent
  simp only [hx]

theorem windowEnds_stays {s : State} {x : Retained} (hx : (s.record m).state = .recovering) (hr : (s.record m).retained = some x)
    (h : x = .running ∨ s.sst.roomMode ≠ .closed) : windowEnds m s = resolveSilent m s := by
  rw [windowEnds_recovering hx]
  rcases h with rfl | h
  · exact if_pos (by rw [resolveSilent, restored_record hx hr]; rfl)
  · have : disarmIfClosed m (resolveSilent m s) = resolveSilent m s :=
      if_neg (by rw [(resolveSilent_changes m s).at .sst]; exact h)
    rw [this, ite_self]

theorem windowEnds_disarms {s : State} (hx : (s.record m).state = .recovering) (hr : (s.record m).retained ≠ some .running)
    (h : s.sst.roomMode = .closed) : windowEnds m s = disarmRefund m (resolveSilent m s) := by
  rw [windowEnds_recovering hx, if_neg]
  · exact if_pos (by rw [(resolveSilent_changes m s).at .sst]; exact h)
  · cases hret : (s.record m).retained with
    | none => simp [resolveSilent, mapRecord, endRecovery, hx, hret]
    | some x =>
      rw [resolveSilent, restored_record hx hret]
      rw [hret] at hr
      cases x <;> simp_all [MachineRecord.restored, Retained.state]

theorem windowEnds_absent {s : State} (hx : (s.record m).state = .absent) : windowEnds m s =
    if (s.node m).known then enterState m .offline (mapRecord m (fun x => { x with silent := true }) s) else s := by
  unfold windowEnds
  simp only [hx]

theorem windowEnds_other {s : State} (hx : (s.record m).state ≠ .recovering) (ha : (s.record m).state ≠ .absent) :
    windowEnds m s = s := by
  unfold windowEnds
  dsimp only
  split
  · next h => exact absurd h hx
  · next h => exact absurd h ha
  · rfl

/-- R28, R22: whether the window's end disarms a machine. -/
def State.windowDisarms (s : State) (m : Addr) : Bool :=
  s.sst.roomMode == .closed && ((s.record m).state == .recovering && (s.record m).retained != some .running)

/-- R28: what the window's end for one machine leaves of the books. -/
theorem sameBooks_windowEnds {s u : State} (hmode : u.sst.roomMode = s.sst.roomMode)
    (hrec : (s.record m).state = .recovering → u.record m = s.record m)
    (hcalm : (s.record m).state ≠ .recovering → (u.record m).state ≠ .recovering) :
    SameBooks (if s.windowDisarms m then s.refundOf u m else u) (windowEnds m u) := by
  have hstay : SameBooks u (resolveSilent m u) := (resolveSilent_changes m u).sameBooks
  by_cases hx : (s.record m).state = .recovering
  · have hu := hrec hx
    have hxu : (u.record m).state = .recovering := by rw [hu]; exact hx
    by_cases hd : s.sst.roomMode = .closed ∧ (s.record m).retained ≠ some .running
    · have hw : s.windowDisarms m = true := by simp [State.windowDisarms, hd.1, hx, hd.2]
      rw [hw, if_pos rfl, windowEnds_disarms hxu (by rw [hu]; exact hd.2) (hmode.trans hd.1)]
      have hses : ((resolveSilent m u).record m).session = (s.record m).session := by
        rw [← hu]
        unfold resolveSilent mapRecord endRecovery mapRecord
        rw [State.record_setRecord, if_pos rfl, State.record_setRecord, if_pos rfl]
        dsimp only
        split <;> rfl
      exact (booksOnly_refundOf s m _ _ hstay).trans (sameBooks_disarmRefund hses)
    · have hw : s.windowDisarms m = false := by
        rw [Bool.eq_false_iff]
        intro h
        simp only [State.windowDisarms, Bool.and_eq_true, beq_iff_eq, bne_iff_ne] at h
        exact hd ⟨h.1, h.2.2⟩
      rw [hw, if_neg Bool.false_ne_true, windowEnds_recovering hxu]
      have hclosed : SameBooks u (disarmIfClosed m (resolveSilent m u)) ∨ ((resolveSilent m u).record m).state = .running := by
        by_cases hm : s.sst.roomMode = .closed
        · have hret : (s.record m).retained = some .running := Classical.byContradiction fun h => hd ⟨hm, h⟩
          exact .inr (by rw [resolveSilent, restored_record hxu (by rw [hu]; exact hret)]; rfl)
        · have : disarmIfClosed m (resolveSilent m u) = resolveSilent m u :=
            if_neg (by rw [(resolveSilent_changes m u).at .sst, hmode]; exact hm)
          exact .inl (by rw [this]; exact hstay)
      split
      · exact hstay
      · next hne => exact hclosed.resolve_right hne
  · have hw : s.windowDisarms m = false := by simp [State.windowDisarms, hx]
    rw [hw, if_neg Bool.false_ne_true]
    by_cases ha : (u.record m).state = .absent
    · rw [windowEnds_absent ha]
      split
      · exact ((mapRecord_changes m _ u).seq (enterState_changes m .offline _) (rs := [.msv, .flm])).sameBooks
      · exact .refl u
    · rw [windowEnds_other (hcalm hx) ha]
      exact .refl u

/-- R28: the sessions that the window's end refunds, one after the other. -/
theorem sameBooks_foldl_windowEnds {s : State} {l : List Addr} (hn : l.Nodup) {u v : State} (hv : SameBooks v u)
    (hmode : u.sst.roomMode = s.sst.roomMode)
    (hrec : ∀ m ∈ l, (s.record m).state = .recovering → u.record m = s.record m ∧ u.fba.hasStart m = false)
    (hcalm : ∀ m ∈ l, (s.record m).state ≠ .recovering → (u.record m).state ≠ .recovering) :
    SameBooks ((l.filter s.windowDisarms).foldl s.refundOf v) (l.foldl (fun s m => windowEnds m s) u) := by
  induction l generalizing u v with
  | nil => exact hv
  | cons n l ih =>
    rw [List.nodup_cons] at hn
    have hone := sameBooks_windowEnds hmode (fun hx => (hrec n List.mem_cons_self hx).1) (hcalm n List.mem_cons_self)
    have hstep : SameBooks (if s.windowDisarms n then s.refundOf v n else v) (windowEnds n u) := by
      refine .trans ?_ hone
      split
      · exact booksOnly_refundOf s n _ _ hv
      · exact hv
    have hfold : ((n :: l).filter s.windowDisarms).foldl s.refundOf v =
        (l.filter s.windowDisarms).foldl s.refundOf (if s.windowDisarms n then s.refundOf v n else v) := by
      rw [List.filter_cons]
      split <;> rfl
    have hl : ∀ m ∈ l, Leaves m u (windowEnds n u) := fun m hm => leaves_windowEnds (m := m) (n := n) (fun he => hn.1 (he ▸ hm)) u
    rw [hfold]
    refine ih hn.2 hstep ?_ (fun m hm hx => ?_) fun m hm hx => ?_
    · rw [(windowEnds_changes n u).at .sst]; exact hmode
    · obtain ⟨h1, h2⟩ := hrec m (List.mem_cons_of_mem n hm) hx
      obtain ⟨k1, k2⟩ := (hl m hm).record h2
      exact ⟨k1.trans h1, k2⟩
    · exact (hl m hm).calm (hcalm m (List.mem_cons_of_mem n hm) hx)

/-- R35: the notice given again to a record that is silent already. -/
theorem leaves_repeatNotice_self {s : State} (hs : (s.record m).silent = true) (hx : (s.record m).state ≠ .recovering) :
    Leaves m s (repeatNotice m s) := by
  have hmsv : sessionsSilent m s = setEvent .nodeSilent s := by
    unfold sessionsSilent
    dsimp only
    rw [if_neg hx, hs, if_pos rfl]
  unfold repeatNotice giveSilence
  rw [hmsv]
  refine .ite (((setEvent_changes .nodeSilent s).leaves m).trans ?_) (.refl m s)
  generalize setEvent .nodeSilent s = u
  unfold feederSilent
  dsimp only
  refine .ite (.refl m u) ?_
  have hg := mapGrant_changes m (fun e => { e with heldSilent := e.granted.isSome, excessRun := 0 }) u
  have hw := withdrawn_review m (mapGrant m (fun e => { e with heldSilent := e.granted.isSome, excessRun := 0 }) u)
  have hrec : (mapGrant m (fun e => { e with heldSilent := e.granted.isSome, excessRun := 0 }) u).record m = u.record m := hg.record m
  exact
    { record := fun _ => ⟨hw.record.trans hrec, hw.start⟩
      alone := fun _ _ => ⟨hw.raise, (hg.sameBus m).trans hw.bus⟩
      node := hw.bus.node
      faults := hw.changes.faults m
      mode := by rw [hw.changes.at .sst]; rfl
      calm := by rw [hw.record, hrec]; exact id }

theorem repeatNotice_narrow (m : Addr) (s : State) : ChangesOnly [.msv, .mbc, .fba, .flm, .evu] s (repeatNotice m s) :=
  .ite ((sessionsSilent_changes m s).seq (feederSilent_changes m _)) (.refl _ s)

theorem endWindow_books {s : State} (hstart : ∀ e ∈ s.fba.starts, (s.record e.machine).state = .starting) :
    SameBooks ((allMachines.filter s.windowDisarms).foldl s.refundOf s) (endWindow s) := by
  have hw : SameBooks s (s.withMsv { s.msv with recoveryWindow := none }) := ⟨rfl, rfl, rfl⟩
  have h := sameBooks_foldl_windowEnds (s := s) allMachines_nodup hw rfl (fun m _ hx => ⟨rfl, ?_⟩) fun m _ hx => hx
  · refine h.trans ?_
    have hrep : ∀ (l : List Addr) (u : State), SameBooks u (l.foldl (fun s m => repeatNotice m s) u) := fun l => by
      induction l with
      | nil => exact SameBooks.refl
      | cons m l ih => exact fun u => (repeatNotice_narrow m u).sameBooks.trans (ih _)
    exact hrep allMachines _
  · rw [Bool.eq_false_iff]
    intro hs
    obtain ⟨e, he, hm⟩ := List.any_eq_true.mp hs
    have := hstart e he
    rw [beq_iff_eq.mp hm, hx] at this
    cases this

/-- R28: what the window's end and the notices after it leave of a record that the window's end has made silent. -/
theorem endWindow_about {s : State} (h : ∀ u, Leaves m s u → ((windowEnds m u).record m).silent = true ∧
      ((windowEnds m u).record m).state ≠ .recovering ∧ (windowEnds m u).fba.hasStart m = false) :
    ∃ u, Leaves m s u ∧ Leaves m (windowEnds m u) (endWindow s) := by
  have h0 : Leaves m s (s.withMsv { s.msv with recoveryWindow := none }) :=
    ⟨fun hs => ⟨rfl, hs⟩, fun hr _ => ⟨hr, rfl, fun _ => rfl⟩, rfl, rfl, rfl, id⟩
  obtain ⟨u, h1, h2⟩ := foldl_about (f := fun s m => windowEnds m s) (fun s n hn => leaves_windowEnds hn s) (mem_allMachines m)
    allMachines_nodup (s.withMsv { s.msv with recoveryWindow := none })
  obtain ⟨v, h3, h4⟩ := foldl_about (f := fun s m => repeatNotice m s) (fun s n hn => leaves_repeatNotice hn s) (mem_allMachines m)
    allMachines_nodup (allMachines.foldl (fun s m => windowEnds m s) (s.withMsv { s.msv with recoveryWindow := none }))
  obtain ⟨k1, k2, k3⟩ := h u (h0.trans h1)
  have h23 := h2.trans h3
  have hrec := (h23.record k3).1
  exact ⟨u, h0.trans h1, (h23.trans (leaves_repeatNotice_self (by rw [hrec]; exact k1) (by rw [hrec]; exact k2))).trans h4⟩

/-! ## The recovery window itself -/

/-- The recovery window stands. -/
def SameWindow (s t : State) : Prop := t.msv.recoveryWindow = s.msv.recoveryWindow

theorem SameWindow.trans {s t u : State} (h : SameWindow s t) (k : SameWindow t u) : SameWindow s u := Eq.trans k h

theorem SameWindow.ite {s t u : State} {c : Prop} [Decidable c] (h : SameWindow s t) (k : SameWindow s u) :
    SameWindow s (if c then t else u) := by
  split <;> assumption

theorem ChangesOnly.sameWindow {ps : List Part} {s t : State} (h : ChangesOnly ps s t) (hp : ps.contains .msv = false := by rfl) :
    SameWindow s t := congrArg Msv.recoveryWindow (h.at .msv hp)

theorem sameWindow_setRecord (m : Addr) (r : MachineRecord) (s : State) : SameWindow s (s.setRecord m r) := rfl

theorem sameWindow_startRuns (m : Addr) (e : GrantEntry) (l : Level) (f : Bool) (s : State) : SameWindow s (startRuns m e l f s) :=
  ((startGranted_changes m e s).seq (queueGrant_changes m l f _) (rs := [.mbc, .fba])).sameWindow.trans (sameWindow_setRecord _ _ _)

theorem sameWindow_grantStart {e : AdmEntry} {s t : State} (h : grantStart e s = some t) : SameWindow s t := by
  unfold grantStart at h
  split at h
  · cases h
  · split at h
    · split at h
      · cases h
        rw [grantWasherStart_eq]
        exact (sameWindow_startRuns _ _ _ _ s).trans (compareWanted_changes _ _).sameWindow
      · cases h
    · split at h
      · cases h
        rw [grantDryerStart_eq]
        split
        · exact (sameWindow_startRuns _ _ _ _ s).trans (addRaise_changes _ _ _ _).sameWindow
        · exact sameWindow_startRuns _ _ _ _ s
      · cases h

theorem sameWindow_grantHead {s t : State} (h : grantHead s = some t) : SameWindow s t := by
  unfold grantHead at h
  split at h
  · unfold grantRaise at h
    dsimp only at h
    split at h
    · cases h
      exact ((removeRaise_changes _ s).seq (changeGrant_changes _ _ _ _) (rs := [.mbc, .fba])).sameWindow
    · cases h
  · exact sameWindow_grantStart h
  · cases h

theorem sameWindow_review (s : State) : SameWindow s (review s) := by
  have hheads : ∀ (n : Nat) (u : State), SameWindow u (grantHeads n u) := fun n => by
    induction n with
    | zero => exact fun u => rfl
    | succ n ih =>
      intro u
      unfold grantHeads
      split
      · rfl
      · next t ht => exact (sameWindow_grantHead ht).trans (ih t)
  exact (clearOverBudget_changes s).sameWindow.trans (.ite rfl (hheads _ _))

theorem sameWindow_enterState (m : Addr) (x : MState) (s : State) : SameWindow s (enterState m x s) := by
  unfold enterState
  dsimp only
  exact .ite rfl rfl

theorem sameWindow_disarmRefund (m : Addr) (s : State) : SameWindow s (disarmRefund m s) := by
  cases hz : (s.record m).session with
  | none => rw [disarmRefund_of_none hz]; rfl
  | some z =>
    have hrec : ((review (removeEntries m (queueControl m .disarm s))).record m).session = some z := by
      rw [(calledOff_before m rfl s).record]; exact hz
    unfold disarmRefund
    simp only [hz]
    rw [disposeSession_refunded hrec]
    exact ((((queueControl_changes m .disarm s).seq (removeEntries_changes m _) (rs := [.mbc, .fba])).sameWindow.trans
      (sameWindow_review _)).trans (refunded_changes m _ _ _).sameWindow).trans
      ((sameWindow_setRecord _ _ _).trans (sameWindow_enterState _ _ _))

theorem sameWindow_windowEnds (m : Addr) (s : State) : SameWindow s (windowEnds m s) := by
  have hr : SameWindow s (resolveSilent m s) := rfl
  by_cases hx : (s.record m).state = .recovering
  · rw [windowEnds_recovering hx]
    exact .ite hr (hr.trans (.ite (sameWindow_disarmRefund m _) rfl))
  · by_cases ha : (s.record m).state = .absent
    · rw [windowEnds_absent ha]
      exact .ite (.trans (t := mapRecord m (fun x => { x with silent := true }) s) rfl (sameWindow_enterState _ _ _)) rfl
    · rw [windowEnds_other hx ha]
      rfl

theorem sameWindow_repeatNotice (m : Addr) (s : State) : SameWindow s (repeatNotice m s) := by
  have hs : SameWindow s (sessionsSilent m s) := by
    unfold sessionsSilent
    dsimp only
    refine .ite rfl (.ite rfl ?_)
    split
    · exact .trans (t := mapRecord m _ (setEvent .nodeSilent s)) rfl (sameWindow_enterState _ _ _)
    · exact .trans (t := mapRecord m _ (setEvent .nodeSilent s)) rfl (sameWindow_enterState _ _ _)
    · exact .trans (t := mapRecord m _ (setEvent .nodeSilent s)) rfl (sameWindow_enterState _ _ _)
    · rfl
  have hf : ∀ u, SameWindow u (feederSilent m u) := fun u =>
    .ite rfl (((mapGrant_changes m _ u).seq (removeEntries_changes m _) (rs := [.fba])).sameWindow.trans (sameWindow_review _))
  exact .ite (hs.trans (hf _)) rfl

theorem endWindow_closed (s : State) : (endWindow s).msv.recoveryWindow = none := by
  have hfold : ∀ (f : Addr → State → State), (∀ m u, SameWindow u (f m u)) → ∀ (l : List Addr) u,
      SameWindow u (l.foldl (fun s m => f m s) u) := fun f hf l => by
    induction l with
    | nil => exact fun u => rfl
    | cons m l ih => exact fun u => (hf m u).trans (ih _)
  exact (SameWindow.trans (hfold _ sameWindow_windowEnds allMachines (s.withMsv { s.msv with recoveryWindow := none }))
    (hfold _ sameWindow_repeatNotice allMachines _))

/-! ## The obligation -/

theorem silent_restored (r : MachineRecord) (x : Retained) : (r.restored x).silent = true ∧ (r.restored x).state ≠ .recovering :=
  ⟨rfl, by cases x <;> simp [MachineRecord.restored, Retained.state]⟩

/-- R28: a machine whose session goes on silent. -/
theorem endWindow_restores {s : State} {x : Retained} (hs : s.fba.hasStart m = false) (hx : (s.record m).state = .recovering)
    (hr : (s.record m).retained = some x) (h : x = .running ∨ s.sst.roomMode ≠ .closed) :
    (endWindow s).record m = (s.record m).restored x := by
  have hv : ∀ u, Leaves m s u → (windowEnds m u).record m = (s.record m).restored x ∧ (windowEnds m u).fba.hasStart m = false :=
    fun u hu => by
      obtain ⟨h1, h2⟩ := hu.record hs
      rw [windowEnds_stays (by rw [h1]; exact hx) (by rw [h1]; exact hr) (by rw [hu.mode]; exact h), resolveSilent,
        restored_record (by rw [h1]; exact hx) (by rw [h1]; exact hr), h1]
      exact ⟨rfl, h2⟩
  obtain ⟨u, hu, hend⟩ := endWindow_about (m := m) (s := s) fun u hu => by
    obtain ⟨h1, h2⟩ := hv u hu
    rw [h1]
    exact ⟨(silent_restored _ x).1, (silent_restored _ x).2, h2⟩
  obtain ⟨h1, h2⟩ := hv u hu
  exact (hend.record h2).1.trans h1

/-- R28, R22: a machine whose session a CLOSED room disarms. -/
theorem endWindow_disarms {s : State} {x : Retained} {z : Session} (hs : s.fba.hasStart m = false)
    (hx : (s.record m).state = .recovering) (hr : (s.record m).retained = some x) (hz : (s.record m).session = some z)
    (hne : x ≠ .running) (h : s.sst.roomMode = .closed) :
    (endWindow s).record m = { s.record m with
      state := .offline, retained := none, silent := true, silenceTimer := 0, session := none, unloadTimer := 0 } ∧
    (endWindow s).fba.hasStart m = false ∧ (endWindow s).fba.hasRaise m = false ∧ ((endWindow s).faults m).openMark = false ∧
    ((s.node m).known = true → Commanded (endWindow s) m .disarm) := by
  have hv : ∀ u, Leaves m s u → Disarmed m z (resolveSilent m u) (windowEnds m u) ∧
      (resolveSilent m u).record m = (s.record m).restored x := fun u hu => by
    obtain ⟨h1, h2⟩ := hu.record hs
    have hrec : (resolveSilent m u).record m = (s.record m).restored x := by
      rw [resolveSilent, restored_record (by rw [h1]; exact hx) (by rw [h1]; exact hr), h1]
    rw [windowEnds_disarms (by rw [h1]; exact hx) (by rw [h1, hr]; simp [hne]) (hu.mode.trans h)]
    exact ⟨disarmed_disarmRefund (by rw [hrec]; exact hz), hrec⟩
  obtain ⟨u, hu, hend⟩ := endWindow_about (m := m) (s := s) fun u hu => by
    obtain ⟨hd, hrec⟩ := hv u hu
    rw [hd.record, hrec]
    exact ⟨rfl, by simp [MachineRecord.restored], hd.start⟩
  obtain ⟨hd, hrec⟩ := hv u hu
  obtain ⟨h1, h2⟩ := hend.record hd.start
  obtain ⟨h3, h4⟩ := hend.alone hd.raise hd.start
  have hnode : (resolveSilent m u).node m = s.node m := hu.node
  refine ⟨h1.trans ?_, h2, h3, ?_, fun hk => (hd.command (by rw [hnode]; exact hk)).of_sameBus h4⟩
  · rw [hd.record, hrec]
    rfl
  · rw [hend.faults, State.faults, hd.flm]
    simp

/-- R28: an ABSENT record. -/
theorem endWindow_absent {s : State} (hs : s.fba.hasStart m = false) (hx : (s.record m).state = .absent) :
    ((s.node m).known = true → (endWindow s).record m = { s.record m with state := .offline, silent := true, unloadTimer := 0 }) ∧
    ((s.node m).known = false → (s.node m).silentMark = false → (endWindow s).record m = s.record m) := by
  constructor
  · intro hk
    have hv : ∀ u, Leaves m s u → (windowEnds m u).record m = { s.record m with state := .offline, silent := true, unloadTimer := 0 } ∧
        (windowEnds m u).fba.hasStart m = false := fun u hu => by
      obtain ⟨h1, h2⟩ := hu.record hs
      rw [windowEnds_absent (by rw [h1]; exact hx), if_pos (by rw [hu.node]; exact hk)]
      have hm : (mapRecord m (fun x => { x with silent := true }) u).record m = { s.record m with silent := true } := by
        simp [mapRecord, h1]
      refine ⟨?_, ?_⟩
      · rw [enterState_record, hm]; rfl
      · rw [(enterState_changes m .offline _).at .fba]; exact h2
    obtain ⟨u, hu, hend⟩ := endWindow_about (m := m) (s := s) fun u hu => by
      obtain ⟨h1, h2⟩ := hv u hu
      rw [h1]
      exact ⟨rfl, by simp, h2⟩
    obtain ⟨h1, h2⟩ := hv u hu
    exact (hend.record h2).1.trans h1
  · intro hk hmark
    have h0 : Leaves m s (s.withMsv { s.msv with recoveryWindow := none }) :=
      ⟨fun hs => ⟨rfl, hs⟩, fun hr _ => ⟨hr, rfl, fun _ => rfl⟩, rfl, rfl, rfl, id⟩
    obtain ⟨u, h1, h2⟩ := foldl_about (f := fun s m => windowEnds m s) (fun s n hn => leaves_windowEnds hn s) (mem_allMachines m)
      allMachines_nodup (s.withMsv { s.msv with recoveryWindow := none })
    have hu := h0.trans h1
    have hid : windowEnds m u = u := by
      rw [windowEnds_absent (by rw [(hu.record hs).1]; exact hx), if_neg (by rw [hu.node, hk]; simp)]
    rw [hid] at h2
    obtain ⟨v, h3, h4⟩ := foldl_about (f := fun s m => repeatNotice m s) (fun s n hn => leaves_repeatNotice hn s) (mem_allMachines m)
      allMachines_nodup (allMachines.foldl (fun s m => windowEnds m s) (s.withMsv { s.msv with recoveryWindow := none }))
    have hv := (hu.trans h2).trans h3
    have hid' : repeatNotice m v = v := if_neg (by rw [hv.node, hmark]; simp)
    rw [hid'] at h4
    exact ((hv.trans h4).record hs).1

/-- Settles O47: each machine by what the window's end leaves of it, and the books by the refunds in order. -/
theorem recoveryWindowEnds : Obligations.RecoveryWindowEnds := by
  intro s hrun hw
  have hexec : exec .recoveryWindowEnd s = .next (endWindow s) := by
    refine congrArg Host.Outcome.next ?_
    rw [whenRunning_of_running hrun, whenDue_of_due (by rw [hw]; rfl)]
  refine ⟨_, hexec, endWindow_closed s, fun hstart => ?_, fun m hs => ⟨fun x hx hr => ⟨endWindow_restores hs hx hr,
    fun z hz hne hc => endWindow_disarms hs hx hr hz hne hc⟩, fun hx => (endWindow_absent hs hx).1,
    fun hx => (endWindow_absent hs hx).2⟩⟩
  have hb := endWindow_books hstart
  by_cases hc : s.sst.roomMode = .closed
  · have hf : s.windowDisarms = fun m => (s.record m).state == .recovering && (s.record m).retained != some .running := by
      funext m
      simp [State.windowDisarms, hc]
    rw [if_pos hc, refundedInFull_eq, ← hf]
    exact ⟨hb.cru, hb.jrn⟩
  · have hf : allMachines.filter s.windowDisarms = [] :=
      List.filter_eq_nil_iff.mpr fun m _ => by simp [State.windowDisarms, hc]
    rw [hf] at hb
    rw [if_neg hc]
    exact ⟨hb.cru, hb.jrn⟩

end Sys2Proof.Machine
end


section
/-! PROOF. SET ROOM MODE (R165), and its change to CLOSED (R22). -/
namespace Sys2Proof.Machine

variable {m : Addr}

/-! ## The flag of a credit (R119) -/

/-- R119, R157: a refund above 0 sets its event. -/
theorem refunded_credited (m : Addr) (payer r : Nat) (s : State) :
    (s.refunded m payer r).evu.isSet .refundCredited = (decide (0 < r) || s.evu.isSet .refundCredited) := by
  unfold State.refunded
  split
  · next h => rw [creditSerial_event, decide_eq_true h, Bool.true_or]
  · next h =>
    rw [(returnSlots_setsAmong 2 s).flag .refundCredited, decide_eq_false h, Bool.false_or]

/-- Both states have the event of a credit set, or neither. -/
def SameCredit (s u : State) : Prop := u.evu.isSet .refundCredited = s.evu.isSet .refundCredited

theorem sameCredit_refundOf {s u v : State} (h : SameCredit u v) : SameCredit (s.refundOf u m) (s.refundOf v m) := by
  unfold SameCredit at h ⊢
  cases hz : (s.record m).session with
  | none => rw [refundOf_of_none hz, refundOf_of_none hz, h]
  | some z => rw [refundOf_of_some hz, refundOf_of_some hz, refunded_credited, refunded_credited, h]

theorem sameCredit_disarmRefund {s u : State} (h : (u.record m).session = (s.record m).session) :
    SameCredit (s.refundOf u m) (disarmRefund m u) := by
  cases hz : (s.record m).session with
  | none => rw [refundOf_of_none hz, disarmRefund_of_none (h.trans hz)]; rfl
  | some z =>
    have hout := calledOff_before m (c := .disarm) rfl u
    have hd : disarmRefund m u =
        enterState m .idle (disposeSession m z.total (review (removeEntries m (queueControl m .disarm u)))) := by
      simp only [disarmRefund, h.trans hz]
    rw [refundOf_of_some hz, hd, disposeSession_refunded (by rw [hout.record]; exact h.trans hz)]
    unfold SameCredit
    rw [(enterState_changes m .idle _).at .evu, (mapRecord_changes m _ _).at .evu, refunded_credited, refunded_credited,
      hout.changes.at .evu]

/-! ## The machines that CLOSED disarms (R22, R165) -/

theorem mem_unstarted {s : State} : m ∈ s.unstarted ↔ (s.record m).state = .armed ∨ (s.record m).state = .starting := by
  simp [State.unstarted, mem_allMachines]

theorem unstarted_nodup (s : State) : s.unstarted.Nodup := allMachines_nodup.filter _

/-- R165: the START entries of the machines that CLOSED disarms have left. -/
def withoutStarts (l : List Addr) (s : State) : State := l.foldl (fun s m => removeEntries m s) s

theorem withoutStarts_changes (l : List Addr) (s : State) : ChangesOnly [.fba] s (withoutStarts l s) :=
  ChangesOnly.foldl (fun s m => removeEntries_changes m s) l s

theorem hasStart_withoutStarts {l : List Addr} {s : State} {k : Addr} (h : k ∈ l ∨ s.fba.hasStart k = false) :
    (withoutStarts l s).fba.hasStart k = false := by
  induction l generalizing s with
  | nil => exact h.resolve_left List.not_mem_nil
  | cons n l ih =>
    refine ih (s := removeEntries n s) ?_
    rcases h with h | h
    · rcases List.mem_cons.mp h with rfl | h
      · exact .inr (removeEntries_none k s).2
      · exact .inl h
    · exact .inr (hasStart_removeEntries h)

/-- R165: no START entry stands once those of the machines disarmed have left. -/
theorem no_starts {s : State} (h : ∀ e ∈ s.fba.starts, (s.record e.machine).state = .starting) (k : Addr) :
    (withoutStarts s.unstarted s).fba.hasStart k = false := by
  refine hasStart_withoutStarts ?_
  cases hs : s.fba.hasStart k with
  | false => exact .inr rfl
  | true =>
    obtain ⟨e, he, hk⟩ := List.any_eq_true.mp hs
    exact .inl (mem_unstarted.mpr (.inr (beq_iff_eq.mp hk ▸ h e he)))

/-- R22: the books of the disarms in order, where no START entry stands. -/
theorem books_foldl_disarm {s : State} {l : List Addr} (hn : l.Nodup) {u v : State} (hv : SameBooks v u) (hc : SameCredit v u)
    (hrec : ∀ m ∈ l, u.record m = s.record m ∧ u.fba.hasStart m = false) :
    SameBooks (l.foldl s.refundOf v) (l.foldl (fun s m => disarmRefund m s) u) ∧
    SameCredit (l.foldl s.refundOf v) (l.foldl (fun s m => disarmRefund m s) u) := by
  induction l generalizing u v with
  | nil => exact ⟨hv, hc⟩
  | cons n l ih =>
    rw [List.nodup_cons] at hn
    have hses : (u.record n).session = (s.record n).session := by rw [(hrec n List.mem_cons_self).1]
    refine ih hn.2 ((booksOnly_refundOf s n _ _ hv).trans (sameBooks_disarmRefund hses))
      (Eq.trans (sameCredit_disarmRefund hses) (sameCredit_refundOf hc)) fun m hm => ?_
    obtain ⟨h1, h2⟩ := hrec m (List.mem_cons_of_mem n hm)
    obtain ⟨k1, k2⟩ := (leaves_disarmRefund (m := m) (n := n) (fun he => hn.1 (he ▸ hm)) u).record h2
    exact ⟨k1.trans h1, k2⟩

/-- R22: what CLOSED leaves of a machine that it disarms. -/
structure ClosedOut (m : Addr) (s t : State) : Prop where
  state   : (t.record m).state = if (s.record m).silent then .offline else .idle
  session : (t.record m).session = none
  start   : t.fba.hasStart m = false
  raise   : t.fba.hasRaise m = false
  command : (s.node m).known = true → Commanded t m .disarm

theorem closeRoom_eq (s : State) :
    closeRoom s = s.unstarted.foldl (fun s m => disarmRefund m s) (withoutStarts s.unstarted s) := rfl

theorem closeRoom_disarms {s : State} (h : ∀ e ∈ s.fba.starts, (s.record e.machine).state = .starting) (hm : m ∈ s.unstarted)
    (hz : (s.record m).session ≠ none) : ClosedOut m s (closeRoom s) := by
  have hc := withoutStarts_changes s.unstarted s
  obtain ⟨u, hu, hend⟩ := foldl_about (f := fun s m => disarmRefund m s) (fun s n hn => leaves_disarmRefund hn s) hm
    (unstarted_nodup s) (withoutStarts s.unstarted s)
  have hrec : u.record m = s.record m := (hu.record (no_starts h m)).1.trans (hc.record m)
  obtain ⟨z, hz⟩ := Option.ne_none_iff_exists'.mp hz
  have hd := disarmed_disarmRefund (m := m) (s := u) (by rw [hrec]; exact hz)
  obtain ⟨h1, h2⟩ := hend.record hd.start
  obtain ⟨h3, h4⟩ := hend.alone hd.raise hd.start
  rw [closeRoom_eq]
  refine ⟨?_, by rw [h1, hd.record], h2, h3, fun hk => (hd.command ?_).of_sameBus h4⟩
  · rw [h1, hd.record, hrec]
  · rw [hu.node, hc.node m]; exact hk

theorem closeRoom_others {s : State} (h : ∀ e ∈ s.fba.starts, (s.record e.machine).state = .starting) (hm : m ∉ s.unstarted) :
    (closeRoom s).record m = s.record m := by
  have hl : Leaves m (withoutStarts s.unstarted s) (closeRoom s) :=
    .foldl (fun u k hk => leaves_disarmRefund (m := m) (n := k) (fun he => hm (he ▸ hk)) u) _
  exact (hl.record (no_starts h m)).1.trans ((withoutStarts_changes s.unstarted s).record m)

theorem closeRoom_books {s : State} (h : ∀ e ∈ s.fba.starts, (s.record e.machine).state = .starting) :
    SameBooks (s.unstarted.foldl s.refundOf s) (closeRoom s) ∧ SameCredit (s.unstarted.foldl s.refundOf s) (closeRoom s) := by
  have hc := withoutStarts_changes s.unstarted s
  have hcredit : SameCredit s (withoutStarts s.unstarted s) := by
    unfold SameCredit
    rw [hc.at .evu]
  exact books_foldl_disarm (unstarted_nodup s) hc.sameBooks hcredit
    fun m _ => ⟨hc.record m, no_starts h m⟩

theorem foldl_refundOf {s u v : State} (hv : SameBooks u v) (hc : SameCredit u v) (l : List Addr) :
    SameBooks (l.foldl s.refundOf u) (l.foldl s.refundOf v) ∧ SameCredit (l.foldl s.refundOf u) (l.foldl s.refundOf v) := by
  induction l generalizing u v with
  | nil => exact ⟨hv, hc⟩
  | cons n l ih => exact ih (booksOnly_refundOf s n _ _ hv) (sameCredit_refundOf hc)

/-! ## The request (R165) -/

theorem roomModeOf_code {x : RoomMode} {mode : Byte} (h : x.code = mode.toNat) : roomModeOf mode.toNat = some x := by
  rw [← h]
  cases x <;> rfl

theorem roomModeOf_of_gt {n : Nat} (h : 2 < n) : roomModeOf n = none := by
  obtain ⟨k, rfl⟩ := Nat.exists_eq_add_of_lt h
  rw [show 2 + k + 1 = k + 3 from by omega]
  rfl

/-- R165: the record of a change of the room mode. -/
def modeBody (x : RoomMode) : RecordBody := { kind := .mode, machine := 0, detail := .mode x }

theorem setRoomMode_same {s : State} {x : RoomMode} {mode : Byte} (hx : x.code = mode.toNat) (h : x = s.sst.roomMode) :
    setRoomMode mode s = (.ok (nat8 x.code ++ nat8 0), s) := by
  unfold setRoomMode
  rw [roomModeOf_code hx]
  exact if_pos h

theorem setRoomMode_open {s : State} {x : RoomMode} {mode : Byte} (hx : x.code = mode.toNat) (h : x ≠ s.sst.roomMode)
    (hc : x ≠ .closed) : setRoomMode mode s =
      (.ok (nat8 x.code ++ nat8 0), writeFree (modeBody x) (s.withSst { s.sst with roomMode := x })) := by
  unfold setRoomMode
  rw [roomModeOf_code hx]
  dsimp only
  rw [if_neg h, decide_eq_false hc]
  rfl

theorem setRoomMode_closed {s : State} (h : s.sst.roomMode ≠ .closed) : setRoomMode 2#8 s =
    (.ok (nat8 2 ++ nat8 s.unstarted.length),
      writeFree (modeBody .closed) (closeRoom (s.withSst { s.sst with roomMode := .closed }))) := by
  unfold setRoomMode
  rw [roomModeOf_code (x := .closed) rfl]
  dsimp only
  rw [if_neg (Ne.symm h)]
  rfl

/-- Settles O13: the mode and its record; and for CLOSED the disarms in order, where no START entry is left to grant. -/
theorem roomModeChanges : Obligations.RoomModeChanges := by
  refine ⟨fun mode s hs => ⟨_, rfl, ?_⟩, fun s hs hmode hses hstart => ⟨_, rfl, ?_⟩⟩
  · rw [serve_of_serves hs]
    refine ⟨fun h => onlyReplies_answer ?_, fun x hx => ⟨fun h => onlyReplies_answer (setRoomMode_same hx h), fun h hc => ?_⟩⟩
    · unfold setRoomMode
      rw [roomModeOf_of_gt h]
      rfl
    · have heq := setRoomMode_open hx h hc
      have hw := writeFree_changes (modeBody x) (s.withSst { s.sst with roomMode := x })
      refine ⟨?_, ?_, replies_answer heq (hw.at .hli), ?_⟩
      · rw [answerRequest_eq heq, (putReply_changes _ _ _).at .sst, hw.at .sst]
        rfl
      · rw [answerRequest_eq heq]
        exact .of_same (u := s.withSst { s.sst with roomMode := x }) rfl rfl ((putReply_changes _ _ _).at .jrn)
      · rw [answerRequest_eq heq]
        exact ((withSst_changes _ s).seq hw (rs := [.jrn, .evu, .sst])).seq (putReply_changes _ _ _)
  · rw [serve_of_serves hs]
    have heq := setRoomMode_closed hmode
    have h0 := withSst_changes { s.sst with roomMode := .closed } s
    have hun : (s.withSst { s.sst with roomMode := .closed }).unstarted = s.unstarted := rfl
    have hin : ∀ m ∈ s.unstarted, ClosedOut m s (closeRoom (s.withSst { s.sst with roomMode := .closed })) := fun m hm => by
      obtain ⟨h1, h2, h3, h4, h5⟩ := closeRoom_disarms (s := s.withSst { s.sst with roomMode := .closed }) hstart (hun ▸ hm)
        (hses m (mem_unstarted.mp hm))
      exact ⟨h1, h2, h3, h4, h5⟩
    have hout : ∀ m, m ∉ s.unstarted → (closeRoom (s.withSst { s.sst with roomMode := .closed })).record m = s.record m :=
      fun m hm => closeRoom_others (s := s.withSst { s.sst with roomMode := .closed }) hstart (hun ▸ hm)
    obtain ⟨hb, hcr⟩ := closeRoom_books (s := s.withSst { s.sst with roomMode := .closed }) hstart
    obtain ⟨hb0, hcr0⟩ := foldl_refundOf (s := s) (u := s) (v := s.withSst { s.sst with roomMode := .closed }) ⟨rfl, rfl, rfl⟩ rfl s.unstarted
    have hbooks := hb0.trans hb
    have hcredit : SameCredit _ _ := Eq.trans hcr hcr0
    have hchanges := closeRoom_changes (s.withSst { s.sst with roomMode := .closed })
    have hw := writeFree_changes (modeBody .closed) (closeRoom (s.withSst { s.sst with roomMode := .closed }))
    have hf := writeFree_setsAmong (modeBody .closed) (closeRoom (s.withSst { s.sst with roomMode := .closed }))
    rw [answerRequest_eq heq]
    generalize closeRoom (s.withSst { s.sst with roomMode := .closed }) = u at *
    have hp := putReply_changes (Answer.reply (.ok (nat8 2 ++ nat8 s.unstarted.length)) 0x0C#8) false (writeFree (modeBody .closed) u)
    have hut : ChangesOnly [.jrn, .evu, .hli] u _ := hw.seq hp
    refine ⟨?_, fun m hx => ?_, fun m ha hst => ?_, ⟨?_, ?_, ?_⟩, ?_, ?_⟩
    · rw [hut.at .sst, hchanges.at .sst]
      rfl
    · have h := hin m (mem_unstarted.mpr hx)
      rw [hut.record m, hut.at .fba]
      exact ⟨h.state, h.session, h.start, h.raise, fun hk => (h.command hk).of_sameBus (hut.sameBus m)⟩
    · rw [hut.record m]
      exact hout m fun hm => (mem_unstarted.mp hm).elim ha hst
    · exact (hut.at .cru).trans hbooks.cru
    · exact .of_same hbooks.jrn hbooks.stamp (hp.at .jrn)
    · rw [hp.at .evu, hf.flag .refundCredited]
      exact hcredit
    · exact holds_putReply ((hw.at .hli).trans ((hchanges.at .hli).trans (h0.at .hli))) _
    · exact (h0.seq hchanges (rs := [.msv, .mbc, .fba, .cru, .flm, .jrn, .evu, .sst])).seq hut

end Sys2Proof.Machine
end


section
/-! PROOF. What a valid report leaves before MSV takes its node state, and after FBA has taken its levels (R3, R32, R36, R42). -/
namespace Sys2Proof.Machine

/-! ## What a report can say (R32) -/

theorem nodeFaultOf_none {x : NodeState} {n : Nat} {f : Option FaultKind} (h : nodeFaultOf x n = some f) :
    f = none ↔ x ≠ .nFault := by
  unfold nodeFaultOf at h
  split at h <;> cases h <;> simp_all

theorem levelOf_kind {k : Kind} {n : Nat} {l : Level} (h : levelOf k n = some l) : l.kind = k := by
  unfold levelOf at h
  split at h <;> cases h <;> rfl

/-- R32: the levels of a report are of its kind, a dryer brings no fill, and a fault code comes with N_FAULT alone. -/
structure Reportable (r : NodeReport) : Prop where
  actual : r.actual.kind = r.kind
  wanted : r.wanted.kind = r.kind
  fills  : r.kind = .dryer → r.actualFill = false ∧ r.wantedFill = false
  fault  : r.fault = none ↔ r.state ≠ .nFault

theorem reportable_of_decode {m : Addr} {rep : SlotReport} {r : NodeReport} (h : decodeReport m rep = some r) : Reportable r := by
  unfold decodeReport at h
  extract_lets k af wf at h
  split at h
  · next state actual wanted _ ha hw =>
    split at h
    · next fault hf =>
      split at h
      · next hc =>
        cases h
        exact ⟨levelOf_kind ha, levelOf_kind hw, hc.2.2, nodeFaultOf_none hf⟩
      · cases h
    · cases h
  · cases h

/-! ## The commands that a report acknowledges (R42) -/

section
variable {m : Addr} {tag : Nat} {s : State}

/-- R42: a report echoes the tag of the command of a class that waits for its node and was sent. -/
def State.echoed (s : State) (m : Addr) (c : CommandClass) (tag : Nat) : Bool :=
  (s.mbc.waiting m c).any fun e => decide (0 < e.sends) && e.tag == some tag

/-- R9: ARM. -/
def BusCommand.isArm : BusCommand → Bool
  | .arm _ _ => true
  | .disarm | .stop _ | .hold | .grant _ _ | .assign => false

/-- R9, R42: that command is ARM. -/
def State.armEchoed (s : State) (m : Addr) (tag : Nat) : Bool :=
  (s.mbc.waiting m .control).any fun e => (decide (0 < e.sends) && e.tag == some tag) && e.command.isArm

theorem waiting_fills {c : CommandClass} {e : BusEntry} (h : s.mbc.waiting m c = some e) : e.fills m c = true :=
  List.find?_some (p := fun e : BusEntry => e.fills m c) h

/-- R9, R42: MSV's part of an acknowledgement. -/
theorem acknowledge_control : acknowledge m .control tag s =
    if s.echoed m .control tag then
      (if s.armEchoed m tag then (dropCommand m .control s).mapSession m fun z => { z with armAcked := true }
       else dropCommand m .control s)
    else s := by
  unfold acknowledge State.echoed State.armEchoed
  cases hw : s.mbc.waiting m .control with
  | none => rfl
  | some e =>
    have hcls := (fills_iff.mp (waiting_fills hw)).2
    simp only [Option.any_some]
    by_cases h : (decide (0 < e.sends) && e.tag == some tag) = true
    · rw [if_pos h, if_pos h]
      simp only [h, Bool.true_and]
      cases hc : e.command with
      | arm p o => rfl
      | disarm | stop b | hold => rfl
      | grant l f | assign => rw [hc] at hcls; simp [BusCommand.cls] at hcls
    · rw [if_neg h, if_neg h]

/-- R42, R71: FBA's part of an acknowledgement. -/
theorem acknowledge_level : acknowledge m .level tag s =
    if s.echoed m .level tag then (dropCommand m .level s).setGrant m { s.grant m with pending := false } else s := by
  unfold acknowledge State.echoed
  cases hw : s.mbc.waiting m .level with
  | none => rfl
  | some e =>
    have hcls := (fills_iff.mp (waiting_fills hw)).2
    simp only [Option.any_some]
    by_cases h : (decide (0 < e.sends) && e.tag == some tag) = true
    · rw [if_pos h, if_pos h]
      cases hc : e.command with
      | grant l f => rfl
      | arm p o | disarm | stop b | hold | assign => rw [hc] at hcls; simp [BusCommand.cls] at hcls
    · rw [if_neg h, if_neg h]

/-- R42: the entries of a class whose command is acknowledged leave the queue. -/
def unechoed (b : Bool) (m : Addr) (c : CommandClass) (q : List BusEntry) : List BusEntry := q.filter fun e => !(b && e.fills m c)

theorem unechoed_false (m : Addr) (c : CommandClass) (q : List BusEntry) : unechoed false m c q = q := by simp [unechoed]

/-! ## The state in which MSV takes a report (R32 steps 1 to 6, R3) -/

/-- R32: an address as its report leaves it, where the keep-alive count goes no third time. -/
def NodeEntry.reporting (n : NodeEntry) (r : NodeReport) : NodeEntry :=
  { n with
    known := true, kind := some r.kind, heard := true, heardNow := true, missed := 0, errorRun := 0, clash := false
    silentMark := false, ctlEcho := r.ctlTag, lvlEcho := r.lvlTag, lastKeep := some r.keepAlive
    staleRun := if n.lastKeep = some r.keepAlive then n.staleRun + 1 else 0 }

/-- R68, R71: a grant as its node's report finds it. -/
def GrantEntry.reporting (e : GrantEntry) (silent acked : Bool) : GrantEntry :=
  { e with excessRun := if silent then 0 else e.excessRun, pending := e.pending && !acked }

/-- R3, R9: a record with the report's door, an end to its silence, the kind where R4 stores it, and an ARM acknowledged. -/
def MachineRecord.reporting (x : MachineRecord) (r : NodeReport) (armed : Bool) : MachineRecord :=
  { x.withReport r with
    kind := if x.storesKind then some r.kind else x.kind
    session := x.session.map fun z => { z with armAcked := z.armAcked || armed } }

/-- R3, R32: the state in which a report's node state and levels are taken. -/
structure Arrived (m : Addr) (r : NodeReport) (s w : State) : Prop where
  record  : w.record m = (s.record m).reporting r (s.armEchoed m r.ctlTag)
  records : ∀ k, k ≠ m → w.record k = s.record k
  grant   : w.grant m = (s.grant m).reporting (s.node m).silentMark (s.echoed m .level r.lvlTag)
  grants  : ∀ k, k ≠ m → w.grant k = s.grant k
  node    : w.node m = (s.node m).reporting r
  nodes   : ∀ k, k ≠ m → w.node k = s.node k
  queue   : w.mbc.queue =
    unechoed (s.echoed m .level r.lvlTag) m .level (unechoed (s.echoed m .control r.ctlTag) m .control s.mbc.queue)
  fba     : w.fba = { s.fba with entries := w.fba.entries }
  sums    : w.fba.committed = s.fba.committed ∧ w.fba.fillCount = s.fba.fillCount
  changes : ChangesOnly [.msv, .mbc, .fba] s w

/-- R32 steps 1 to 6, R3: a report is taken as far as its node state. -/
def arrived (m : Addr) (r : NodeReport) (s : State) : State :=
  mapRecord m (·.heard r) (mapNode m (fun n => { n with kind := some r.kind })
    (mapNode m (·.checkKeep r.keepAlive) (hearReport m r (noteOccupied m s))))

/-- Nothing but machine m's node and grant, and what neither changes, has changed. -/
structure Hears (m : Addr) (n : NodeEntry) (e : GrantEntry) (q : List BusEntry) (s t : State) : Prop where
  node    : t.node m = n
  nodes   : ∀ k, k ≠ m → t.node k = s.node k
  grant   : t.grant m = e
  grants  : ∀ k, k ≠ m → t.grant k = s.grant k
  queue   : t.mbc.queue = q
  fba     : t.fba = { s.fba with entries := t.fba.entries }
  sums    : t.fba.committed = s.fba.committed ∧ t.fba.fillCount = s.fba.fillCount

namespace Hears

variable {n n' : NodeEntry} {e e' : GrantEntry} {q q' : List BusEntry} {t u : State}

theorem trans (h : Hears m n e q s t) (k : Hears m n' e' q' t u) : Hears m n' e' q' s u where
  node := k.node
  nodes j hj := (k.nodes j hj).trans (h.nodes j hj)
  grant := k.grant
  grants j hj := (k.grants j hj).trans (h.grants j hj)
  queue := k.queue
  fba := by rw [k.fba, h.fba]
  sums := ⟨k.sums.1.trans h.sums.1, k.sums.2.trans h.sums.2⟩

theorem of_bus {ps : List Part} (h : ChangesOnly ps s t) (hn : t.mbc.nodes = s.mbc.nodes) (hq : t.mbc.queue = q)
    (hp : ps.contains .fba = false := by rfl) : Hears m (s.node m) (s.grant m) q s t :=
  have hf := h.at .fba hp
  ⟨by rw [State.node, hn]; rfl, fun k _ => by rw [State.node, hn]; rfl, h.grant m hp, fun k _ => h.grant k hp, hq, by rw [hf],
    by rw [hf]; exact ⟨rfl, rfl⟩⟩

theorem mapNode (f : NodeEntry → NodeEntry) (s : State) :
    Hears m (f (s.node m)) (s.grant m) s.mbc.queue s (mapNode m f s) :=
  ⟨by simp [Machine.mapNode], fun k hk => by simp [Machine.mapNode, Ne.symm hk], rfl, fun _ _ => rfl, rfl, rfl, rfl, rfl⟩

theorem setGrant (hd : e.draw = (s.grant m).draw) (hf : e.fill = (s.grant m).fill) :
    Hears m (s.node m) e s.mbc.queue s (s.setGrant m e) := by
  have h1 := committed_setGrant m e s
  have h2 := fillCount_setGrant m e s
  rw [hd] at h1
  rw [hf] at h2
  exact ⟨rfl, fun _ _ => rfl, by simp, fun k hk => by simp [Ne.symm hk], rfl, rfl, by omega, by omega⟩

end Hears

theorem hears_heardAgain (m : Addr) (s : State) : Hears m { s.node m with silentMark := false }
    { s.grant m with excessRun := if (s.node m).silentMark then 0 else (s.grant m).excessRun } s.mbc.queue s (heardAgain m s) := by
  unfold heardAgain
  cases h : (s.node m).silentMark with
  | true =>
    have h1 := Hears.mapNode (m := m) (fun n => { n with silentMark := false }) s
    have h2 := h1.trans (Hears.setGrant (m := m) (s := mapNode m (fun n => { n with silentMark := false }) s)
      (e := { s.grant m with excessRun := 0 }) rfl rfl)
    rwa [h1.node] at h2
  | false =>
    have hn : ({ s.node m with silentMark := false } : NodeEntry) = s.node m := by rw [← h]
    rw [hn]
    exact ⟨rfl, fun _ _ => rfl, rfl, fun _ _ => rfl, rfl, rfl, rfl, rfl⟩

theorem hears_control (m : Addr) (tag : Nat) (s : State) :
    Hears m (s.node m) (s.grant m) (unechoed (s.echoed m .control tag) m .control s.mbc.queue) s (acknowledge m .control tag s) := by
  rw [acknowledge_control]
  cases s.echoed m .control tag with
  | false => exact .of_bus (.refl [.msv] s) rfl (unechoed_false _ _ _).symm
  | true =>
    cases s.armEchoed m tag
    · exact ⟨rfl, fun _ _ => rfl, rfl, fun _ _ => rfl, rfl, rfl, rfl, rfl⟩
    · exact ⟨rfl, fun _ _ => rfl, rfl, fun _ _ => rfl, rfl, rfl, rfl, rfl⟩

theorem hears_level (m : Addr) (tag : Nat) (s : State) :
    Hears m (s.node m) { s.grant m with pending := (s.grant m).pending && !s.echoed m .level tag }
      (unechoed (s.echoed m .level tag) m .level s.mbc.queue) s (acknowledge m .level tag s) := by
  rw [acknowledge_level]
  cases s.echoed m .level tag with
  | false =>
    rw [Bool.not_false, Bool.and_true]
    exact .of_bus (.refl [.msv] s) rfl (unechoed_false _ _ _).symm
  | true =>
    rw [Bool.not_true, Bool.and_false, if_pos rfl]
    have h : Hears m (s.node m) (s.grant m) (unechoed true m .level s.mbc.queue) s (dropCommand m .level s) :=
      ⟨rfl, fun _ _ => rfl, rfl, fun _ _ => rfl, rfl, rfl, rfl, rfl⟩
    exact h.trans (.setGrant (s := dropCommand m .level s) rfl rfl)

theorem acknowledge_control_record (k : Addr) : (acknowledge m .control tag s).record k =
    if k = m then { s.record m with session := (s.record m).session.map fun z => { z with armAcked := z.armAcked || s.armEchoed m tag } }
    else s.record k := by
  have hself : (s.record m).session.map (fun z => { z with armAcked := z.armAcked || false }) = (s.record m).session := by simp
  have hno : s.echoed m .control tag = false → s.armEchoed m tag = false := by
    unfold State.echoed State.armEchoed
    cases s.mbc.waiting m .control with
    | none => exact fun _ => rfl
    | some e => simp only [Option.any_some]; intro h; rw [h]; rfl
  rw [acknowledge_control]
  by_cases hk : k = m
  · subst hk
    rw [if_pos rfl]
    cases he : s.echoed k .control tag with
    | false => rw [hno he, hself]; rfl
    | true =>
      cases ha : s.armEchoed k tag with
      | false => rw [hself]; rfl
      | true =>
        rw [if_pos rfl, if_pos rfl, State.mapSession, State.record_setRecord, if_pos rfl]
        simp only [Bool.or_true]
        rfl
  · rw [if_neg hk]
    cases s.echoed m .control tag with
    | false => rfl
    | true =>
      cases s.armEchoed m tag with
      | false => rfl
      | true =>
        rw [if_pos rfl, if_pos rfl, State.mapSession, State.record_setRecord, if_neg (Ne.symm hk)]
        rfl

/-- R36: the keep-alive check where the count goes no third time. -/
theorem checkKeep_eq {n : NodeEntry} {k : Nat} (h : ¬(n.lastKeep = some k ∧ 2 ≤ n.staleRun)) : n.checkKeep k =
    { n with lastKeep := some k, staleRun := if n.lastKeep = some k then n.staleRun + 1 else 0 } := by
  unfold NodeEntry.checkKeep
  by_cases hk : n.lastKeep = some k
  · rw [if_pos hk, if_neg fun h2 => h ⟨hk, h2⟩, if_pos hk]
    rw [← hk]
  · rw [if_neg hk, if_neg hk]

theorem heard_eq (x : MachineRecord) (r : NodeReport) (b : Bool) :
    ({ x with session := x.session.map fun z => { z with armAcked := z.armAcked || b } } : MachineRecord).heard r = x.reporting r b :=
  rfl

/-- R32 steps 1 to 4: what hearing a report leaves. -/
structure HeardReport (m : Addr) (r : NodeReport) (s t : State) : Prop where
  hears   : Hears m { (s.node m).heardValid r.kind with silentMark := false, ctlEcho := r.ctlTag, lvlEcho := r.lvlTag }
    ((s.grant m).reporting (s.node m).silentMark (s.echoed m .level r.lvlTag))
    (unechoed (s.echoed m .level r.lvlTag) m .level (unechoed (s.echoed m .control r.ctlTag) m .control s.mbc.queue)) s t
  record  : t.record m = { s.record m with
    session := (s.record m).session.map fun z => { z with armAcked := z.armAcked || s.armEchoed m r.ctlTag } }
  records : ∀ k, k ≠ m → t.record k = s.record k
  changes : ChangesOnly [.msv, .mbc, .fba] s t

/-- R42: an acknowledged control command leaves the level command's place as it was. -/
theorem find?_unechoed_level (b : Bool) (q : List BusEntry) :
    (unechoed b m .control q).find? (·.fills m .level) = q.find? (·.fills m .level) := by
  unfold unechoed
  rw [List.find?_filter]
  refine congrArg (fun p => List.find? p q) (funext fun e => ?_)
  cases hf : e.fills m .level with
  | false => simp
  | true =>
    have hno : e.fills m .control = false := by
      rw [Bool.eq_false_iff]
      intro h
      have := (fills_iff.mp h).2
      rw [(fills_iff.mp hf).2] at this
      cases this
    simp [hno]

theorem heardReport_hearReport (m : Addr) (r : NodeReport) (s : State) :
    HeardReport m r s (hearReport m r (noteOccupied m s)) := by
  have h0 : Hears m (s.node m) (s.grant m) s.mbc.queue s (noteOccupied m s) :=
    .of_bus (noteOccupied_changes m s) (noteOccupied_nodes m s) (noteOccupied_queue m s)
  have c0 := noteOccupied_changes m s
  unfold hearReport takeEchoes
  generalize noteOccupied m s = s0 at *
  have h1 := Hears.mapNode (m := m) (·.heardValid r.kind) s0
  have c1 := mapNode_changes m (·.heardValid r.kind) s0
  rw [h0.node, h0.grant, h0.queue] at h1
  generalize mapNode m (·.heardValid r.kind) s0 = s1 at *
  have h2 := hears_heardAgain m s1
  have c2 := heardAgain_changes m s1
  rw [h1.node, h1.grant, h1.queue] at h2
  generalize heardAgain m s1 = s2 at *
  have h3 := Hears.mapNode (m := m) (fun n => { n with ctlEcho := r.ctlTag, lvlEcho := r.lvlTag }) s2
  have c3 := mapNode_changes m (fun n => { n with ctlEcho := r.ctlTag, lvlEcho := r.lvlTag }) s2
  rw [h2.node, h2.grant, h2.queue] at h3
  generalize mapNode m (fun n => { n with ctlEcho := r.ctlTag, lvlEcho := r.lvlTag }) s2 = s3 at *
  have e3 : ∀ c tag, s3.echoed m c tag = s.echoed m c tag := fun c tag => by
    unfold State.echoed Mbc.waiting; rw [h3.queue]
  have a3 : ∀ tag, s3.armEchoed m tag = s.armEchoed m tag := fun tag => by
    unfold State.armEchoed Mbc.waiting; rw [h3.queue]
  have hc03 : ChangesOnly [.mbc, .fba] s s3 :=
    ((c0.seq c1 (rs := [.mbc, .fba])).seq c2 (rs := [.mbc, .fba])).seq c3
  have h4 := hears_control m r.ctlTag s3
  have r4 := fun k => acknowledge_control_record (m := m) (tag := r.ctlTag) (s := s3) k
  have c4 := acknowledge_changes m .control r.ctlTag s3
  rw [h3.node, h3.grant, h3.queue, e3] at h4
  simp only [a3, hc03.record] at r4
  have e4 : (acknowledge m .control r.ctlTag s3).echoed m .level r.lvlTag = s.echoed m .level r.lvlTag := by
    unfold State.echoed Mbc.waiting
    rw [h4.queue]
    exact congrArg _ (find?_unechoed_level _ _)
  generalize acknowledge m .control r.ctlTag s3 = s4 at *
  have h5 := hears_level m r.lvlTag s4
  have c5 := acknowledge_changes m .level r.lvlTag s4
  have r5 : ∀ k, (acknowledge m .level r.lvlTag s4).record k = s4.record k := fun k => by
    rw [acknowledge_level]; split <;> rfl
  rw [h4.node, h4.grant, h4.queue, e4] at h5
  exact ⟨((((h0.trans h1).trans h2).trans h3).trans h4).trans h5, by rw [r5, r4, if_pos rfl],
    fun k hk => by rw [r5, r4, if_neg hk], (hc03.seq c4 (rs := [.msv, .mbc, .fba])).seq c5⟩

/-- R32 steps 1 to 6, R3: what a report leaves before its node state is taken. -/
theorem arrived_arrived {r : NodeReport} (hkeep : ¬((s.node m).lastKeep = some r.keepAlive ∧ 2 ≤ (s.node m).staleRun)) :
    Arrived m r s (arrived m r s) := by
  have h5 := heardReport_hearReport m r s
  unfold arrived
  generalize hearReport m r (noteOccupied m s) = s5 at *
  have h6 := Hears.mapNode (m := m) (·.checkKeep r.keepAlive) s5
  have c6 := mapNode_changes m (·.checkKeep r.keepAlive) s5
  have hkeep5 : ¬((s5.node m).lastKeep = some r.keepAlive ∧ 2 ≤ (s5.node m).staleRun) := by rw [h5.hears.node]; exact hkeep
  rw [checkKeep_eq hkeep5, h5.hears.node, h5.hears.grant, h5.hears.queue] at h6
  generalize mapNode m (·.checkKeep r.keepAlive) s5 = s6 at *
  have h7 := Hears.mapNode (m := m) (fun n => { n with kind := some r.kind }) s6
  have c7 := mapNode_changes m (fun n => { n with kind := some r.kind }) s6
  rw [h6.node, h6.grant, h6.queue] at h7
  generalize mapNode m (fun n => { n with kind := some r.kind }) s6 = s7 at *
  have hall := (h5.hears.trans h6).trans h7
  have hc57 : ChangesOnly [.mbc] s5 s7 := c6.seq c7
  have hrec : ∀ k, s7.record k = s5.record k := fun k => hc57.record k
  exact
    { record := by rw [mapRecord, State.record_setRecord, if_pos rfl, hrec, h5.record, heard_eq]
      records := fun k hk => by rw [mapRecord, State.record_setRecord, if_neg (Ne.symm hk), hrec, h5.records k hk]
      grant := hall.grant
      grants := hall.grants
      node := hall.node
      nodes := hall.nodes
      queue := hall.queue
      fba := hall.fba
      sums := hall.sums
      changes := (h5.changes.seq hc57 (rs := [.msv, .mbc, .fba])).seq (mapRecord_changes m _ s7) }

/-! ## The report, whole (R3, R32, R45) -/

/-- R3: MSV's part of a report, with a paid session's kind found right or not (R4). -/
def reportBody (m : Addr) (r : NodeReport) (differs : Bool) (w : State) : State :=
  if differs then selfAbort m .kindChanged (endRecovery m w) else applyNodeState m r w

/-- R3, R32 step 8, R45: FBA takes the levels, FLM the fault code, and a discovery its answer. -/
def reportTail (m : Addr) (r : NodeReport) (answers : Bool) (x : State) : State :=
  if answers then assignAnswered (faultCode m r (feederReport m r x)) else faultCode m r (feederReport m r x)

theorem kindDiffers_reported (x : MachineRecord) (f : Option Session) (k : Kind) :
    ({ x with session := f } : MachineRecord).kindDiffers k = x.kindDiffers k := rfl

theorem exec_report {rep : SlotReport} {r : NodeReport} (h : ReportTaken s m rep r) : exec (.validReport m rep) s =
    .next (reportTail m r (s.mbc.discovery.answeredBy m)
      (reportBody m r ((s.record m).kindDiffers r.kind) (arrived m r s))) := by
  have h5 := heardReport_hearReport m r s
  have hstale : ((hearReport m r (noteOccupied m s)).node m).goesStale r.keepAlive = false := by
    rw [h5.hears.node, Bool.eq_false_iff]
    intro hg
    simp only [NodeEntry.goesStale, Bool.and_eq_true, beq_iff_eq, decide_eq_true_eq] at hg
    exact h.2.2.2 hg
  have hrec : ((mapNode m (fun n => { n with kind := some r.kind })
      (mapNode m (·.checkKeep r.keepAlive) (hearReport m r (noteOccupied m s)))).record m).kindDiffers r.kind =
      (s.record m).kindDiffers r.kind := by
    rw [(mapNode_changes m _ _).record m, (mapNode_changes m _ _).record m, h5.record, kindDiffers_reported]
  have htake : takeReport m r (noteOccupied m s) =
      faultCode m r (feederReport m r (reportBody m r ((s.record m).kindDiffers r.kind) (arrived m r s))) := by
    unfold takeReport
    dsimp only
    rw [hstale, if_neg Bool.false_ne_true, ← hrec]
    rfl
  rw [exec_validReport h]
  unfold takeValid reportTail
  rw [htake]

/-! ## After MSV (R32 steps 7 and 8, R45) -/

/-- R38, R45: what follows FBA's part of a report without a fault code. -/
structure Reported (m : Addr) (answers : Bool) (y t : State) : Prop where
  node    : t.node m = { y.node m with lastFault := none }
  nodes   : ∀ k, k ≠ m → t.node k = y.node k
  waits   : ∀ k c, t.mbc.waiting k c = y.mbc.waiting k c
  queue   : answers = false → t.mbc.queue = y.mbc.queue
  changes : ChangesOnly [.mbc] y t

theorem waiting_offerNext (s : State) (n : Addr) (k : CommandClass) : (offerNext s).mbc.waiting n k = s.mbc.waiting n k := by
  unfold offerNext
  split
  · rfl
  · simp [Mbc.waiting, BusEntry.fills, BusCommand.cls]

theorem waiting_assignAnswered (s : State) (n : Addr) (k : CommandClass) :
    (assignAnswered s).mbc.waiting n k = s.mbc.waiting n k := (waiting_offerNext _ n k).trans rfl

theorem node_assignAnswered (s : State) (n : Addr) : (assignAnswered s).node n = s.node n := by
  unfold State.node assignAnswered
  rw [(offerNext_offers _).nodes]
  rfl

/-- R45: the answer to an ASSIGN leaves nodes, waiting commands and every other block. -/
theorem reported_reportTail {r : NodeReport} (hr : r.fault = none) (answers : Bool) (x : State) :
    Reported m answers (feederReport m r x) (reportTail m r answers x) := by
  have hf : faultCode m r (feederReport m r x) = mapNode m (fun n => { n with lastFault := none }) (feederReport m r x) := by
    unfold faultCode
    rw [hr]
  unfold reportTail
  rw [hf]
  generalize feederReport m r x = y
  have hm := mapNode_changes m (fun n => { n with lastFault := none }) y
  have hself : (mapNode m (fun n => { n with lastFault := none }) y).node m = { y.node m with lastFault := none } := by
    simp [mapNode]
  have hother : ∀ k, k ≠ m → (mapNode m (fun n => { n with lastFault := none }) y).node k = y.node k := fun k hk => by
    simp [mapNode, Ne.symm hk]
  cases answers with
  | false => exact ⟨hself, hother, fun _ _ => rfl, fun _ => rfl, hm⟩
  | true =>
    rw [if_pos rfl]
    exact ⟨(node_assignAnswered _ m).trans hself, fun k hk => (node_assignAnswered _ k).trans (hother k hk),
      fun k c => waiting_assignAnswered _ k c, fun h => absurd h (by simp), hm.seq (assignAnswered_changes _)⟩

/-- R55: FBA only stores the levels of a machine that neither starts, runs nor aborts. -/
theorem feederReport_rests {r : NodeReport} {x : State}
    (h : (x.record m).state ≠ .running ∧ (x.record m).state ≠ .aborting ∧ (x.record m).state ≠ .starting) :
    feederReport m r x = mapGrant m (·.reported r) x := by
  have hrec : (mapGrant m (·.reported r) x).record m = x.record m := (mapGrant_changes m _ x).record m
  unfold feederReport
  dsimp only
  split
  · rfl
  · rw [hrec]
    split
    · next hs => exact absurd hs h.1
    · next hs => exact absurd hs h.2.1
    · next hs => exact absurd hs h.2.2
    · rfl

end

end Sys2Proof.Machine
end


section
/-! PROOF. A report that ends a run (R18), and one in ABORTING or of another kind than the paid session's (R21, R4). -/
namespace Sys2Proof.Machine

section
variable {m : Addr} {s : State}

/-! ## The normal end of a run (R18) -/

/-- R18: the record of a cycle's end. -/
def cycleEndBody (m : Addr) (z : Session) : RecordBody :=
  { kind := .cycleEnd, machine := addrNumber m, serial := some z.payer, amount := some z.total }

/-- R18, R157: what the normal end of a session leaves. -/
structure NormallyEnded (m : Addr) (target : MState) (z : Session) (s t : State) : Prop where
  record  : t.record m = { s.record m with
    state := (s.record m).landing target
    unloadTimer := if (s.record m).landing target = .done then 1800 else 0
    session := none, silenceTimer := 0, retained := none }
  granted : (t.grant m).granted = none
  freed   : (s.grant m).granted ≠ none → (t.grant m).draw = 0 ∧ (t.grant m).fill = false ∧ m ∉ t.fba.startList
  raise   : t.fba.hasRaise m = false
  start   : t.fba.hasStart m = false
  journal : (0 < s.jrn.free → t.jrn =
      { s.jrn.append s.stamp (cycleEndBody m z) with reservations := s.jrn.reservations - 2 }) ∧
    (s.jrn.free = 0 → t.jrn = { s.jrn with overflow := min 65535 (s.jrn.overflow + 1), reservations := s.jrn.reservations - 2 })
  event   : t.evu.isSet .cycleEnd = true
  count   : (t.faults m).stopCount = 0
  node    : t.node m = s.node m
  changes : ChangesOnly [.msv, .mbc, .fba, .flm, .jrn, .evu] s t

theorem disposeSession_nothing {z : Session} (hz : (s.record m).session = some z) :
    disposeSession m 0 s = mapRecord m (fun x => { x with session := none, silenceTimer := 0 }) (returnSlots 2 s) :=
  disposeSession_of_some hz 0

theorem normallyEnded_normalEnd {z : Session} (target : MState) (hz : (s.record m).session = some z) :
    NormallyEnded m target z s (normalEnd m target s) := by
  have hrel := released_releaseGrant m s
  have heq : normalEnd m target s = enterState m target (mapRecord m (fun x => { x with retained := none })
      (disposeSession m 0 (setEvent .cycleEnd ((writeFree (cycleEndBody m z) (releaseGrant m s)).setFaults m
        { (writeFree (cycleEndBody m z) (releaseGrant m s)).faults m with stopCount := 0 })))) := by
    unfold normalEnd
    simp only [hz]
    rfl
  have hu := writeFree_changes (cycleEndBody m z) (releaseGrant m s)
  have hjrn := writeFree_jrn (cycleEndBody m z) (releaseGrant m s)
  rw [hrel.changes.at .jrn, hrel.changes.stamp] at hjrn
  rw [heq]
  generalize writeFree (cycleEndBody m z) (releaseGrant m s) = u at *
  generalize hv : setEvent .cycleEnd (u.setFaults m { u.faults m with stopCount := 0 }) = v
  have huv : ChangesOnly [.flm, .evu] u v := by
    rw [← hv]; exact (setFaults_changes m _ u).seq (setEvent_changes _ _)
  have hvev : v.evu.isSet .cycleEnd = true := by rw [← hv, setEvent_isSet]; rfl
  have hvf : (v.faults m).stopCount = 0 := by rw [← hv, (setEvent_changes _ _).faults m]; simp
  have hvrec : v.record m = s.record m := by rw [huv.record m, hu.record m, hrel.record]
  rw [disposeSession_nothing (by rw [hvrec]; exact hz)]
  have hsu : ChangesOnly [.msv, .mbc, .fba, .jrn, .evu] s u := hrel.changes.seq hu
  have hr := returnSlots_changes 2 v
  have hrj := returnSlots_jrn 2 v
  have hrev := (returnSlots_setsAmong 2 v).flag .cycleEnd
  generalize returnSlots 2 v = w at *
  generalize hx : mapRecord m (fun x => { x with retained := none })
    (mapRecord m (fun x => { x with session := none, silenceTimer := 0 }) w) = x
  have hwx : ChangesOnly [.msv] w x := by rw [← hx]; exact (mapRecord_changes m _ w).seq (mapRecord_changes m _ _)
  have hxrec : x.record m = { s.record m with session := none, silenceTimer := 0, retained := none } := by
    rw [← hx]
    simp [mapRecord, hr.record m, hvrec]
  have he := enterState_changes m target x
  have hux : ChangesOnly [.msv, .flm, .jrn, .evu] u x := (huv.seq hr (rs := [.flm, .jrn, .evu])).seq hwx
  have hut : ChangesOnly [.msv, .flm, .jrn, .evu] u (enterState m target x) := hux.seq he
  have hgrant : (enterState m target x).grant m = (releaseGrant m s).grant m := (hut.grant m).trans (hu.grant m)
  have hfba : (enterState m target x).fba = (releaseGrant m s).fba := (hut.at .fba).trans (hu.at .fba)
  have htj : (enterState m target x).jrn = { u.jrn with reservations := u.jrn.reservations - 2 } := by
    rw [he.at .jrn, hwx.at .jrn, hrj, huv.at .jrn]
  exact
    { record := by
        rw [enterState_record, hxrec]
        rfl
      granted := by rw [hgrant]; exact hrel.granted
      freed := fun h => by rw [hgrant, hfba]; exact hrel.freed h
      raise := by rw [hfba]; exact hrel.raise
      start := by rw [hfba]; exact hrel.start
      journal := by
        rw [htj, hjrn]
        refine ⟨fun h => ?_, fun h => ?_⟩
        · rw [if_neg (by omega)]
          rfl
        · rw [if_pos h, satInc_eq_min]
      event := by rw [he.at .evu, hwx.at .evu, hrev]; exact hvev
      count := by
        have hxf : (x.faults m).stopCount = 0 := by rw [hwx.faults m, hr.faults m]; exact hvf
        rw [State.faults, enterState_flm]
        split
        · simpa using hxf
        · exact hxf
      node := by rw [hut.node m, hu.node m, hrel.node]
      changes := hsu.seq hut }

/-! ## What FBA stores of a report (R55, R72) -/

/-- R55: a report leaves the grant itself. -/
structure SameGrant (e f : GrantEntry) : Prop where
  granted    : f.granted = e.granted
  fill       : f.fill = e.fill
  draws      : f.draws = e.draws
  draw       : f.draw = e.draw
  heldSilent : f.heldSilent = e.heldSilent
  pending    : f.pending = e.pending

theorem SameGrant.trans {e f g : GrantEntry} (h : SameGrant e f) (k : SameGrant f g) : SameGrant e g :=
  ⟨k.granted.trans h.granted, k.fill.trans h.fill, k.draws.trans h.draws, k.draw.trans h.draw, k.heldSilent.trans h.heldSilent,
    k.pending.trans h.pending⟩

theorem sameGrant_countExcess (e : GrantEntry) (l : Level) (f : Bool) : SameGrant e (e.countExcess l f) := by
  unfold GrantEntry.countExcess
  split
  · exact ⟨rfl, rfl, rfl, rfl, rfl, rfl⟩
  · split
    · exact ⟨rfl, rfl, rfl, rfl, rfl, rfl⟩
    · exact ⟨rfl, rfl, rfl, rfl, rfl, rfl⟩

theorem sameGrant_reported (e : GrantEntry) (r : NodeReport) : SameGrant e (e.reported r) :=
  (sameGrant_countExcess e r.actual r.actualFill).trans ⟨rfl, rfl, rfl, rfl, rfl, rfl⟩

theorem mapGrant_self (f : GrantEntry → GrantEntry) (s : State) : (mapGrant m f s).grant m = f (s.grant m) := by simp [mapGrant]

theorem mapGrant_queues (f : GrantEntry → GrantEntry) (s : State) : (mapGrant m f s).fba = { s.fba with entries := (mapGrant m f s).fba.entries } := rfl

/-- R4: a report of the kind that the record holds differs in nothing. -/
theorem kindDiffers_of_same {x : MachineRecord} {k : Kind} (h : x.kind = some k) : x.kindDiffers k = false := by
  unfold MachineRecord.kindDiffers
  rw [h]
  cases x.effective <;> simp

/-- R4: a kind that stands is what was stored. -/
theorem storedKind {x : MachineRecord} {k : Kind} (h : x.kind = some k) : (if x.storesKind then some k else x.kind) = some k := by
  rw [h]
  exact ite_self _

/-- R9: a session with an ARM acknowledged. -/
def Session.acked (z : Session) (b : Bool) : Session := { z with armAcked := z.armAcked || b }

theorem reporting_session {x : MachineRecord} {z : Session} (h : x.session = some z) (r : NodeReport) (b : Bool) :
    (x.reporting r b).session = some (z.acked b) := by
  show x.session.map _ = _
  rw [h]
  rfl

/-! ## The end of a run (R18) -/

/-- Settles O37: the report arrives, the run ends normally, and FBA finds nothing granted. -/
theorem reportEndsRun : Obligations.ReportEndsRun := by
  intro slot rep r z s hrep hstate hx hz hkind hgranted
  have hw := arrived_arrived hrep.2.2.2
  have hfault : r.fault = none := (reportable_of_decode hrep.2.1).fault.mpr (by rcases hstate with h | h | h <;> simp [h])
  have hexec := exec_report hrep
  rw [kindDiffers_of_same hkind] at hexec
  generalize arrived slot r s = w at *
  have hwrec := hw.record
  have hwx : (w.record slot).state = .running := by rw [hwrec]; exact hx
  have hbody : reportBody slot r false w = normalEnd slot .done w := by
    show applyNodeState slot r w = _
    unfold applyNodeState
    rw [hwx]
    show runningReport slot r w = _
    unfold runningReport
    rcases hstate with h | h | h <;> rw [h]
  rw [hbody] at hexec
  have hn := normallyEnded_normalEnd (m := slot) (s := w) .done (by rw [hwrec]; exact reporting_session hz r _)
  generalize normalEnd slot .done w = x at *
  have hland : (w.record slot).landing .done = .done := by
    rw [hwrec]
    rfl
  have hxrec := hn.record
  rw [hland] at hxrec
  have hfr : feederReport slot r x = mapGrant slot (·.reported r) x := feederReport_rests (by rw [hxrec]; simp)
  have ht := reported_reportTail (m := slot) hfault (s.mbc.discovery.answeredBy slot) x
  rw [hfr] at ht
  have hg := mapGrant_changes slot (·.reported r) x
  have hsame := sameGrant_reported (x.grant slot) r
  have hgrant : (mapGrant slot (·.reported r) x).grant slot = (x.grant slot).reported r := mapGrant_self _ x
  have hfba := mapGrant_queues (m := slot) (·.reported r) x
  generalize mapGrant slot (·.reported r) x = y at *
  refine ⟨_, hexec, ?_⟩
  generalize reportTail slot r (s.mbc.discovery.answeredBy slot) x = t at *
  have htx : ChangesOnly [.mbc, .fba] x t := hg.seq ht.changes
  have htg : t.grant slot = (x.grant slot).reported r := (ht.changes.grant slot).trans hgrant
  have htf : t.fba = y.fba := ht.changes.at .fba
  have hws := hw.changes
  have hjrn : w.jrn = s.jrn := hws.at .jrn
  have hfree := hn.freed (by rw [hw.grant]; exact hgranted)
  have hxj := hn.journal
  rw [hjrn, hws.stamp] at hxj
  refine ⟨by rw [htx.record slot, hxrec], by rw [htx.record slot, hxrec]; rfl, by rw [htx.record slot, hxrec],
    by rw [htg, hsame.granted]; exact hn.granted, by rw [htg, hsame.draw]; exact hfree.1, by rw [htg, hsame.fill]; exact hfree.2.1,
    by rw [htf, hfba]; exact hfree.2.2, by rw [htf, hfba]; exact hn.start, by rw [htf, hfba]; exact hn.raise,
    fun h => by rw [htx.at .jrn]; exact hxj.1 h, fun h => by rw [htx.at .jrn]; exact hxj.2 h, by rw [htx.at .evu]; exact hn.event,
    by rw [htx.faults slot]; exact hn.count, (hws.seq hn.changes (rs := [.msv, .mbc, .fba, .flm, .jrn, .evu])).seq htx⟩

end

end Sys2Proof.Machine
end


section
/-! PROOF. A report in ABORTING, and one of another kind than the paid session's (R21, R4). -/
namespace Sys2Proof.Machine

section
variable {m : Addr} {s : State}

/-! ## The feeder's operations seen from one machine (R59, R65, R71) -/

/-- Whatever the feeder does, the control command and the node of a machine stand, and a grant stays one. -/
structure Allots (m : Addr) (s t : State) : Prop where
  control : t.mbc.waiting m .control = s.mbc.waiting m .control
  granted : (s.grant m).granted.isSome = true → (t.grant m).granted.isSome = true
  node    : t.node m = s.node m

namespace Allots

variable {t u : State} {n : Addr}

theorem refl (m : Addr) (s : State) : Allots m s s := ⟨rfl, id, rfl⟩

theorem trans (h : Allots m s t) (k : Allots m t u) : Allots m s u :=
  ⟨k.control.trans h.control, k.granted ∘ h.granted, k.node.trans h.node⟩

theorem ite {c : Prop} [Decidable c] (h : Allots m s t) (k : Allots m s u) : Allots m s (if c then t else u) := by
  split <;> assumption

theorem of_changes {ps : List Part} (h : ChangesOnly ps s t) (m : Addr) (hb : ps.contains .mbc = false := by rfl)
    (hf : ps.contains .fba = false := by rfl) : Allots m s t :=
  ⟨by rw [h.at .mbc hb], by rw [h.grant m hf]; exact id, h.node m hb⟩

theorem withFba {f : Fba} (h : f.entries = s.fba.entries) : Allots m s (s.withFba f) :=
  ⟨rfl, by
    have : (s.withFba f).grant m = s.grant m := by
      unfold State.grant
      rw [State.withFba_fba, h]
    rw [this]; exact id, rfl⟩

theorem setGrant {e : GrantEntry} (h : n = m → (s.grant m).granted.isSome = true → e.granted.isSome = true) :
    Allots m s (s.setGrant n e) := by
  refine ⟨rfl, fun hg => ?_, rfl⟩
  by_cases hn : n = m
  · subst hn
    simpa using h rfl hg
  · simpa [hn] using hg

theorem foldl {f : State → Addr → State} (h : ∀ s n, Allots m s (f s n)) (l : List Addr) (s : State) : Allots m s (l.foldl f s) := by
  induction l generalizing s with
  | nil => exact refl m s
  | cons n l ih => exact (h s n).trans (ih _)

end Allots

variable {n : Addr}

theorem allots_queueGrant (m n : Addr) (l : Level) (f : Bool) (s : State) : Allots m s (queueGrant n l f s) := by
  refine ⟨waiting_queueGrant m n l f s, ?_, node_queueGrant m n l f s⟩
  have hg : (queueGrant n l f s).grant m = s.grant m ∨ (queueGrant n l f s).grant m = (s.setGrant n { s.grant n with pending := true }).grant m := by
    unfold State.grant
    rcases queueGrant_fba n l f s with h | h <;> rw [h]
    · exact .inl rfl
    · exact .inr rfl
  rcases hg with h | h <;> rw [h]
  · exact id
  · exact (Allots.setGrant (n := n) (m := m) fun hn => by subst hn; exact id).granted

theorem allots_changeGrant (m n : Addr) (l : Level) (f : Bool) (s : State) : Allots m s (changeGrant n l f s) :=
  (Allots.setGrant fun _ _ => rfl).trans (allots_queueGrant m n l f _)

theorem allots_removeRaise (m n : Addr) (s : State) : Allots m s (removeRaise n s) := .withFba rfl
theorem allots_removeStart (m n : Addr) (s : State) : Allots m s (removeStart n s) := .withFba rfl
theorem allots_addRaise (m n : Addr) (l : Level) (f : Bool) (s : State) : Allots m s (addRaise n l f s) := .withFba rfl
theorem allots_setRaise (m n : Addr) (l : Level) (f : Bool) (s : State) : Allots m s (setRaise n l f s) :=
  .ite (.withFba rfl) (allots_addRaise m n l f s)
theorem allots_ensureRaise (m n : Addr) (l : Level) (f : Bool) (s : State) : Allots m s (ensureRaise n l f s) :=
  .ite (.refl m s) (allots_addRaise m n l f s)
theorem allots_addStart (m n : Addr) (l : Level) (f : Bool) (s : State) : Allots m s (addStart n l f s) :=
  .ite (.withFba rfl) (.withFba rfl)

theorem allots_compareWanted (m n : Addr) (s : State) : Allots m s (compareWanted n s) := by
  unfold compareWanted
  dsimp only
  split
  · split
    · have hc : ∀ (c : Prop) [Decidable c] l f, Allots m s (if c then s else changeGrant n l f s) :=
        fun c _ l f => .ite (.refl m s) (allots_changeGrant m n l f s)
      exact .ite ((hc _ _ _).trans (allots_setRaise m n _ _ _)) ((hc _ _ _).trans (allots_removeRaise m n _))
    · exact .refl m s
  · exact .refl m s

theorem allots_startGranted (m n : Addr) {e : GrantEntry} (he : e.granted.isSome = true) (s : State) :
    Allots m s (startGranted n e s) := by
  have h1 : Allots m s (s.setGrant n e) := .setGrant fun _ _ => he
  unfold startGranted
  dsimp only
  generalize s.setGrant n e = u at *
  have h2 : Allots m u (u.withFba { u.fba with startList := u.fba.startList ++ [n] }) := .withFba rfl
  exact (h1.trans h2).trans (allots_removeStart m n _)

theorem allots_startRuns (m n : Addr) {e : GrantEntry} (he : e.granted.isSome = true) (l : Level) (f : Bool) (s : State) :
    Allots m s (startRuns n e l f s) := by
  have h1 := allots_startGranted m n he s
  unfold startRuns
  generalize startGranted n e s = u at *
  have h2 := allots_queueGrant m n l f u
  generalize queueGrant n l f u = v at *
  exact (h1.trans h2).trans (.of_changes (enterRunning_changes n v) m)

theorem allots_grantHead {t : State} (m : Addr) (h : grantHead s = some t) : Allots m s t := by
  unfold grantHead at h
  split at h
  · unfold grantRaise at h
    dsimp only at h
    split at h
    · cases h
      exact (allots_removeRaise m _ s).trans (allots_changeGrant m _ _ _ _)
    · cases h
  · unfold grantStart at h
    split at h
    · cases h
    · split at h
      · split at h
        · cases h
          rw [grantWasherStart_eq]
          exact (allots_startRuns m _ rfl _ _ s).trans (allots_compareWanted m _ _)
        · cases h
      · split at h
        · cases h
          rw [grantDryerStart_eq]
          exact .ite ((allots_startRuns m _ rfl _ _ s).trans (allots_addRaise m _ _ _ _)) (allots_startRuns m _ rfl _ _ s)
        · cases h
  · cases h

theorem allots_review (m : Addr) (s : State) : Allots m s (review s) := by
  have hheads : ∀ (k : Nat) (u : State), Allots m u (grantHeads k u) := fun k => by
    induction k with
    | zero => exact .refl m
    | succ k ih =>
      intro u
      unfold grantHeads
      split
      · exact .refl m u
      · next t ht => exact (allots_grantHead m ht).trans (ih t)
  have hclear : Allots m s (clearOverBudget s) := .ite (.withFba rfl) (.refl m s)
  exact hclear.trans (.ite (.refl m _) (hheads _ _))

theorem allots_shedStep (m : Addr) (u l : Level) (s : State) : Allots m s (shedStep u l s) :=
  .foldl (fun s n => .ite ((allots_changeGrant m n _ _ s).trans (allots_ensureRaise m n _ _ _)) (.refl m s)) _ s

theorem allots_checkOrReview (m : Addr) (s : State) : Allots m s (checkOrReview s) := by
  refine .ite ?_ (allots_review m s)
  have h := ((allots_shedStep m .high .low s).trans (allots_shedStep m .low .air _)).trans (allots_shedStep m .heat .base _)
  unfold budgetCheck
  dsimp only
  generalize shedStep .heat .base (shedStep .low .air (shedStep .high .low s)) = u at *
  have h2 : Allots m u (u.withFba { u.fba with overBudget := true }) := .withFba rfl
  exact .ite (h.trans (allots_review m u)) ((h.trans h2).trans (.of_changes (setEventIf_changes _ _ _) m))

theorem allots_rebuildGrant (m n : Addr) (g a : Level) (f : Bool) (s : State) : Allots m s (rebuildGrant n g a f s) := by
  have hg : Allots m s (mapGrant n (fun e => e.rebuilt g a f) s) := .setGrant fun _ _ => rfl
  unfold rebuildGrant
  dsimp only
  generalize mapGrant n (fun e => e.rebuilt g a f) s = u at *
  exact (Allots.ite (hg.trans (allots_queueGrant m n _ _ _)) hg).trans (allots_checkOrReview m _)

theorem allots_rebuildIfHeld (m n : Addr) (a : Level) (f : Bool) (s : State) : Allots m s (rebuildIfHeld n a f s) := by
  unfold rebuildIfHeld
  split
  · exact allots_rebuildGrant m n _ a f s
  · exact .refl m s

/-- R55: FBA's part of a report. -/
theorem allots_feederReport (m n : Addr) (r : NodeReport) (s : State) : Allots m s (feederReport n r s) := by
  have h0 : Allots m s (mapGrant n (·.reported r) s) := .setGrant fun hn => by
    subst hn
    rw [(sameGrant_reported _ r).granted]
    exact id
  unfold feederReport
  dsimp only
  generalize mapGrant n (·.reported r) s = u at *
  have h1 := allots_rebuildIfHeld m n r.actual r.actualFill u
  refine .ite h0 ?_
  split
  · have h2 := (h0.trans h1).trans (allots_compareWanted m n _)
    exact h2.trans (.ite (allots_review m _) (allots_checkOrReview m _))
  · exact h0.trans h1
  · exact .ite ((h0.trans (allots_addStart m n _ _ u)).trans (allots_review m _)) h0
  · exact h0

/-! ## What a review leaves of a machine that does not start (R59, R65) -/

/-- No START entry of a machine, and its record stands. -/
def Stands (m : Addr) (s t : State) : Prop :=
  s.fba.hasStart m = false → t.record m = s.record m ∧ t.fba.hasStart m = false

namespace Stands

variable {t u : State}

theorem refl (m : Addr) (s : State) : Stands m s s := fun h => ⟨rfl, h⟩

theorem trans (h : Stands m s t) (k : Stands m t u) : Stands m s u := fun hs =>
  ⟨(k (h hs).2).1.trans (h hs).1, (k (h hs).2).2⟩

theorem ite {c : Prop} [Decidable c] (h : Stands m s t) (k : Stands m s u) : Stands m s (if c then t else u) := by
  split <;> assumption

theorem of_starts {ps : List Part} (h : KeepsStarts s t) (hc : ChangesOnly ps s t) (m : Addr)
    (hp : ps.contains .msv = false := by rfl) : Stands m s t :=
  fun hs => ⟨hc.record m hp, by rw [Fba.hasStart, h.1]; exact hs⟩

end Stands

theorem stands_review (m : Addr) (s : State) : Stands m s (review s) := review_record s

theorem stands_checkOrReview (m : Addr) (s : State) : Stands m s (checkOrReview s) := by
  have hc := ((shedStep_changes .high .low s).seq (shedStep_changes .low .air _) (rs := [.mbc, .fba])).seq
    (shedStep_changes .heat .base _) (rs := [.mbc, .fba])
  have hk := ((keepsStarts_shedStep .high .low s).trans (keepsStarts_shedStep .low .air _)).trans
    (keepsStarts_shedStep .heat .base _)
  refine .ite ?_ (stands_review m s)
  unfold budgetCheck
  dsimp only
  generalize shedStep .heat .base (shedStep .low .air (shedStep .high .low s)) = u at *
  have h : Stands m s u := .of_starts hk hc m
  refine .ite (h.trans (stands_review m u)) (h.trans ?_)
  have hset := (withFba_changes { u.fba with overBudget := true } u).seq
    (setEventIf_changes (!u.fba.overBudget) .overBudget (u.withFba { u.fba with overBudget := true })) (rs := [.fba, .evu])
  exact .of_starts ⟨by simp, by simp [Fba.given]⟩ hset m

theorem stands_mapGrant (m n : Addr) (f : GrantEntry → GrantEntry) (s : State) : Stands m s (mapGrant n f s) := fun h => ⟨rfl, h⟩

theorem stands_rebuildIfHeld (m n : Addr) (a : Level) (f : Bool) (s : State) : Stands m s (rebuildIfHeld n a f s) := by
  unfold rebuildIfHeld
  split
  · next g _ _ =>
    unfold rebuildGrant
    dsimp only
    have hg : Stands m s (mapGrant n (fun e => e.rebuilt g a f) s) := stands_mapGrant m n _ s
    generalize mapGrant n (fun e => e.rebuilt g a f) s = u at *
    exact (Stands.ite (hg.trans (.of_starts (keepsStarts_queueGrant n _ _ u) (queueGrant_changes n _ _ u) m)) hg).trans
      (stands_checkOrReview m _)
  · exact .refl m s

/-- R55: FBA asks for a START entry of a STARTING machine alone. -/
theorem stands_feederReport {r : NodeReport} (h : (s.record m).state ≠ .starting) : Stands m s (feederReport m r s) := by
  have hc := mapGrant_changes m (·.reported r) s
  have h0 : Stands m s (mapGrant m (·.reported r) s) := stands_mapGrant m m _ s
  have hst : ((mapGrant m (·.reported r) s).record m).state ≠ .starting := by rw [hc.record m]; exact h
  unfold feederReport
  dsimp only
  generalize mapGrant m (·.reported r) s = u at *
  have h1 := stands_rebuildIfHeld m m r.actual r.actualFill u
  refine .ite h0 ?_
  split
  · have h2 := (h0.trans h1).trans (.of_starts (keepsStarts_compareWanted m _) (compareWanted_changes m _) m)
    exact h2.trans (.ite (stands_review m _) (stands_checkOrReview m _))
  · exact h0.trans h1
  · next hx => exact absurd hx hst
  · exact h0

/-! ## What the budget check leaves of a machine that does not run (R65) -/

theorem apart_shedStep (h : (s.record m).state ≠ .running) (u l : Level) : Apart m s (shedStep u l s) := by
  unfold shedStep
  generalize s.fba.startList.reverse = ms
  induction ms generalizing s with
  | nil => exact .refl m s
  | cons n ms ih =>
    have h1 : Apart m s (if s.fba.beff < s.fba.committed && s.sheddable n u l then shedOne n l s else s) := by
      split
      · next hshed =>
        have hn : n ≠ m := fun he => by
          subst he
          simp only [State.sheddable, Bool.and_eq_true, beq_iff_eq] at hshed
          exact h hshed.2.1.1.1
        exact (apart_changeGrant hn _ _ s).trans (apart_ensureRaise hn _ _ _)
      · exact .refl m s
    exact h1.trans (ih (by rw [h1.record]; exact h))

theorem apart_checkOrReview (h : (s.record m).state ≠ .running) (hr : s.fba.hasRaise m = false) (hs : s.fba.hasStart m = false) :
    Apart m s (checkOrReview s) := by
  refine .ite ?_ (apart_review s hr hs)
  have h1 := apart_shedStep h .high .low
  have h2 := h1.trans (apart_shedStep (by rw [h1.record]; exact h) .low .air)
  have h3 := h2.trans (apart_shedStep (by rw [h2.record]; exact h) .heat .base)
  unfold budgetCheck
  dsimp only
  generalize shedStep .heat .base (shedStep .low .air (shedStep .high .low s)) = u at *
  have hset := setEventIf_changes (!u.fba.overBudget) .overBudget (u.withFba { u.fba with overBudget := true })
  exact .ite (h3.trans (apart_review u (by rw [h3.raise]; exact hr) (by rw [h3.start]; exact hs)))
    (h3.trans ⟨hset.record m, hset.grant m, by rw [hset.at .fba]; rfl, by rw [hset.at .fba]; rfl⟩)

/-- A machine's record stands, and no admission-queue entry of it does. -/
structure Unqueued (m : Addr) (s t : State) : Prop where
  record : t.record m = s.record m
  raise  : t.fba.hasRaise m = false
  start  : t.fba.hasStart m = false

theorem unqueued_rebuildIfHeld (h : (s.record m).state ≠ .running) (hr : s.fba.hasRaise m = false)
    (hs : s.fba.hasStart m = false) (a : Level) (f : Bool) : Unqueued m s (rebuildIfHeld m a f s) := by
  unfold rebuildIfHeld
  split
  · next g _ _ =>
    unfold rebuildGrant
    dsimp only
    rw [if_neg h]
    have h1 := apart_checkOrReview (s := mapGrant m (fun e => e.rebuilt g a f) s) h hr hs
    exact ⟨h1.record, h1.raise.trans hr, h1.start.trans hs⟩
  · exact ⟨rfl, hr, hs⟩

theorem unqueued_feederReport {r : NodeReport} (h : (s.record m).state ≠ .running) (hst : (s.record m).state ≠ .starting)
    (hr : s.fba.hasRaise m = false) (hs : s.fba.hasStart m = false) : Unqueued m s (feederReport m r s) := by
  have h0 : Unqueued m s (mapGrant m (·.reported r) s) := ⟨rfl, hr, hs⟩
  unfold feederReport
  dsimp only
  generalize mapGrant m (·.reported r) s = u at *
  split
  · exact h0
  · rw [h0.record]
    split
    · next hx => exact absurd hx h
    · have h1 := unqueued_rebuildIfHeld (m := m) (s := u) (by rw [h0.record]; exact h) h0.raise h0.start r.actual r.actualFill
      exact ⟨h1.record.trans h0.record, h1.raise, h1.start⟩
    · next hx => exact absurd hx hst
    · exact h0

/-! ## An abort that MSV gives itself (R20, R146) -/

/-- R146: the current fault of an abort that MSV gives itself. -/
def selfFault (s : State) (cause : FaultCause) (x : MState) (z : Session) (r : Nat) : CurrentFault :=
  { kind := none, cause := cause, severity := .stop, escalated := false, stamp := s.stamp, state := x
    payer := some z.payer, refund := some r, secondary := none }

/-- R146, R139: the record of an abort that MSV gives itself. -/
def selfBody (m : Addr) (cause : FaultCause) (z : Session) (r : Nat) : RecordBody :=
  { kind := .fault, machine := addrNumber m, serial := some z.payer, amount := some r, detail := cause.detail }

/-- R20, R146: what an abort that MSV gives itself leaves of a machine whose node is heard. -/
structure SelfAborted (m : Addr) (z : Session) (r : Nat) (x : MState) (cause : FaultCause) (s t : State) : Prop where
  record  : t.record m = { s.record m with
    state := if x = .running then .aborting else .faulted, session := none, silenceTimer := 0
    unloadTimer := if x = .running then (s.record m).unloadTimer else 0
    stopDest := if x = .running then some .faulted else (s.record m).stopDest
    retained := if (s.record m).state = .recovering then none else (s.record m).retained }
  gone    : SessionGone s t m z.payer r
  grant   : t.grant m = s.grant m
  node    : t.node m = s.node m
  command : (s.node m).known = true → Commanded t m x.orderCommand
  faults  : t.faults m = { s.faults m with current := some (selfFault s cause x z r), openMark := true }
  took    : TookFree (s.refunded m z.payer r) t (selfBody m cause z r)
  event   : t.evu.isSet .fault = true
  changes : ChangesOnly sessionParts s t

theorem selfAborted_selfAbort {z : Session} {x : MState} (hz : (s.record m).session = some z) (hx : (s.record m).standsIn x)
    (hxs : x = .armed ∨ x = .starting ∨ x = .running) (hheard : (s.record m).silent = false) (cause : FaultCause) :
    SelfAborted m z (z.refund x s.sst.working.limits.grace) x cause s (selfAbort m cause s) := by
  obtain ⟨h, hf⟩ := ordered_primary hz hx hxs (sev := .stop) (by simp) cause true
  have hrep := abortReport_of (s := s.setFaults m { s.faults m with current := some (newCurrent m none cause .stop false s) })
    hz hx hxs (sev := .stop) (by simp) true
  unfold selfAbort
  dsimp only
  rw [hrep]
  simp only [if_true] at h hf ⊢
  simp only [State.setFaults_sst] at h hf ⊢
  generalize z.refund x s.sst.working.limits.grace = r at *
  generalize orderAbort m .stop true (s.setFaults m { s.faults m with current := some (newCurrent m none cause .stop false s) }) = u at *
  have hleft : Severity.stop.leaves x (s.record m).silent = if x = .running then .aborting else .faulted := by
    rw [stop_leaves, hheard]
    rfl
  have hstate : (u.record m).state = if x = .running then .aborting else .faulted := by rw [h.record, hleft]
  have hopens : (u.record m).opensMark = true := by
    unfold MachineRecord.opensMark
    rw [hstate]
    split <;> rfl
  rw [if_pos hopens]
  have ho := setFaults_changes m { u.faults m with openMark := true } u
  have hof := setOpenMark_faults m true u
  have hv := h.after (u := setOpenMark m true u) ho
  rw [hf] at hof
  generalize setOpenMark m true u = v at *
  have hw := writeFree_changes (selfBody m cause z r) v
  have ht := setEvent_changes .fault (writeFree (selfBody m cause z r) v)
  have hvt : ChangesOnly [.jrn, .evu] v (setEvent .fault (writeFree (selfBody m cause z r) v)) := hw.seq ht
  have htook := hv.took (t := setEvent .fault (writeFree (selfBody m cause z r) v)) (b := selfBody m cause z r) rfl
  have hev : (setEvent .fault (writeFree (selfBody m cause z r) v)).evu.isSet .fault = true := by rw [setEvent_isSet]; rfl
  change SelfAborted m z r x cause s (setEvent .fault (writeFree (selfBody m cause z r) v))
  generalize setEvent .fault (writeFree (selfBody m cause z r) v) = t at *
  exact
    { record := by
        rw [hvt.record m, hv.record, hleft]
        rfl
      gone := hv.gone.of_changes hvt
      grant := (hvt.grant m).trans hv.grant
      node := (hvt.node m).trans hv.node
      command := fun hn => (hv.command hn).of_sameBus (hvt.sameBus m)
      faults := by
        rw [hvt.faults m, hof]
        rfl
      took := htook
      event := hev
      changes := hv.changes.seq hvt }

/-! ## Reports in ABORTING and of another kind (R4, R21) -/

theorem waiting_reported {answers : Bool} {y t : State} (h : Reported m answers y t) {c : BusCommand} (hc : Commanded y m c) :
    Commanded t m c := by
  unfold Commanded at hc ⊢
  rw [h.waits]
  exact hc

theorem commanded_feederReport {r : NodeReport} {c : BusCommand} (hc : Commanded s m c) : Commanded (feederReport m r s) m c := by
  unfold Commanded at hc ⊢
  rw [(allots_feederReport m m r s).control]
  exact hc

/-- R21: the node has stopped. -/
structure Halted (m : Addr) (s t : State) : Prop where
  state   : (t.record m).state = (if (s.record m).stopDest = some .outOfService then .outOfService else .faulted)
  dest    : (t.record m).stopDest = none
  granted : (t.grant m).granted = none
  freed   : (s.grant m).granted ≠ none → (t.grant m).draw = 0 ∧ (t.grant m).fill = false ∧ m ∉ t.fba.startList
  raise   : t.fba.hasRaise m = false
  start   : t.fba.hasStart m = false
  node    : t.node m = s.node m
  changes : ChangesOnly [.msv, .mbc, .fba, .flm] s t

theorem abortingStopped_eq (m : Addr) (s : State) : abortingStopped m s =
    enterState m (if (s.record m).stopDest = some .outOfService then .outOfService else .faulted)
      (mapRecord m (fun x => { x with stopDest := none }) (releaseGrant m s)) := by
  unfold abortingStopped
  cases (s.record m).stopDest with
  | none => rfl
  | some d => cases d <;> rfl

theorem halted_abortingStopped (hheard : (s.record m).silent = false) : Halted m s (abortingStopped m s) := by
  have hrel := released_releaseGrant m s
  rw [abortingStopped_eq]
  generalize releaseGrant m s = u at *
  have hv := mapRecord_changes m (fun x => { x with stopDest := none }) u
  have hvr : (mapRecord m (fun x => { x with stopDest := none }) u).record m = { s.record m with stopDest := none } := by
    simp [mapRecord, hrel.record]
  generalize mapRecord m (fun x => { x with stopDest := none }) u = v at *
  generalize hd : (if (s.record m).stopDest = some .outOfService then MState.outOfService else .faulted) = d
  have hland : (v.record m).landing d = d := by
    unfold MachineRecord.landing
    rw [hvr, ← hd]
    split <;> simp [hheard]
  have he := enterState_changes m d v
  have hrec := enterState_record m d v
  rw [hland, hvr] at hrec
  have huv : ChangesOnly [.msv, .flm] u (enterState m d v) := hv.seq he
  generalize enterState m d v = t at *
  have hfba : t.fba = u.fba := huv.at .fba
  exact
    { state := by rw [hrec]; exact hd.symm
      dest := by rw [hrec]
      granted := by rw [huv.grant m]; exact hrel.granted
      freed := fun h => by rw [huv.grant m, hfba]; exact hrel.freed h
      raise := by rw [hfba]; exact hrel.raise
      start := by rw [hfba]; exact hrel.start
      node := (huv.node m).trans hrel.node
      changes := hrel.changes.seq huv }

theorem rebuildIfHeld_setsAmong (m : Addr) (a : Level) (f : Bool) (s : State) :
    SetsAmong [.overBudget] s (rebuildIfHeld m a f s) := by
  unfold rebuildIfHeld
  split
  · next g _ _ =>
    unfold rebuildGrant
    dsimp only
    have h1 : SetsAmong [.overBudget] s (mapGrant m (fun e => e.rebuilt g a f) s) := (mapGrant_changes m _ s).setsAmong
    generalize mapGrant m (fun e => e.rebuilt g a f) s = u at *
    exact (SetsAmong.ite (h1.trans (queueGrant_changes m _ _ u).setsAmong) h1).trans (checkOrReview_setsAmong _)
  · exact .refl s

/-- R67: FBA's part of a report sets no event but OVER_BUDGET. -/
theorem feederReport_setsAmong (m : Addr) (r : NodeReport) (s : State) : SetsAmong [.overBudget] s (feederReport m r s) := by
  have h0 : SetsAmong [.overBudget] s (mapGrant m (·.reported r) s) := (mapGrant_changes m _ s).setsAmong
  unfold feederReport
  dsimp only
  generalize mapGrant m (·.reported r) s = u at *
  have h1 := h0.trans (rebuildIfHeld_setsAmong m r.actual r.actualFill u)
  refine .ite h0 ?_
  split
  · have h2 := h1.trans (compareWanted_changes m _).setsAmong
    exact h2.trans (.ite (review_changes _).setsAmong (checkOrReview_setsAmong _))
  · exact h1
  · exact .ite ((h0.trans (addStart_changes m _ _ u).setsAmong).trans (review_changes _).setsAmong) h0
  · exact h0

theorem kindDiffers_of_aborting {x : MachineRecord} (h : x.state = .aborting) (k : Kind) : x.kindDiffers k = false := by
  unfold MachineRecord.kindDiffers MachineRecord.effective
  rw [h]

theorem rebuildIfHeld_nothing (h : (s.grant m).granted = none) (a : Level) (f : Bool) : rebuildIfHeld m a f s = s := by
  unfold rebuildIfHeld
  split
  · next hg => exact absurd (h.symm.trans hg) (by simp)
  · rfl

/-- R55: FBA's part of a report in ABORTING. -/
theorem feederReport_aborting (hx : (s.record m).state = .aborting) (r : NodeReport) : feederReport m r s =
    if (s.grant m).granted.any (fun g => g.kind != r.kind) then mapGrant m (·.reported r) s
    else rebuildIfHeld m r.actual r.actualFill (mapGrant m (·.reported r) s) := by
  have hrec : (mapGrant m (·.reported r) s).record m = s.record m := (mapGrant_changes m _ s).record m
  unfold feederReport
  dsimp only
  rw [mapGrant_self, (sameGrant_reported _ r).granted, hrec, hx]

theorem feederReport_nothing {r : NodeReport} (hx : (s.record m).state = .aborting) (hg : (s.grant m).granted = none) :
    feederReport m r s = mapGrant m (·.reported r) s := by
  rw [feederReport_aborting hx, rebuildIfHeld_nothing (by rw [mapGrant_self, (sameGrant_reported _ r).granted]; exact hg), ite_self]

/-- R21, R55: in ABORTING a grant is rebuilt, but none comes or goes. -/
theorem feederReport_isSome (hx : (s.record m).state = .aborting) (r : NodeReport) :
    ((feederReport m r s).grant m).granted.isSome = (s.grant m).granted.isSome := by
  cases hg : (s.grant m).granted with
  | none => rw [feederReport_nothing hx hg, mapGrant_self, (sameGrant_reported _ r).granted, hg]
  | some g => exact (allots_feederReport m m r s).granted (by rw [hg]; rfl)

theorem applyNodeState_aborting (hx : (s.record m).state = .aborting) (r : NodeReport) :
    (r.state = .nStopped ∨ r.state = .nEnd ∨ r.state = .nIdle → applyNodeState m r s = abortingStopped m s) ∧
    (¬(r.state = .nStopped ∨ r.state = .nEnd ∨ r.state = .nIdle) → r.state ≠ .nFault →
      applyNodeState m r s = queueControl m (.stop true) s) := by
  unfold applyNodeState
  rw [hx]
  unfold abortingReport
  cases r.state <;> simp

/-- R4: a kind of a paid session that the report's differs from. -/
theorem kindDiffers_of_ne {x : MachineRecord} {y : MState} {k j : Kind} (hx : x.standsIn y)
    (hy : y = .armed ∨ y = .starting ∨ y = .running) (hk : x.kind = some k) (hne : k ≠ j) : x.kindDiffers j = true := by
  unfold MachineRecord.kindDiffers
  rw [effective_of_standsIn hx (standsIn_ne_recovering hy), hk]
  rcases hy with rfl | rfl | rfl <;> simpa using hne

/-- R4: in those states a kind that is held is not stored anew. -/
theorem keptKind {x : MachineRecord} {y : MState} {k : Kind} (hx : x.standsIn y)
    (hy : y = .armed ∨ y = .starting ∨ y = .running) (hk : x.kind = some k) (j : Kind) :
    (if x.storesKind then some j else x.kind) = some k := by
  unfold MachineRecord.storesKind
  rw [hk]
  rcases hx with hx | ⟨hx, _⟩
  · rw [hx]
    rcases hy with rfl | rfl | rfl <;> rfl
  · rw [hx]
    rfl

theorem TookFree.same {u y t : State} {b : RecordBody} (h : TookFree u y b) (hs : SameBooks s u) (ht : t.jrn = y.jrn) :
    TookFree s t b := by
  unfold TookFree at h ⊢
  rw [ht, ← hs.jrn, ← hs.stamp]
  exact h

theorem Arrived.sameBooks {r : NodeReport} {w : State} (h : Arrived m r s w) : SameBooks s w := h.changes.sameBooks

theorem endRecovery_sameBus (m : Addr) (s : State) : SameBus m s (endRecovery m s) := (endRecovery_changes m s).sameBus m

/-- R21: a report that the node has stopped. -/
theorem report_stops {rep : SlotReport} {r : NodeReport} (hrep : ReportTaken s m rep r) (hx : (s.record m).state = .aborting)
    (hstop : r.state = .nStopped ∨ r.state = .nEnd ∨ r.state = .nIdle) :
    ∃ t, exec (.validReport m rep) s = .next t ∧
      (t.record m).state = (if (s.record m).stopDest = some .outOfService then .outOfService else .faulted) ∧
      (t.record m).stopDest = none ∧ (t.grant m).granted = none ∧
      ((s.grant m).granted ≠ none → (t.grant m).draw = 0 ∧ (t.grant m).fill = false ∧ m ∉ t.fba.startList) ∧
      t.fba.hasStart m = false ∧ t.fba.hasRaise m = false ∧ t.jrn = s.jrn ∧ t.cru = s.cru := by
  have hw := arrived_arrived hrep.2.2.2
  have hfault : r.fault = none := (reportable_of_decode hrep.2.1).fault.mpr (by rcases hstop with h | h | h <;> simp [h])
  have hexec := exec_report hrep
  rw [kindDiffers_of_aborting hx] at hexec
  generalize arrived m r s = w at *
  have hwx : (w.record m).state = .aborting := by rw [hw.record]; exact hx
  have hdest : (w.record m).stopDest = (s.record m).stopDest := by rw [hw.record]; rfl
  have hgr : (w.grant m).granted = (s.grant m).granted := by rw [hw.grant]; rfl
  have hy := halted_abortingStopped (m := m) (s := w) (by rw [hw.record]; rfl)
  have hbody : reportBody m r false w = abortingStopped m w := (applyNodeState_aborting hwx r).1 hstop
  rw [hbody] at hexec
  generalize abortingStopped m w = y at *
  have hystate : (y.record m).state ≠ .running ∧ (y.record m).state ≠ .aborting ∧ (y.record m).state ≠ .starting := by
    rw [hy.state]
    split <;> simp
  have ht := reported_reportTail (m := m) hfault (s.mbc.discovery.answeredBy m) y
  rw [feederReport_rests hystate] at ht
  have hg := mapGrant_changes m (·.reported r) y
  have hgrant := mapGrant_self (m := m) (·.reported r) y
  have hq := mapGrant_queues (m := m) (·.reported r) y
  generalize mapGrant m (·.reported r) y = u at *
  have hyt : ChangesOnly [.mbc, .fba] y _ := hg.seq ht.changes
  have hst := (hw.changes.seq hy.changes (rs := [.msv, .mbc, .fba, .flm])).seq hyt (rs := [.msv, .mbc, .fba, .flm])
  have hsame := sameGrant_reported (y.grant m) r
  refine ⟨_, hexec, ?_⟩
  generalize reportTail m r (s.mbc.discovery.answeredBy m) y = t at *
  have hfba : t.fba = u.fba := ht.changes.at .fba
  have htg : t.grant m = (y.grant m).reported r := (ht.changes.grant m).trans hgrant
  rw [hyt.record m, htg, hfba, hq, hsame.granted, hsame.draw, hsame.fill, ← hdest]
  exact ⟨hy.state, hy.dest, hy.granted, fun h => hy.freed (by rw [hgr]; exact h), hy.start, hy.raise, hst.at .jrn, hst.at .cru⟩

/-- R21: a report that the node has not stopped. -/
theorem report_stopsAgain {rep : SlotReport} {r : NodeReport} (hrep : ReportTaken s m rep r) (hx : (s.record m).state = .aborting)
    (hs : s.fba.hasStart m = false) (hno : ¬(r.state = .nStopped ∨ r.state = .nEnd ∨ r.state = .nIdle)) (hf : r.state ≠ .nFault) :
    ∃ t, exec (.validReport m rep) s = .next t ∧
      (t.record m).state = .aborting ∧ (t.record m).stopDest = (s.record m).stopDest ∧ Commanded t m (.stop true) ∧
      (t.grant m).granted.isSome = (s.grant m).granted.isSome ∧ t.jrn = s.jrn ∧ t.cru = s.cru := by
  have hw := arrived_arrived hrep.2.2.2
  have hfault : r.fault = none := (reportable_of_decode hrep.2.1).fault.mpr hf
  have hexec := exec_report hrep
  rw [kindDiffers_of_aborting hx] at hexec
  generalize arrived m r s = w at *
  have hwx : (w.record m).state = .aborting := by rw [hw.record]; exact hx
  have hbody : reportBody m r false w = queueControl m (.stop true) w := (applyNodeState_aborting hwx r).2 hno hf
  rw [hbody] at hexec
  have hq := queueControl_changes m (.stop true) w
  have hcmd := commanded_queueControl (m := m) (c := .stop true) (s := w) rfl (by rw [hw.node]; rfl)
  generalize queueControl m (.stop true) w = y at *
  have hyrec : y.record m = (s.record m).reporting r (s.armEchoed m r.ctlTag) := (hq.record m).trans hw.record
  have hyx : (y.record m).state = .aborting := by rw [hyrec]; exact hx
  have hystart : y.fba.hasStart m = false := by rw [hq.at .fba, hw.fba]; exact hs
  have ht := reported_reportTail (m := m) hfault (s.mbc.discovery.answeredBy m) y
  have hstands := stands_feederReport (r := r) (by rw [hyx]; simp) hystart
  have hsome := feederReport_isSome hyx r
  have hc2 := commanded_feederReport (r := r) hcmd
  have hf2 := feederReport_changes m r y
  generalize feederReport m r y = u at *
  have hst := ((hw.changes.seq hq (rs := [.msv, .mbc, .fba, .evu])).seq hf2 (rs := [.msv, .mbc, .fba, .evu])).seq ht.changes
    (rs := [.msv, .mbc, .fba, .evu])
  refine ⟨_, hexec, ?_⟩
  generalize reportTail m r (s.mbc.discovery.answeredBy m) y = t at *
  have hrec : t.record m = (s.record m).reporting r (s.armEchoed m r.ctlTag) := by
    rw [ht.changes.record m, hstands.1, hyrec]
  refine ⟨by rw [hrec]; exact hx, by rw [hrec]; rfl, waiting_reported ht hc2, ?_, hst.at .jrn, hst.at .cru⟩
  rw [ht.changes.grant m, hsome, hq.grant m, hw.grant]
  rfl

/-- R4, R146: a report of another kind than the paid session's. -/
theorem report_kindChanged {rep : SlotReport} {r : NodeReport} {z : Session} {k : Kind} {x : MState}
    (hrep : ReportTaken s m rep r) (hf : r.state ≠ .nFault) (hz : (s.record m).session = some z) (hx : (s.record m).standsIn x)
    (hxs : x = .armed ∨ x = .starting ∨ x = .running) (hk : (s.record m).kind = some k) (hne : k ≠ r.kind) :
    let refund := z.refund x s.sst.working.limits.grace
    ∃ t, exec (.validReport m rep) s = .next t ∧
      SessionGone s t m z.payer refund ∧ (t.record m).state = (if x = .running then .aborting else .faulted) ∧
      (x = .running → (t.record m).stopDest = some .faulted) ∧ (t.record m).kind = some k ∧
      (t.record m).retained = (if (s.record m).state = .recovering then none else (s.record m).retained) ∧
      Commanded t m x.orderCommand ∧
      t.faults m = { s.faults m with current := some (selfFault s .kindChanged x z refund), openMark := true } ∧
      TookFree (s.refunded m z.payer refund) t (selfBody m .kindChanged z refund) ∧ t.evu.isSet .fault = true := by
  intro refund
  have hw := arrived_arrived hrep.2.2.2
  have hfault : r.fault = none := (reportable_of_decode hrep.2.1).fault.mpr hf
  have hexec := exec_report hrep
  rw [kindDiffers_of_ne hx hxs hk hne] at hexec
  generalize arrived m r s = w at *
  have hwx : (w.record m).standsIn x := by rw [hw.record]; exact hx
  have hrecov := endRecovery_record hwx (standsIn_ne_recovering hxs)
  have he := endRecovery_changes m w
  have hbody : reportBody m r true w = selfAbort m .kindChanged (endRecovery m w) := rfl
  rw [hbody] at hexec
  generalize endRecovery m w = v at *
  have hsv : ChangesOnly [.msv, .mbc, .fba] s v := hw.changes.seq he
  have hwz : (v.record m).session = some (z.acked (s.armEchoed m r.ctlTag)) := by
    rw [hrecov, hw.record]
    exact reporting_session hz r _
  have hy := selfAborted_selfAbort hwz (x := x) (.inl (by rw [hrecov])) hxs (by rw [hrecov, hw.record]; rfl) .kindChanged
  have hrefund : (z.acked (s.armEchoed m r.ctlTag)).refund x v.sst.working.limits.grace = refund := by
    rw [hsv.at .sst]
    rfl
  rw [hrefund] at hy
  generalize selfAbort m .kindChanged v = y at *
  have hyrec : (y.record m).state = if x = .running then .aborting else .faulted := by rw [hy.record]
  have hyne : (y.record m).state ≠ .running ∧ (y.record m).state ≠ .starting := by
    rw [hyrec]
    split <;> simp
  have ht := reported_reportTail (m := m) hfault (s.mbc.discovery.answeredBy m) y
  have hu := unqueued_feederReport (m := m) (r := r) hyne.1 hyne.2 hy.gone.2.2.2.2 hy.gone.2.2.2.1
  have hcmd := commanded_feederReport (r := r) (hy.command (by rw [he.node m, hw.node]; rfl))
  have hfr := feederReport_changes m r y
  have hev := feederReport_setsAmong m r y
  generalize feederReport m r y = u at *
  refine ⟨_, hexec, ?_⟩
  generalize reportTail m r (s.mbc.discovery.answeredBy m) y = t at *
  have hyt : ChangesOnly [.msv, .mbc, .fba, .evu] y t := hfr.seq ht.changes
  have hbooks := booksOnly_refunded m z.payer refund s v hsv.sameBooks
  have htrec : t.record m = y.record m := (ht.changes.record m).trans hu.record
  have hfba : t.fba = u.fba := ht.changes.at .fba
  obtain ⟨hgone, htimer, hcru, -, -⟩ := hy.gone
  have hkind : (t.record m).kind = some k := by
    rw [htrec, hy.record, hrecov, hw.record]
    exact keptKind hx hxs hk r.kind
  refine ⟨⟨by rw [htrec]; exact hgone, by rw [htrec]; exact htimer, ?_, by rw [hfba]; exact hu.start, by rw [hfba]; exact hu.raise⟩,
    by rw [htrec, hyrec], fun hr => ?_, hkind, ?_, waiting_reported ht hcmd, ?_, hy.took.same hbooks (hyt.at .jrn), ?_⟩
  · rw [hyt.at .cru, hcru]
    exact hbooks.cru
  · rw [htrec, hy.record]
    exact if_pos hr
  · rw [htrec, hy.record, hrecov, hw.record]
    exact if_neg (standsIn_ne_recovering hxs)
  · rw [hyt.faults m, hy.faults, hsv.faults m]
    unfold selfFault
    rw [hsv.stamp]
    rfl
  · rw [ht.changes.at .evu, hev.flag .fault]
    exact hy.event

/-- Settles O38: the node has stopped, or goes on, or is of another kind. -/
theorem reportStopsOrAborts : Obligations.ReportStopsOrAborts := by
  refine ⟨fun slot rep r s hrep hx hs => ?_, fun slot rep r z k x s hrep hf hz hx hxs hk hne => ?_⟩
  · by_cases hstop : r.state = .nStopped ∨ r.state = .nEnd ∨ r.state = .nIdle
    · obtain ⟨t, hexec, hstate, hdest, hgranted, hfreed, hst, hra, hjrn, hcru⟩ := report_stops hrep hx hstop
      exact ⟨t, hexec, fun _ => ⟨hstate, hdest, hgranted, hfreed, hst, hra⟩, fun h => absurd hstop h, fun _ => ⟨hjrn, hcru⟩⟩
    · by_cases hf : r.state = .nFault
      · exact ⟨_, exec_report hrep, fun h => absurd h hstop, fun _ h => absurd hf h, fun h => absurd hf h⟩
      · obtain ⟨t, hexec, hstate, hdest, hcmd, hgranted, hjrn, hcru⟩ := report_stopsAgain hrep hx hs hstop hf
        exact ⟨t, hexec, fun h => absurd h hstop, fun _ _ => ⟨hstate, hdest, hcmd, hgranted⟩, fun _ => ⟨hjrn, hcru⟩⟩
  · obtain ⟨t, hexec, hall⟩ := report_kindChanged hrep hf hz hx hxs hk hne
    refine ⟨t, hexec, ?_⟩
    rw [refund_eq] at hall
    exact hall

end

end Sys2Proof.Machine
end


section
/-! PROOF. The beacon: what the entries sent in it leave of the queue and the tags (R30, R40, R41, R43, R45). -/
namespace Sys2Proof.Machine

/-! ## Places in the queue (R39) -/

theorem QueueApart.unique {q : List BusEntry} (h : QueueApart q) {e f : BusEntry} (he : e ∈ q) (hf : f ∈ q) {m : Addr}
    {c : CommandClass} (hem : e.fills m c = true) (hfm : f.fills m c = true) : e = f := by
  have h1 : e ∈ q.filter (·.fills m c) := List.mem_filter.mpr ⟨he, hem⟩
  have h2 : f ∈ q.filter (·.fills m c) := List.mem_filter.mpr ⟨hf, hfm⟩
  obtain ⟨x, hx⟩ := List.length_eq_one_iff.mp (Nat.le_antisymm (h m c) (List.length_pos_of_mem h1))
  rw [hx, List.mem_singleton] at h1 h2
  exact h1.trans h2.symm

/-- R39: two entries that fill no place alike. -/
def BusEntry.apart (e f : BusEntry) : Prop := ∀ m c, e.fills m c = true → f.fills m c = false

theorem QueueApart.pairwise {q : List BusEntry} (h : QueueApart q) : q.Pairwise BusEntry.apart := by
  induction q with
  | nil => exact .nil
  | cons e q ih =>
    refine .cons (fun f hf m c he => ?_) (ih (h.sublist (List.sublist_cons_self e q)))
    rw [Bool.eq_false_iff]
    intro hfm
    have hlen := h m c
    have hpos : 0 < (q.filter (·.fills m c)).length := List.length_pos_of_mem (List.mem_filter.mpr ⟨hf, hfm⟩)
    rw [List.filter_cons_of_pos (p := fun e : BusEntry => e.fills m c) he, List.length_cons] at hlen
    omega

theorem fills_self {e : BusEntry} {c : CommandClass} (h : e.command.cls = some c) : e.fills e.addr c = true := fills_iff.mpr ⟨rfl, h⟩

theorem cls_eq_none {c : BusCommand} : c.cls = none ↔ c = .assign := by
  cases c <;> simp [BusCommand.cls]

/-! ## One entry is sent (R41, R43, R45) -/

/-- R41, R43: an entry as it stands once it has been sent. -/
def BusEntry.sent (e : BusEntry) (n : NodeEntry) (c : CommandClass) : BusEntry :=
  { e with sends := e.sends + 1, tag := some (e.sendTag n c), sentNow := true }

theorem BusEntry.sent_fills (e : BusEntry) (n : NodeEntry) (c d : CommandClass) (m : Addr) : (e.sent n c).fills m d = e.fills m d := rfl

/-- R41: an entry's first send in a class's place of a node. -/
def BusEntry.first (e : BusEntry) (m : Addr) (c : CommandClass) : Bool := e.fills m c && e.tag.isNone

/-- R41: an address with the counters that first sends have left. -/
def NodeEntry.tagged (n : NodeEntry) (control level : Bool) : NodeEntry :=
  { n with
    ctlTag := if control then giveTag n.ctlTag n.ctlEcho else n.ctlTag
    lvlTag := if level then giveTag n.lvlTag n.lvlEcho else n.lvlTag }

theorem NodeEntry.tagged_none (n : NodeEntry) : n.tagged false false = n := rfl

theorem NodeEntry.tagged_tagged (n : NodeEntry) {a b c d : Bool} (hac : a = true → c = false) (hbd : b = true → d = false) :
    (n.tagged a b).tagged c d = n.tagged (a || c) (b || d) := by
  cases a with
  | false => cases b with
    | false => rfl
    | true => rw [hbd rfl]; rfl
  | true =>
    rw [hac rfl]
    cases b with
    | false => rfl
    | true => rw [hbd rfl]; rfl

/-- R41: the tag of an entry rests on the counter of its own class. -/
theorem sendTag_tagged {e : BusEntry} {n : NodeEntry} {c : CommandClass} {a b : Bool} (ha : c = .control → a = false)
    (hb : c = .level → b = false) : e.sendTag (n.tagged a b) c = e.sendTag n c := by
  unfold BusEntry.sendTag
  cases e.tag with
  | some t => rfl
  | none =>
    cases c with
    | control => rw [ha rfl]; rfl
    | level => rw [hb rfl]; rfl

/-- R40 to R45: what the entries sent in a beacon leave. -/
structure Sending (es : List BusEntry) (s t : State) : Prop where
  node   : ∀ m, t.node m = (s.node m).tagged (es.any (·.first m .control)) (es.any (·.first m .level))
  sent   : ∀ e ∈ es, ∀ c, e.command.cls = some c → e ∈ s.mbc.queue → e.sent (s.node e.addr) c ∈ t.mbc.queue
  stays  : ∀ x ∈ s.mbc.queue, x.command ≠ .assign → (∀ e ∈ es, e.apart x) → x ∈ t.mbc.queue
  assign : ∀ e ∈ es, e.command = .assign → (∀ x ∈ t.mbc.queue, x.command ≠ .assign) ∧ t.mbc.discovery.window = 2
  fewer  : ∀ x ∈ t.mbc.queue, x.command = .assign → x ∈ s.mbc.queue
  window : t.mbc.discovery.window = s.mbc.discovery.window ∨ t.mbc.discovery.window = 2
  rest   : t.mbc.beacons = s.mbc.beacons ∧ t.mbc.periodOpen = s.mbc.periodOpen

section
variable {s t : State} {e : BusEntry}

theorem sending_sendAssign (he : e.command.cls = none) (s : State) : Sending [e] s (sendAssign s) := by
  have hfirst : ∀ m c, [e].any (·.first m c) = false := fun m c => by simp [BusEntry.first, BusEntry.fills, he]
  refine ⟨fun m => ?_, fun f hf c hc => ?_, fun x hx hne _ => ?_, fun _ _ _ => ⟨fun x hx => ?_, rfl⟩, fun x hx _ => ?_, .inr rfl,
    rfl, rfl⟩
  · rw [hfirst, hfirst, NodeEntry.tagged_none]
    rfl
  · rw [List.mem_singleton.mp hf, he] at hc
    cases hc
  · exact List.mem_filter.mpr ⟨hx, by simpa using hne⟩
  · simpa using (List.mem_filter.mp hx).2
  · exact (List.mem_filter.mp hx).1

theorem sendCommand_queue (e : BusEntry) (c : CommandClass) (s : State) : (sendCommand e c s).mbc.queue =
    s.mbc.queue.map fun x => if x.fills e.addr c then { x with
      sends := x.sends + 1, tag := some (e.sendTag (s.node e.addr) c), sentNow := true } else x := by
  unfold sendCommand
  dsimp only
  split <;> rfl

theorem sendCommand_node (e : BusEntry) {c : CommandClass} (hc : e.command.cls = some c) (s : State) (m : Addr) :
    (sendCommand e c s).node m = (s.node m).tagged (e.first m .control) (e.first m .level) := by
  unfold sendCommand
  dsimp only
  by_cases htag : e.tag.isSome = true
  · have hnone : e.tag.isNone = false := by rw [← Option.not_isSome, htag]; rfl
    rw [if_pos htag, BusEntry.first, BusEntry.first, hnone, Bool.and_false, Bool.and_false, NodeEntry.tagged_none]
    rfl
  · have hnone : e.tag = none := by simpa using htag
    rw [if_neg htag]
    by_cases hm : e.addr = m
    · subst hm
      have hf : ∀ d, e.first e.addr d = decide (c = d) := fun d => by simp [BusEntry.first, BusEntry.fills, hc, hnone]; rfl
      rw [hf, hf]
      have hself : ∀ (f : NodeEntry → NodeEntry) (u : State), (mapNode e.addr f u).node e.addr = f (u.node e.addr) :=
        fun f u => by simp [mapNode]
      rw [hself]
      unfold BusEntry.sendTag
      rw [hnone]
      cases c <;> rfl
    · have hf : ∀ d, e.first m d = false := fun d => by simp [BusEntry.first, BusEntry.fills, hm]
      have hother : ∀ (f : NodeEntry → NodeEntry) (u : State), (mapNode e.addr f u).node m = u.node m :=
        fun f u => by simp [mapNode, hm]
      rw [hf, hf, NodeEntry.tagged_none, hother]
      rfl

theorem sending_sendCommand {c : CommandClass} (hc : e.command.cls = some c) (s : State) : Sending [e] s (sendCommand e c s) := by
  have hq := sendCommand_queue e c s
  have hwin : (sendCommand e c s).mbc.discovery = s.mbc.discovery ∧ (sendCommand e c s).mbc.beacons = s.mbc.beacons ∧
      (sendCommand e c s).mbc.periodOpen = s.mbc.periodOpen := by
    unfold sendCommand
    dsimp only
    split <;> exact ⟨rfl, rfl, rfl⟩
  refine ⟨fun m => ?_, fun f hf d hd hmem => ?_, fun x hx _ hap => ?_, fun f hf hassign => ?_, fun x hx hassign => ?_, .inl (by rw [hwin.1]),
    hwin.2⟩
  · rw [sendCommand_node e hc]
    simp
  · rw [List.mem_singleton.mp hf] at hd hmem ⊢
    cases hc.symm.trans hd
    rw [hq]
    exact List.mem_map.mpr ⟨e, hmem, if_pos (fills_self hc)⟩
  · rw [hq]
    refine List.mem_map.mpr ⟨x, hx, if_neg ?_⟩
    rw [hap e (List.mem_singleton_self e) _ _ (fills_self hc)]
    simp
  · rw [List.mem_singleton.mp hf, ← cls_eq_none, hc] at hassign
    cases hassign
  · rw [hq] at hx
    obtain ⟨y, hy, rfl⟩ := List.mem_map.mp hx
    by_cases hf : y.fills e.addr c = true
    · rw [if_pos hf] at hassign
      have hcls := (fills_iff.mp hf).2
      rw [cls_eq_none.mpr hassign] at hcls
      cases hcls
    · rw [if_neg hf]
      exact hy

theorem sending_sendEntry (e : BusEntry) (s : State) : Sending [e] s (sendEntry s e) := by
  unfold sendEntry
  split
  · next h => exact sending_sendAssign h s
  · next h => exact sending_sendCommand h s

end

/-! ## The beacon (R30, R40) -/

theorem apart_first {e f : BusEntry} (h : e.apart f) {m : Addr} {c : CommandClass} (he : e.first m c = true) :
    f.first m c = false := by
  unfold BusEntry.first at he ⊢
  rw [h m c (Bool.and_eq_true _ _ ▸ he).1, Bool.false_and]

theorem sending_foldl (es : List BusEntry) (s : State) (h : es.Pairwise BusEntry.apart) : Sending es s (es.foldl sendEntry s) := by
  induction es generalizing s with
  | nil =>
    exact ⟨fun _ => rfl, fun _ he => absurd he (by simp), fun _ hx _ _ => hx, fun _ he => absurd he (by simp), fun _ hx _ => hx, .inl rfl,
      rfl, rfl⟩
  | cons e es ih =>
    obtain ⟨hap, hrest⟩ := List.pairwise_cons.mp h
    have h1 := sending_sendEntry e s
    have h2 := ih (sendEntry s e) hrest
    rw [List.foldl_cons]
    generalize sendEntry s e = u at *
    generalize es.foldl sendEntry u = t at *
    have hfirst : ∀ m c, e.first m c = true → es.any (·.first m c) = false := fun m c he =>
      List.any_eq_false.mpr fun f hf => by rw [apart_first (hap f hf) he]; simp
    have hu : ∀ m, u.node m = (s.node m).tagged (e.first m .control) (e.first m .level) := fun m => by
      simpa using h1.node m
    have hsym : ∀ f ∈ es, f.apart e := fun f hf m c hfm => by
      rw [Bool.eq_false_iff]
      intro hem
      rw [hap f hf m c hem] at hfm
      cases hfm
    refine ⟨fun m => ?_, fun f hf c hc hmem => ?_, fun x hx hne hx' => ?_, fun f hf ha => ?_, fun x hx ha => ?_, ?_, ?_⟩
    · rw [h2.node, hu, NodeEntry.tagged_tagged _ (hfirst m _) (hfirst m _)]
      simp [List.any_cons]
    · have hcmd : f.command ≠ .assign := fun ha => by rw [← cls_eq_none, hc] at ha; cases ha
      rcases List.mem_cons.mp hf with rfl | hf
      · exact h2.stays _ (h1.sent f (List.mem_singleton_self f) c hc hmem) hcmd fun x hx m d => by
          rw [BusEntry.sent_fills]; exact hsym x hx m d
      · have hin := h1.stays f hmem hcmd fun x hx => by rw [List.mem_singleton.mp hx]; exact hap f hf
        have := h2.sent f hf c hc hin
        have hno : e.first f.addr c = false := by
          rw [Bool.eq_false_iff]
          intro he
          have := hap f hf _ _ (Bool.and_eq_true _ _ ▸ he).1
          rw [fills_self hc] at this
          cases this
        unfold BusEntry.sent at this ⊢
        rw [hu, sendTag_tagged (fun h => by rw [← h, hno]) (fun h => by rw [← h, hno])] at this
        exact this
    · exact h2.stays x (h1.stays x hx hne fun f hf => by rw [List.mem_singleton.mp hf]; exact hx' e (by simp)) hne
        fun f hf => hx' f (List.mem_cons_of_mem e hf)
    · rcases List.mem_cons.mp hf with rfl | hf
      · obtain ⟨hnone, hwin⟩ := h1.assign f (List.mem_singleton_self f) ha
        refine ⟨fun x hx hxa => hnone x (h2.fewer x hx hxa) hxa, ?_⟩
        rcases h2.window with hw | hw
        · rw [hw, hwin]
        · exact hw
      · exact h2.assign f hf ha
    · exact h1.fewer x (h2.fewer x hx ha) ha
    · rcases h2.window with hw | hw
      · rw [hw]; exact h1.window
      · exact .inr hw
    · exact ⟨h2.rest.1.trans h1.rest.1, h2.rest.2.trans h1.rest.2⟩

/-- R40: the entry may go into the beacon, in the obligation's words. -/
theorem eligible_eq (b : Mbc) (e : BusEntry) : e.eligible b = match e.command with
    | .assign => b.discovery.window == 0
    | _ => (b.nodes.at e.addr).heard && !(b.nodes.at e.addr).silentMark && decide (e.sends < 3) := by
  unfold BusEntry.eligible
  cases e.command <;> rfl

/-- R41: the tag of a first send. -/
theorem sendTag_first {e : BusEntry} (h : e.tag = none) (n : NodeEntry) (c : CommandClass) : e.sendTag n c =
    if c = .level then giveTag n.lvlTag n.lvlEcho else giveTag n.ctlTag n.ctlEcho := by
  unfold BusEntry.sendTag
  rw [h]
  cases c <;> rfl

theorem sendTag_later {e : BusEntry} {t : Nat} (h : e.tag = some t) (n : NodeEntry) (c : CommandClass) : e.sendTag n c = t := by
  unfold BusEntry.sendTag
  rw [h]

/-- R41: the tag that a beacon carries of a control or level entry. -/
theorem carried_tag {e : BusEntry} {c : CommandClass} (hc : e.command.cls = some c) (b : Mbc) :
    (e.carried b).2.2 = e.sendTag (b.nodes.at e.addr) c := by
  unfold BusEntry.carried
  rw [hc]

/-- Settles O32: the entries chosen are sent one after the other, each in a place of its own. -/
theorem beaconSends : Obligations.BeaconSends := by
  intro s hrun hdone hplaces
  refine ⟨sendBeacon s, congrArg Host.Outcome.next (afterSlot_of_done hrun hdone), ?_⟩
  intro chosen next given
  have hchosen : chosen = s.mbc.chosen := by
    unfold Mbc.chosen
    simp only [eligible_eq]
    rfl
  rw [hchosen]
  have hsub : s.mbc.chosen.Sublist s.mbc.queue := (List.take_sublist _ _).trans List.filter_sublist
  have hsend := sending_foldl s.mbc.chosen (s.withMbc { s.mbc with beacons := wrapInc 65535 s.mbc.beacons, periodOpen := true })
    (QueueApart.pairwise hplaces |>.sublist hsub)
  have hcls : ∀ c : BusCommand, c ≠ .assign → ∃ d, c.cls = some d := fun c hc =>
    Option.ne_none_iff_exists'.mp fun h => hc (cls_eq_none.mp h)
  have hsent : ∀ e ∈ s.mbc.chosen, ∀ c, e.command.cls = some c → e.sent (s.node e.addr) c ∈ (sendBeacon s).mbc.queue :=
    fun e he c hc => hsend.sent e he c hc (hsub.mem he)
  refine ⟨hsend.rest.1, hsend.rest.2, ⟨⟨wrapInc 65535 s.mbc.beacons, s.mbc.chosen.map (·.carried s.mbc)⟩, ?_, hsend.rest.1.symm, ?_,
    fun x hx hne => ?_⟩, fun e he hne => ?_, hsend.node,
    fun e he ha => hsend.assign e he ha, fun e he hne hno => ?_, sendBeacon_changes s⟩
  · have hfold := ChangesOnly.foldl sendEntry_changes s.mbc.chosen
      (s.withMbc { s.mbc with beacons := wrapInc 65535 s.mbc.beacons, periodOpen := true })
    show ({ (s.mbc.chosen.foldl sendEntry _).out with beacon := _ } : Outputs) = _
    rw [hfold.at .out]
    rfl
  · rw [List.map_map]
    rfl
  · obtain ⟨e, he, rfl⟩ := List.mem_map.mp hx
    obtain ⟨c, hc⟩ := hcls _ hne
    refine ⟨_, hsent e he c hc, rfl, rfl, ?_⟩
    rw [carried_tag hc]
    rfl
  · obtain ⟨c, hc⟩ := hcls _ hne
    refine ⟨_, hsent e he c hc, rfl, rfl, rfl, rfl, rfl, fun ht => ?_, fun ht => ?_⟩
    · obtain ⟨t, ht⟩ := Option.ne_none_iff_exists'.mp ht
      show some _ = _
      rw [sendTag_later ht, ht]
    · show some _ = _
      rw [sendTag_first ht, hc]
      cases c <;> rfl
  · refine hsend.stays e he hne fun f hf m c hfm => ?_
    rw [Bool.eq_false_iff]
    intro hem
    exact hno (QueueApart.unique hplaces he (hsub.mem hf) hem hfm ▸ hf)

end Sys2Proof.Machine
end


section
/-! PROOF. What a valid report acknowledges (R42, R9, R71). -/
namespace Sys2Proof.Machine

section
variable {m : Addr} {s : State} {e : BusEntry} {c : CommandClass} {tag : Nat}

theorem waiting_of_mem (h : s.QueuePlaces) (he : e ∈ s.mbc.queue) (hf : e.fills m c = true) : s.mbc.waiting m c = some e := by
  cases hw : s.mbc.waiting m c with
  | none => exact absurd hf (List.find?_eq_none.mp hw e he)
  | some f => rw [QueueApart.unique h (List.mem_of_find?_eq_some hw) he (waiting_fills hw) hf]

/-- R42: the report echoes the tag of an entry that was sent. -/
def BusEntry.echoes (e : BusEntry) (m : Addr) (c : CommandClass) (tag : Nat) : Prop :=
  e.fills m c = true ∧ 0 < e.sends ∧ e.tag = some tag

theorem echoed_of_mem (h : s.QueuePlaces) (he : e ∈ s.mbc.queue) (hf : e.fills m c = true) :
    s.echoed m c tag = true ↔ e.echoes m c tag := by
  unfold State.echoed BusEntry.echoes
  rw [waiting_of_mem h he hf]
  simp [hf]

theorem echoed_iff (h : s.QueuePlaces) : s.echoed m c tag = true ↔ ∃ e ∈ s.mbc.queue, e.echoes m c tag := by
  constructor
  · intro hb
    obtain ⟨e, hw, _⟩ := (Option.any_eq_true _ _).mp hb
    have he := List.mem_of_find?_eq_some hw
    exact ⟨e, he, (echoed_of_mem h he (waiting_fills hw)).mp hb⟩
  · rintro ⟨e, he, hech⟩
    exact (echoed_of_mem h he hech.1).mpr hech

theorem unechoed_subset (b : Bool) (m : Addr) (c : CommandClass) (q : List BusEntry) : unechoed b m c q ⊆ q :=
  List.filter_subset_self q

theorem mem_unechoed (h : s.QueuePlaces) {q : List BusEntry} (hq : q ⊆ s.mbc.queue) :
    e ∈ unechoed (s.echoed m c tag) m c q ↔ e ∈ q ∧ ¬e.echoes m c tag := by
  unfold unechoed
  rw [List.mem_filter]
  refine and_congr_right fun he => ?_
  by_cases hf : e.fills m c = true
  · have := echoed_of_mem (tag := tag) h (hq he) hf
    cases hb : s.echoed m c tag <;> simp_all
  · simp [hf, BusEntry.echoes]

theorem isArm_iff {b : BusCommand} : b.isArm = true ↔ ∃ p o, b = .arm p o := by
  cases b <;> simp [BusCommand.isArm]

theorem armEchoed_iff (h : s.QueuePlaces) :
    s.armEchoed m tag = true ↔ ∃ e ∈ s.mbc.queue, e.echoes m .control tag ∧ ∃ p o, e.command = .arm p o := by
  constructor
  · intro hb
    obtain ⟨e, hw, hcond⟩ := (Option.any_eq_true _ _).mp hb
    simp only [Bool.and_eq_true, decide_eq_true_eq, beq_iff_eq] at hcond
    exact ⟨e, List.mem_of_find?_eq_some hw, ⟨waiting_fills hw, hcond.1.1, hcond.1.2⟩, isArm_iff.mp hcond.2⟩
  · rintro ⟨e, he, ⟨hf, hsends, htag⟩, harm⟩
    unfold State.armEchoed
    rw [waiting_of_mem h he hf]
    simp [hsends, htag, isArm_iff.mpr harm]

theorem grant_cls {b : BusCommand} : b.cls = some .level ↔ ∃ l f, b = .grant l f := by
  cases b <;> simp [BusCommand.cls]

/-- R42: the commands that a report acknowledges. -/
theorem taken_iff {r : NodeReport} : (e.addr = m ∧ 0 < e.sends ∧
      ((e.command.cls = some .control ∧ e.tag = some r.ctlTag) ∨ (e.command.cls = some .level ∧ e.tag = some r.lvlTag))) ↔
    e.echoes m .control r.ctlTag ∨ e.echoes m .level r.lvlTag := by
  unfold BusEntry.echoes
  rw [fills_iff, fills_iff]
  tauto

theorem answeredBy_of_inactive {d : Discovery} (h : d.active = false) (m : Addr) : d.answeredBy m = false := by
  unfold Discovery.answeredBy
  rw [h]
  rfl

/-- R55: what a report leaves of a machine whose grant FBA only notes. -/
structure Noted (m : Addr) (r : NodeReport) (y t : State) : Prop where
  grant   : t.grant m = (y.grant m).reported r
  grants  : ∀ k, k ≠ m → t.grant k = y.grant k
  node    : t.node m = { y.node m with lastFault := none }
  nodes   : ∀ k, k ≠ m → t.node k = y.node k
  queue   : t.mbc.queue = y.mbc.queue
  changes : ChangesOnly [.mbc, .fba] y t

theorem noted_reportTail {r : NodeReport} {y : State} (hf : r.fault = none)
    (h : (y.record m).state ≠ .running ∧ (y.record m).state ≠ .aborting ∧ (y.record m).state ≠ .starting) :
    Noted m r y (reportTail m r false y) := by
  have ht := reported_reportTail (m := m) hf false y
  rw [feederReport_rests h] at ht
  have hg := mapGrant_changes m (·.reported r) y
  have hself := mapGrant_self (m := m) (·.reported r) y
  have hother : ∀ k, k ≠ m → (mapGrant m (·.reported r) y).grant k = y.grant k := fun k hk => by simp [mapGrant, Ne.symm hk]
  generalize mapGrant m (·.reported r) y = u at *
  generalize reportTail m r false y = t at *
  exact
    { grant := (ht.changes.grant m).trans hself
      grants := fun k hk => (ht.changes.grant k).trans (hother k hk)
      node := by rw [ht.node, hg.node m]
      nodes := fun k hk => (ht.nodes k hk).trans (hg.node k)
      queue := by rw [ht.queue rfl, hg.at .mbc]
      changes := hg.seq ht.changes }

theorem applyNodeState_armed {r : NodeReport} (hx : (s.record m).state = .armed) (hr : r.state = .nArmed) :
    applyNodeState m r s = s := by
  unfold applyNodeState
  rw [hx]
  unfold armedReport
  rw [hr]

end

/-- Settles O35: the commands leave the queue by the echoes of their own classes, and N_ARMED in ARMED does no more. -/
theorem reportAcknowledges : Obligations.ReportAcknowledges := by
  intro slot rep r z s hrep hplaces hactive hstate hx hz hkind
  have hw := arrived_arrived hrep.2.2.2
  have hfault : r.fault = none := (reportable_of_decode hrep.2.1).fault.mpr (by rw [hstate]; simp)
  have hexec := exec_report hrep
  rw [kindDiffers_of_same hkind, answeredBy_of_inactive hactive] at hexec
  generalize arrived slot r s = w at *
  have hwx : (w.record slot).state = .armed := by rw [hw.record]; exact hx
  have hbody : reportBody slot r false w = w := applyNodeState_armed hwx hstate
  rw [hbody] at hexec
  have ht := noted_reportTail (m := slot) (r := r) (y := w) hfault (by rw [hwx]; simp)
  refine ⟨_, hexec, ?_⟩
  generalize reportTail slot r false w = t at *
  have hrec : t.record slot = { (s.record slot).withReport r with session := some (z.acked (s.armEchoed slot r.ctlTag)) } := by
    rw [ht.changes.record slot, hw.record, MachineRecord.reporting, storedKind hkind, ← hkind, hz]
    rfl
  have hpend : (t.grant slot).pending = ((s.grant slot).pending && !s.echoed slot .level r.lvlTag) := by
    rw [ht.grant, (sameGrant_reported _ r).pending, hw.grant]
    rfl
  have hnode : t.node slot = { (s.node slot).reporting r with lastFault := none } := by rw [ht.node, hw.node]
  have hqueue : ∀ e, e ∈ t.mbc.queue ↔ e ∈ s.mbc.queue ∧ ¬(e.echoes slot .control r.ctlTag ∨ e.echoes slot .level r.lvlTag) := by
    intro e
    rw [ht.queue, hw.queue, mem_unechoed hplaces (unechoed_subset _ _ _ _), mem_unechoed hplaces (List.Subset.refl _)]
    tauto
  simp only [taken_iff]
  refine ⟨hqueue, fun e he htaken p o harm => ?_, fun hno => ?_, fun e he htaken l f hgrant => ?_, fun hno => ?_, by rw [hnode]; rfl,
    by rw [hnode]; rfl, fun k hk => ⟨(ht.changes.record k).trans (hw.records k hk), (ht.nodes k hk).trans (hw.nodes k hk),
      (ht.grants k hk).trans (hw.grants k hk)⟩, hw.changes.seq ht.changes⟩
  · have hctl : e.echoes slot .control r.ctlTag := by
      refine htaken.resolve_right fun h => ?_
      have := (fills_iff.mp h.1).2
      rw [harm] at this
      cases this
    rw [hrec, (armEchoed_iff hplaces).mpr ⟨e, he, hctl, p, o, harm⟩]
    simp [Session.acked]
  · have harm : s.armEchoed slot r.ctlTag = false := by
      rw [Bool.eq_false_iff]
      intro h
      obtain ⟨e, he, hech, p, o, harm⟩ := (armEchoed_iff hplaces).mp h
      exact hno e he (.inl hech) p o harm
    rw [hrec, harm, Session.acked, Bool.or_false, ← hz]
    rfl
  · have hlvl : e.echoes slot .level r.lvlTag := by
      refine htaken.resolve_left fun h => ?_
      have := (fills_iff.mp h.1).2
      rw [hgrant] at this
      cases this
    rw [hpend, (echoed_iff hplaces).mpr ⟨e, he, hlvl⟩, Bool.not_true, Bool.and_false]
  · have hlvl : s.echoed slot .level r.lvlTag = false := by
      rw [Bool.eq_false_iff]
      intro h
      obtain ⟨e, he, hech⟩ := (echoed_iff hplaces).mp h
      obtain ⟨l, f, hgrant⟩ := grant_cls.mp (fills_iff.mp hech.1).2
      exact hno e he (.inr hech) l f hgrant
    rw [hpend, hlvl, Bool.not_false, Bool.and_true]

end Sys2Proof.Machine
end


section
/-! PROOF. A valid report of a machine without a session, a third stale report, and what finds the last slot taken (R5, R19, R21,
R30, R36). -/
namespace Sys2Proof.Machine

/-! ## A report of a machine that nothing is paid on (R5, R19, R21) -/

section
variable {m : Addr} {s t u : State}

theorem PerMachine.put_at_self {α : Type} (v : PerMachine α) (m : Addr) : v.put m (v.at m) = v := by
  refine PerMachine.ext fun k => ?_
  rw [PerMachine.at_put]
  split
  · next h => rw [h]
  · rfl

/-- R42: without a waiting command nothing is acknowledged. -/
theorem Arrived.calm {r : NodeReport} {w : State} (h : Arrived m r s w) (hno : ∀ e ∈ s.mbc.queue, e.addr ≠ m) :
    w.record m = (s.record m).reporting r false ∧ w.grant m = (s.grant m).reporting (s.node m).silentMark false ∧
      w.mbc.queue = s.mbc.queue := by
  have hwait : ∀ c, s.mbc.waiting m c = none := fun c =>
    List.find?_eq_none.mpr fun e he hf => hno e he (fills_iff.mp hf).1
  have he : ∀ c tag, s.echoed m c tag = false := fun c tag => by
    unfold State.echoed
    rw [hwait]
    rfl
  have ha : s.armEchoed m r.ctlTag = false := by
    unfold State.armEchoed
    rw [hwait]
    rfl
  refine ⟨by rw [h.record, ha], by rw [h.grant, he], ?_⟩
  rw [h.queue, he, he, unechoed_false, unechoed_false]

theorem reporting_calm (x : MachineRecord) (r : NodeReport) :
    x.reporting r false = { x.withReport r with kind := if x.storesKind then some r.kind else x.kind } := by
  have : x.session.map (fun z => { z with armAcked := z.armAcked || false }) = x.session := by simp
  unfold MachineRecord.reporting
  rw [this]
  rfl

/-- R5, R19, R21: the record freed or not, and commands at the tail of the queue. -/
structure Unpaid (m : Addr) (freed : Bool) (cs : List BusCommand) (s t : State) : Prop where
  record  : t.record m = if freed then { s.record m with state := .idle, unloadTimer := 0 } else s.record m
  records : ∀ k, k ≠ m → t.record k = s.record k
  faults  : t.flm = s.flm.put m { s.faults m with openMark := (s.faults m).openMark && !freed }
  queue   : t.mbc.queue.map (fun e => (e.addr, e.command)) = s.mbc.queue.map (fun e => (e.addr, e.command)) ++ cs.map fun c => (m, c)
  nodes   : ∀ k, t.node k = s.node k
  changes : ChangesOnly [.msv, .mbc, .flm] s t

theorem Unpaid.refl (m : Addr) (s : State) : Unpaid m false [] s s where
  record := rfl
  records _ _ := rfl
  faults := by
    rw [Bool.not_false, Bool.and_true]
    exact (PerMachine.put_at_self _ _).symm
  queue := by simp
  nodes _ := rfl
  changes := .refl _ s

theorem Unpaid.trans {a b : Bool} {cs ds : List BusCommand} (h : Unpaid m a cs s t) (k : Unpaid m b ds t u) :
    Unpaid m (a || b) (cs ++ ds) s u where
  record := by
    rw [k.record, h.record]
    cases a <;> cases b <;> rfl
  records j hj := (k.records j hj).trans (h.records j hj)
  faults := by
    have hf : t.faults m = { s.faults m with openMark := (s.faults m).openMark && !a } := by
      rw [State.faults, h.faults, PerMachine.at_put_self]
    rw [k.faults, hf, h.faults, PerMachine.put_put]
    simp only [Bool.not_or, Bool.and_assoc]
  queue := by rw [k.queue, h.queue, List.map_append, List.append_assoc]
  nodes j := (k.nodes j).trans (h.nodes j)
  changes := h.changes.seq k.changes

theorem unpaid_enterIdle (hheard : (s.record m).silent = false) : Unpaid m true [] s (enterState m .idle s) := by
  have hland : (s.record m).landing .idle = .idle := by
    unfold MachineRecord.landing
    rw [hheard]
    rfl
  refine ⟨?_, fun k hk => enterState_record_ne hk _ _, ?_, ?_, fun k => (enterState_changes m .idle s).node k,
    (enterState_changes m .idle s).up⟩
  · rw [enterState_record, hland]
    rfl
  · rw [enterState_flm, hland, if_pos (.inl rfl), Bool.not_true, Bool.and_false]
  · rw [(enterState_changes m .idle s).at .mbc]
    simp

theorem unpaid_queueControl {c : BusCommand} (hc : c.cls = some .control) (hk : (s.node m).known = true)
    (hno : ∀ e ∈ s.mbc.queue, e.addr ≠ m) : Unpaid m false [c] s (queueControl m c s) := by
  have hq : (queueControl m c s).mbc.queue =
      s.mbc.queue ++ [{ addr := m, command := c, sends := 0, tag := none, owner := .msv, sentNow := false }] := by
    have hany : s.mbc.queue.any (·.fills m .control) = false :=
      List.any_eq_false.mpr fun e he hf => hno e he (fills_iff.mp hf).1
    unfold queueControl queueCommand
    rw [hc]
    show (if (s.node m).known then _ else s).mbc.queue = _
    rw [if_pos hk]
    show enqueueIn s.mbc.queue m .control c .msv = _
    unfold enqueueIn
    dsimp only
    rw [hany]
    rfl
  have hch := queueControl_changes m c s
  have hrefl := Unpaid.refl m s
  exact ⟨hch.record m, fun k _ => hch.record k, by rw [hch.at .flm]; exact hrefl.faults, by rw [hq]; simp,
    fun k => node_queueControl m k c s, hch.up⟩

theorem unpaid_commandUnpaid (n : NodeState) (hk : (s.node m).known = true) (hno : ∀ e ∈ s.mbc.queue, e.addr ≠ m) :
    Unpaid m false (unpaidCommand n).toList s (commandUnpaid m n s) := by
  unfold commandUnpaid
  cases n with
  | nArmed | nStart => exact unpaid_queueControl rfl hk hno
  | nRun => exact unpaid_queueControl rfl hk hno
  | nIdle | nEnd | nStopped | nFault => exact .refl m s

theorem unpaid_doorRelease (d : Door) (hheard : (s.record m).silent = false) :
    Unpaid m (decide (d = .opened)) [] s (doorRelease m d s) := by
  cases d with
  | opened => exact unpaid_enterIdle hheard
  | closed => exact .refl m s

/-- R3, R19, R21: a report frees an ABSENT or OFFLINE record, and with the door OPEN a DONE or FAULTED one. -/
def MState.freedBy (x : MState) (d : Door) : Bool :=
  x == .absent || x == .offline || ((x == .done || x == .faulted) && d == .opened)

/-- R1: the states in which no session stands and no node is being stopped. -/
def MState.rests : MState → Bool
  | .absent | .offline | .idle | .reserved | .done | .faulted | .outOfService => true
  | .armed | .starting | .running | .aborting | .recovering => false

/-- R3, R5: a report's node state on a record without a session. -/
theorem unpaid_applyNodeState {r : NodeReport} (hrest : (s.record m).state.rests = true)
    (hheard : (s.record m).silent = false) (hk : (s.node m).known = true) (hno : ∀ e ∈ s.mbc.queue, e.addr ≠ m) :
    Unpaid m ((s.record m).state.freedBy r.door)
      (if (s.record m).state = .reserved then [] else (unpaidCommand r.state).toList) s (applyNodeState m r s) := by
  have hcmd := unpaid_commandUnpaid (m := m) r.state hk hno
  have hfirst : Unpaid m true (unpaidCommand r.state).toList s (commandUnpaid m r.state (enterState m .idle s)) := by
    have he := unpaid_enterIdle hheard
    have hmbc : (enterState m .idle s).mbc = s.mbc := (enterState_changes m .idle s).at .mbc
    exact he.trans (unpaid_commandUnpaid r.state (by rw [he.nodes]; exact hk) (by rw [hmbc]; exact hno))
  have hlast : Unpaid m (decide (r.door = .opened)) (unpaidCommand r.state).toList s
      (doorRelease m r.door (commandUnpaid m r.state s)) := by
    have h := hcmd.trans (unpaid_doorRelease r.door (by rw [hcmd.record]; exact hheard))
    rwa [Bool.false_or, List.append_nil] at h
  have hdone : ∀ x : MState, x = .done ∨ x = .faulted → x.freedBy r.door = decide (r.door = .opened) := fun x hx => by
    rcases hx with rfl | rfl <;> rfl
  unfold applyNodeState
  cases hx : (s.record m).state with
  | absent | offline => exact hfirst
  | idle | outOfService => exact hcmd
  | reserved => exact .refl m s
  | done => rw [hdone _ (.inl rfl)]; exact hlast
  | faulted => rw [hdone _ (.inr rfl)]; exact hlast
  | armed | starting | running | aborting | recovering =>
    rw [hx] at hrest
    cases hrest

theorem MState.notActive_of_rests {x : MState} (h : x.rests = true) : x ≠ .running ∧ x ≠ .aborting ∧ x ≠ .starting := by
  cases x <;> simp [MState.rests] at h ⊢

theorem kindDiffers_of_rests {x : MachineRecord} (h : x.state.rests = true) (k : Kind) : x.kindDiffers k = false := by
  unfold MachineRecord.kindDiffers MachineRecord.effective
  revert h
  cases x.state <;> intro h <;> first | rfl | exact absurd h (by simp [MState.rests])

/-- R4: a kind is stored but in RESERVED, where only the first is. -/
theorem storesKind_of_rests {x : MachineRecord} (h : x.state.rests = true) (k : Kind) :
    (if x.storesKind then some k else x.kind) = if x.state = .reserved ∧ x.kind ≠ none then x.kind else some k := by
  unfold MachineRecord.storesKind
  cases hx : x.state with
  | absent | offline | idle | done | faulted | outOfService => rfl
  | reserved => cases x.kind <;> rfl
  | armed | starting | running | aborting | recovering =>
    rw [hx] at h
    cases h

/-- R3, R5, R7, R19, R21, R25: a report of a machine that no session stands on. -/
structure BroughtIn (m : Addr) (r : NodeReport) (s t : State) : Prop where
  record  : t.record m =
    if (s.record m).state.freedBy r.door then { (s.record m).reporting r false with state := .idle, unloadTimer := 0 }
    else (s.record m).reporting r false
  queue   : t.mbc.queue.map (fun e => (e.addr, e.command)) = s.mbc.queue.map (fun e => (e.addr, e.command)) ++
    (if (s.record m).state = .reserved then [] else (unpaidCommand r.state).toList).map fun c => (m, c)
  node    : t.node m = { (s.node m).reporting r with lastFault := none }
  grant   : t.grant m = ((s.grant m).reporting (s.node m).silentMark false).reported r
  faults  : t.flm = s.flm.put m { s.faults m with openMark := (s.faults m).openMark && !(s.record m).state.freedBy r.door }
  others  : ∀ k, k ≠ m → t.record k = s.record k ∧ t.node k = s.node k ∧ t.grant k = s.grant k
  changes : ChangesOnly [.msv, .mbc, .fba, .flm] s t

theorem report_bringsIn {rep : SlotReport} {r : NodeReport} (hrep : ReportTaken s m rep r) (hf : r.state ≠ .nFault)
    (hrest : (s.record m).state.rests = true) (hno : ∀ e ∈ s.mbc.queue, e.addr ≠ m) (hactive : s.mbc.discovery.active = false) :
    ∃ t, exec (.validReport m rep) s = .next t ∧ BroughtIn m r s t := by
  have hw := arrived_arrived hrep.2.2.2
  have hfault : r.fault = none := (reportable_of_decode hrep.2.1).fault.mpr hf
  have hexec := exec_report hrep
  rw [kindDiffers_of_rests hrest, answeredBy_of_inactive hactive] at hexec
  generalize arrived m r s = w at *
  obtain ⟨hrec, hgrant, hqueue⟩ := hw.calm hno
  have hst : (w.record m).state = (s.record m).state := by rw [hrec]; rfl
  have hbody : reportBody m r false w = applyNodeState m r w := rfl
  have hy := unpaid_applyNodeState (m := m) (s := w) (r := r) (by rw [hst]; exact hrest) (by rw [hrec]; rfl) (by rw [hw.node]; rfl)
    (by rw [hqueue]; exact hno)
  rw [hst] at hy
  rw [hbody] at hexec
  generalize applyNodeState m r w = y at *
  have hyx : (y.record m).state ≠ .running ∧ (y.record m).state ≠ .aborting ∧ (y.record m).state ≠ .starting := by
    rw [hy.record]
    split
    · simp
    · rw [hst]
      exact MState.notActive_of_rests hrest
  have ht := noted_reportTail (m := m) hfault hyx
  refine ⟨_, hexec, ?_⟩
  generalize reportTail m r false y = t at *
  have hwy := hy.changes
  exact
    { record := by rw [ht.changes.record m, hy.record, hrec]
      queue := by rw [ht.queue, hy.queue, hqueue]
      node := by rw [ht.node, hy.nodes, hw.node]
      grant := by
        have : y.grant m = w.grant m := hwy.grant m
        rw [ht.grant, this, hgrant]
      faults := by rw [ht.changes.at .flm, hy.faults, hw.changes.at .flm, hw.changes.faults m]
      others := fun k hk => ⟨by rw [ht.changes.record k, hy.records k hk, hw.records k hk],
        by rw [ht.nodes k hk, hy.nodes, hw.nodes k hk], by rw [ht.grants k hk, hwy.grant k, hw.grants k hk]⟩
      changes := (hw.changes.seq hwy (rs := [.msv, .mbc, .fba, .flm])).seq ht.changes }

/-! ## A third stale report (R32 step 5, R36) -/

theorem exec_validReport_done {rep : SlotReport} {r : NodeReport} (hrun : s.phase = .running) (hrep : decodeReport m rep = some r)
    (hdone : s.SlotDone) : exec (.validReport m rep) s = .next (takeValid m r s) := by
  refine congrArg Host.Outcome.next ((afterSlot_of_done hrun hdone).trans ?_)
  rw [hrep]

/-- R32 step 5, R36: a report that stays in hand. -/
structure InHand (m : Addr) (r : NodeReport) (s t : State) : Prop where
  hand    : (t.node m).inHand = some r
  run     : (t.node m).staleRun = 0
  heard   : (t.node m).heardNow = true
  state   : ∀ k, (t.record k).state = (s.record k).state
  changes : ChangesOnly [.msv, .mbc, .fba] s t

theorem inHand_takeValid {r : NodeReport} (hkeep : (s.node m).lastKeep = some r.keepAlive) (hrun : 2 ≤ (s.node m).staleRun) :
    InHand m r s (takeValid m r s) := by
  have h5 := heardReport_hearReport m r s
  have hnode := h5.hears.node
  have htake : takeReport m r (noteOccupied m s) = mapNode m (fun n => { n with inHand := some r })
      (mapNode m (·.checkKeep r.keepAlive) (hearReport m r (noteOccupied m s))) := by
    unfold takeReport
    dsimp only
    rw [if_pos]
    unfold NodeEntry.goesStale
    rw [hnode]
    simp [NodeEntry.heardValid, hkeep, hrun]
  have hself : ∀ f (u : State), (mapNode m f u).node m = f (u.node m) := fun f u => by simp [mapNode]
  have hstate : ∀ k, ((hearReport m r (noteOccupied m s)).record k).state = (s.record k).state := fun k => by
    by_cases hk : k = m
    · rw [hk, h5.record]
    · rw [h5.records k hk]
  have hch := h5.changes
  have hall : InHand m r s (takeReport m r (noteOccupied m s)) := by
    rw [htake]
    generalize hearReport m r (noteOccupied m s) = v at *
    have hmap : ChangesOnly [.mbc] v (mapNode m (fun n => { n with inHand := some r }) (mapNode m (·.checkKeep r.keepAlive) v)) :=
      (mapNode_changes m _ v).seq (mapNode_changes m _ _)
    have hcheck : (v.node m).checkKeep r.keepAlive = { v.node m with staleRun := 0 } := by
      unfold NodeEntry.checkKeep
      rw [if_pos (by rw [hnode]; exact hkeep), if_pos (by rw [hnode]; exact hrun)]
    refine ⟨by rw [hself], by rw [hself, hself, hcheck], by rw [hself, hself, hcheck, hnode]; rfl,
      fun k => by rw [hmap.record k, hstate], hch.seq hmap⟩
  unfold takeValid
  dsimp only
  split
  · have ha := assignAnswered_changes (takeReport m r (noteOccupied m s))
    have hn := node_assignAnswered (takeReport m r (noteOccupied m s)) m
    exact ⟨by rw [hn]; exact hall.hand, by rw [hn]; exact hall.run, by rw [hn]; exact hall.heard,
      fun k => by rw [ha.record k]; exact hall.state k, hall.changes.seq ha⟩
  · exact hall

/-! ## What finds the last slot taken (R30) -/

/-- R30: the rows of a machine lead to the end of its slot. -/
theorem leads_finishAddress (hrun : s.phase = .running) (cs : List Instr) (h : Leads cs (finishAddress m s) t) :
    Leads ([.nodeStale m, .drawExcess m, .drawExcessPersisting m, .addressClash m] ++ cs) s t := by
  have h1 : ChangesOnly sessionParts s (staleIfDue m s) := .ite (reportStale_changes m s) (.refl _ s)
  have hp : ∀ p u, ChangesOnly sessionParts u (excessIfDue m p u) := fun p u => .ite (reportExcess_changes m p u) (.refl _ u)
  have h2 := hp false (staleIfDue m s)
  have h3 := hp true (excessIfDue m false (staleIfDue m s))
  unfold finishAddress at h
  have hr1 : (staleIfDue m s).phase = .running := (h1.at .phase).trans hrun
  have hr2 := (h2.at .phase).trans hr1
  have hr3 := (h3.at .phase).trans hr2
  exact ⟨_, congrArg Host.Outcome.next (whenRunning_of_running hrun), _, congrArg Host.Outcome.next (whenRunning_of_running hr1), _,
    congrArg Host.Outcome.next (whenRunning_of_running hr2), _, congrArg Host.Outcome.next (whenRunning_of_running hr3), h⟩

theorem leads_finishSlot (hrun : s.phase = .running) : Leads slotRows s (finishSlot s) := by
  have key : ∀ (l : List Addr) (u : State), u.phase = .running →
      Leads (l.flatMap fun m => [.nodeStale m, .drawExcess m, .drawExcessPersisting m, .addressClash m]) u
        (l.foldl (fun s m => finishAddress m s) u) := fun l => by
    induction l with
    | nil => exact fun _ _ => rfl
    | cons m l ih =>
      intro u hu
      rw [List.flatMap_cons]
      exact leads_finishAddress hu _ (ih _ (((finishAddress_changes m u).at .phase).trans hu))
  exact key allMachines s hrun

/-- R30: such a command acts on the state in which the last slot's outcome stands taken. -/
theorem exec_finishSlot {c : Instr} (hrun : s.phase = .running) (hc : s.findsSlotDone c) : exec c s = exec c (finishSlot s) := by
  have hch := finishSlot_changes s
  have hrun' : (finishSlot s).phase = .running := (hch.at .phase).trans hrun
  have hafter : ∀ f : State → State, afterSlot f s = afterSlot f (finishSlot s) := fun f => by
    rw [afterSlot_of_done hrun' (finishSlot_done s)]
    exact whenRunning_of_running hrun
  have hwhen : whenRunning finishSlot s = whenRunning finishSlot (finishSlot s) := by
    rw [whenRunning_of_running hrun, whenRunning_of_running hrun', finishSlot_of_done (finishSlot_done s)]
  cases c with
  | beacon | validReport _ _ | malformedReport _ | checkError _ | emptySlot _ | periodClose =>
    exact congrArg Host.Outcome.next (hafter _)
  | coldReset a b c d => exact congrArg (fun u => Host.Outcome.next (coldReset a b c d u)) hwhen
  | resetInputAsserted => exact congrArg (fun u => Host.Outcome.next (assertReset u)) hwhen
  | powerFailure => exact congrArg (fun u => Host.Outcome.next (losePower u)) hwhen
  | replySent =>
    obtain ⟨a, hbuf⟩ := hc
    have hres : s.hli.resets = true := by
      unfold Hli.resets
      rw [hbuf]
    have hres' : (finishSlot s).hli.resets = true := by rw [hch.at .hli]; exact hres
    have hsame : whenRunning (fun s => replySent (whenDue (·.hli.resets) finishSlot s)) s =
        whenRunning (fun s => replySent (whenDue (·.hli.resets) finishSlot s)) (finishSlot s) := by
      have h1 : whenDue (·.hli.resets) finishSlot s = finishSlot s := if_pos hres
      have h2 : whenDue (·.hli.resets) finishSlot (finishSlot s) = finishSlot (finishSlot s) := if_pos hres'
      rw [whenRunning_of_running hrun, whenRunning_of_running hrun', h1, h2, finishSlot_of_done (finishSlot_done s)]
    exact congrArg Host.Outcome.next hsame
  | _ => exact hc.elim

end

/-- Settles O34: a report without a session, a third stale one, and the commands that find the slot taken. -/
theorem reportBringsMachineIn : Obligations.ReportBringsMachineIn := by
  refine ⟨fun slot rep r s hrep hf hrest hno hactive => ?_, fun slot rep r s hrun hrep hdone hkeep hstale => ?_,
    fun c s hrun hc => ?_⟩
  · have hrests : (s.record slot).state.rests = true := by
      cases hx : (s.record slot).state <;> rw [hx] at hrest <;> first | exact hrest.elim | rfl
    obtain ⟨t, hexec, ht⟩ := report_bringsIn hrep hf hrests hno hactive
    refine ⟨t, hexec, ?_⟩
    intro x freed enters
    have hent : x.state.freedBy r.door = true ↔ enters := by
      show _ ↔ (x.state = .absent ∨ x.state = .offline ∨ (x.state = .done ∨ x.state = .faulted) ∧ r.door = .opened)
      simp [MState.freedBy, or_assoc]
    have hnode := ht.node
    refine ⟨?_, ?_, by rw [hnode]; rfl, by rw [hnode]; rfl, by rw [hnode]; rfl, by rw [hnode]; rfl, by rw [hnode]; rfl,
      by rw [hnode]; rfl, by rw [hnode]; rfl, by rw [hnode]; rfl, by rw [hnode]; rfl, by rw [hnode]; rfl, by rw [hnode]; rfl,
      by rw [hnode], by rw [ht.grant]; rfl, by rw [ht.grant]; rfl, by rw [ht.grant, (sameGrant_reported _ r).granted]; rfl, ?_,
      ht.others, ht.changes⟩
    · rw [ht.record, reporting_calm, storesKind_of_rests hrests]
      by_cases he : enters
      · rw [if_pos (hent.mpr he), if_pos he, if_pos he]
      · rw [if_neg (fun h => he (hent.mp h)), if_neg he, if_neg he]
        rfl
    · rw [ht.queue]
      refine congrArg _ ?_
      show List.map _ (if x.state = .reserved then [] else _) = _
      by_cases hres : x.state = .reserved
      · rw [if_pos hres, if_pos hres]
        rfl
      · rw [if_neg hres, if_neg hres]
        cases r.state <;> rfl
    · rw [ht.faults]
      by_cases he : enters
      · rw [hent.mpr he, decide_eq_true he]
      · rw [Bool.eq_false_iff.mpr fun h => he (hent.mp h), decide_eq_false he]
  · have h := inHand_takeValid hkeep hstale
    exact ⟨_, exec_validReport_done hrun hrep hdone, h.hand, h.run, h.heard, h.state, h.changes⟩
  · have hch := finishSlot_changes s
    exact ⟨finishSlot s, leads_finishSlot hrun, (hch.at .phase).trans hrun, finishSlot_done s, exec_finishSlot hrun hc⟩

end Sys2Proof.Machine
end


section
/-! PROOF. What a granted head leaves, and a re-examination of a queue with one entry (R59 to R62). -/
namespace Sys2Proof.Machine

section
variable {m : Addr} {s t u : State}

/-! ## A grant changed (R55, R71) -/

theorem queueGrant_entries (m : Addr) (l : Level) (f : Bool) (s : State) :
    (queueGrant m l f s).fba = { s.fba with entries := (queueGrant m l f s).fba.entries } := by
  rcases queueGrant_fba m l f s with h | h <;> rw [h]
  rfl

theorem queueGrant_grants {k : Addr} (hk : k ≠ m) (l : Level) (f : Bool) (s : State) :
    (queueGrant m l f s).grant k = s.grant k := (apart_queueGrant (Ne.symm hk) l f s).grant

/-- R55, R71: a grant takes a level and a fill, and GRANT is queued. -/
structure Regranted (m : Addr) (l : Level) (f : Bool) (s t : State) : Prop where
  grant    : t.grant m = { (s.grant m).regrant l f with pending := (s.grant m).pending || (s.node m).known }
  grants   : ∀ k, k ≠ m → t.grant k = s.grant k
  fba      : t.fba = { s.fba with entries := t.fba.entries }
  sums     : t.fba.committed + (s.grant m).draw = s.fba.committed + (s.grant m).drawOf l ∧
    t.fba.fillCount + (s.grant m).fill.toNat = s.fba.fillCount + f.toNat
  levelled : (s.node m).known = true → Levelled t m l f
  control  : ∀ k, t.mbc.waiting k .control = s.mbc.waiting k .control
  node     : ∀ k, t.node k = s.node k
  changes  : ChangesOnly [.mbc, .fba] s t

theorem regranted_changeGrant (m : Addr) (l : Level) (f : Bool) (s : State) : Regranted m l f s (changeGrant m l f s) where
  grant := changeGrant_grant m l f s
  grants _ hk := (apart_changeGrant (Ne.symm hk) l f s).grant
  fba := queueGrant_entries m l f _
  sums := ⟨(changeGrant_budget m l f s).1, changeGrant_fillCount m l f s⟩
  levelled := levelled_changeGrant
  control _ := waiting_queueGrant _ m l f _
  node _ := (node_queueGrant _ m l f _).trans rfl
  changes := changeGrant_changes m l f s

/-! ## A START granted (R13, R60, R61) -/

/-- R13: the record of a machine whose START is granted. -/
def MachineRecord.startedAt (x : MachineRecord) (now : Option Stamp) (margin : Nat) : MachineRecord :=
  { x with state := .running, session := x.session.map fun z => z.started now margin }

/-- R13, R60, R61: a START entry has been granted at a level, before what it wants is compared. -/
structure Started (m : Addr) (e : GrantEntry) (l : Level) (f : Bool) (s t : State) : Prop where
  record   : t.record m = (s.record m).startedAt s.stamp s.sst.working.limits.guardMargin
  records  : ∀ k, k ≠ m → t.record k = s.record k
  grant    : t.grant m = { e with pending := e.pending || (s.node m).known }
  grants   : ∀ k, k ≠ m → t.grant k = s.grant k
  fba      : t.fba = { s.fba with
    entries := t.fba.entries, startList := s.fba.startList ++ [m], starts := s.fba.starts.filter (·.machine != m) }
  sums     : t.fba.committed + (s.grant m).draw = s.fba.committed + e.draw ∧
    t.fba.fillCount + (s.grant m).fill.toNat = s.fba.fillCount + e.fill.toNat
  levelled : (s.node m).known = true → Levelled t m l f
  control  : ∀ k, t.mbc.waiting k .control = s.mbc.waiting k .control
  node     : ∀ k, t.node k = s.node k
  changes  : ChangesOnly [.msv, .mbc, .fba] s t

theorem levelled_queueGrant {l : Level} {f : Bool} (h : (s.node m).known = true) : Levelled (queueGrant m l f s) m l f := by
  unfold queueGrant
  rw [if_pos h]
  exact waiting_queueCommand m (.grant l f) .level .fba _ rfl h

theorem started_startRuns (m : Addr) (e : GrantEntry) (l : Level) (f : Bool) (s : State) : Started m e l f s (startRuns m e l f s) := by
  have hself : (startGranted m e s).grant m = e := PerMachine.at_put_self _ _ _
  have hother : ∀ k, k ≠ m → (startGranted m e s).grant k = s.grant k := fun k hk => PerMachine.at_put_ne _ _ (Ne.symm hk)
  have hfba : (startRuns m e l f s).fba = (queueGrant m l f (startGranted m e s)).fba := rfl
  have hgrant : ∀ k, (startRuns m e l f s).grant k = (queueGrant m l f (startGranted m e s)).grant k := fun _ => rfl
  have hnode : ∀ k, (startGranted m e s).node k = s.node k := fun _ => rfl
  have hsums := startRuns_fba m e l f s
  exact
    { record := by
        rw [startRuns_record, if_pos rfl]
        rfl
      records := fun k hk => by rw [startRuns_record, if_neg (Ne.symm hk)]
      grant := by rw [hgrant, queueGrant_grant, hself, hnode]
      grants := fun k hk => by rw [hgrant, queueGrant_grants hk, hother k hk]
      fba := by
        rw [hfba, queueGrant_entries]
        rfl
      sums := ⟨hsums.1, hsums.2.1⟩
      levelled := fun h => levelled_queueGrant (s := startGranted m e s) h
      control := fun k => waiting_queueGrant k m l f (startGranted m e s)
      node := fun k => node_queueGrant k m l f (startGranted m e s)
      changes := startRuns_changes m e l f s }

/-! ## A re-examination of one entry (R59) -/

theorem clearOverBudget_of_clear (h : s.fba.overBudget = false) : clearOverBudget s = s := by
  unfold clearOverBudget
  split
  · rw [← h]
    rfl
  · rfl

theorem grantHeads_of_none (h : grantHead s = none) (n : Nat) : grantHeads n s = s := by
  cases n with
  | zero => rfl
  | succ n => unfold grantHeads; rw [h]

theorem reexamine_eq (h : s.fba.overBudget = false) :
    review s = grantHeads (s.fba.raises.length + 2 * s.fba.starts.length) s := by
  unfold review
  rw [clearOverBudget_of_clear h]
  unfold reexamine
  rw [if_neg (by rw [h]; simp)]

/-- R59: a head that does not fit holds the queue. -/
theorem review_held (h : s.fba.overBudget = false) (hn : grantHead s = none) : review s = s := by
  rw [reexamine_eq h, grantHeads_of_none hn]

/-- R59: the head is granted, and what is then the head is not. -/
theorem review_granted (h : s.fba.overBudget = false) (hs : grantHead s = some t) (hn : grantHead t = none) : review s = t := by
  have hpos : s.fba.raises.length + 2 * s.fba.starts.length ≠ 0 := fun h0 => by
    have hr : s.fba.raises = [] := List.length_eq_zero_iff.mp (by omega)
    have hst : s.fba.starts = [] := List.length_eq_zero_iff.mp (by omega)
    unfold grantHead at hs
    rw [hr, hst] at hs
    cases hs
  obtain ⟨k, hk⟩ := Nat.exists_eq_succ_of_ne_zero hpos
  rw [reexamine_eq h, hk]
  unfold grantHeads
  rw [hs]
  exact grantHeads_of_none hn k

theorem grantHead_empty (hr : s.fba.raises = []) (hs : s.fba.starts = []) : grantHead s = none := by
  unfold grantHead
  rw [hr, hs]

theorem grantHead_raise {e : AdmEntry} {l : List AdmEntry} (hr : s.fba.raises = e :: l) : grantHead s = grantRaise e s := by
  unfold grantHead
  rw [hr]

theorem grantHead_start {e : AdmEntry} {l : List AdmEntry} (hr : s.fba.raises = []) (hs : s.fba.starts = e :: l) :
    grantHead s = grantStart e s := by
  unfold grantHead
  rw [hr, hs]

/-- R59: room for a machine's draw and, where one is needed, for a fill slot. -/
def State.room (s : State) (present draw : Nat) (needsSlot : Bool) : Prop :=
  s.fba.committed - present + draw ≤ s.fba.beff ∧ (needsSlot = true → s.fba.fillCount + 1 ≤ s.fillLimit)

theorem fits_room {present draw : Nat} {slot : Bool} :
    s.fba.fits s.fillLimit present draw slot = true ↔ s.room present draw slot := fits_iff

theorem grantRaise_held {e : AdmEntry}
    (h : ¬s.room (s.grant e.machine).draw ((s.grant e.machine).drawOf e.level) (e.fill && !(s.grant e.machine).fill)) :
    grantRaise e s = none := if_neg fun hf => h (fits_room.mp hf)

theorem grantRaise_fits {e : AdmEntry}
    (h : s.room (s.grant e.machine).draw ((s.grant e.machine).drawOf e.level) (e.fill && !(s.grant e.machine).fill)) :
    grantRaise e s = some (changeGrant e.machine e.level ((s.grant e.machine).fill || e.fill) (removeRaise e.machine s)) :=
  if_pos (fits_room.mpr h)

/-- R60: a washer's START. -/
theorem grantStart_washer {e : AdmEntry} {z : Session} {p b h : Nat} (hz : (s.record e.machine).session = some z)
    (hf : z.figures = .washer p b h) : grantStart e s =
      if s.fba.fits s.fillLimit 0 b true then some (grantWasherStart e.machine (.washer b h) s) else none := by
  unfold grantStart
  rw [hz]
  dsimp only
  rw [hf]
  rfl

/-- R61: a dryer's START. -/
theorem grantStart_dryer {e : AdmEntry} {z : Session} {q a l h : Nat} (hz : (s.record e.machine).session = some z)
    (hf : z.figures = .dryer q a l h) : grantStart e s =
      ((dryerLevels e.level).find? fun x => s.fba.fits s.fillLimit 0 ((LevelDraws.dryer a l h).draw x) false).map fun x =>
        grantDryerStart e.machine (.dryer a l h) x e.level s := by
  unfold grantStart
  rw [hz]
  dsimp only
  rw [hf]
  unfold Figures.draws
  dsimp only
  generalize (dryerLevels e.level).find? _ = y
  cases y <;> rfl

/-! ## A dryer's START at the head (R61) -/

theorem find?_dryerLevels_none {target : Level} (ht : target.kind = .dryer) {p : Level → Bool}
    (h : ∀ x : Level, x.kind = .dryer → ¬(x.rank ≤ target.rank ∧ p x = true)) : (dryerLevels target).find? p = none := by
  refine List.find?_eq_none.mpr fun x hx hp => ?_
  have hx2 : x.kind = .dryer ∧ x.rank ≤ target.rank := by
    revert hx ht
    cases target <;> cases x <;> simp [dryerLevels, Level.kind, Level.rank]
  exact h x hx2.1 ⟨hx2.2, hp⟩

theorem find?_dryerLevels_some {target x : Level} (ht : target.kind = .dryer) (hx : x.kind = .dryer) {p : Level → Bool}
    (hle : x.rank ≤ target.rank) (hp : p x = true)
    (hmax : ∀ y : Level, y.kind = .dryer → x.rank < y.rank → ¬(y.rank ≤ target.rank ∧ p y = true)) :
    (dryerLevels target).find? p = some x := by
  have hno : ∀ y : Level, y.kind = .dryer → x.rank < y.rank → y.rank ≤ target.rank → p y = false := fun y hy hr hle =>
    Bool.eq_false_iff.mpr fun hp => hmax y hy hr ⟨hle, hp⟩
  have hlow := hno .low rfl
  have hhigh := hno .high rfl
  revert ht hx hle hlow hhigh
  cases target <;> cases x <;> simp_all [dryerLevels, Level.kind, Level.rank]

/-- R61: a dryer's grant at a level below its target, or at it. -/
def GrantEntry.startedDryerAt (e : GrantEntry) (d : LevelDraws) (x target : Level) (known : Bool) : GrantEntry :=
  { e with
    granted := some x, fill := false, draw := d.draw x, draws := some d, held := x == .air && decide (x.rank < target.rank)
    pending := e.pending || known }

/-- R58, R61, R64: the RAISE entry of a dryer that was granted less than its target. -/
def raiseFor (m : Addr) (s : State) (target : Level) : AdmEntry :=
  { machine := m, level := target, fill := false, arrival := s.fba.arrivals, timer := s.sst.working.limits.raiseWait * 60 }

/-- R13, R61: a dryer has been started. -/
structure DryerStarted (m : Addr) (d : LevelDraws) (x target : Level) (s t : State) : Prop where
  record    : t.record m = (s.record m).startedAt s.stamp s.sst.working.limits.guardMargin
  records   : ∀ k, k ≠ m → t.record k = s.record k
  grant     : t.grant m = (s.grant m).startedDryerAt d x target (s.node m).known
  grants    : ∀ k, k ≠ m → t.grant k = s.grant k
  fba       : t.fba = { s.fba with
    entries := t.fba.entries, startList := s.fba.startList ++ [m], starts := s.fba.starts.filter (·.machine != m)
    raises := if x.rank < target.rank then s.fba.raises ++ [raiseFor m s target] else s.fba.raises
    arrivals := if x.rank < target.rank then s.fba.nextArrival else s.fba.arrivals }
  committed : t.fba.committed + (s.grant m).draw = s.fba.committed + d.draw x
  levelled  : (s.node m).known = true → Levelled t m x false
  control   : ∀ k, t.mbc.waiting k .control = s.mbc.waiting k .control
  node      : ∀ k, t.node k = s.node k
  changes   : ChangesOnly [.msv, .mbc, .fba] s t

theorem dryerStarted_grantDryerStart (m : Addr) (d : LevelDraws) (x target : Level) (s : State) :
    DryerStarted m d x target s (grantDryerStart m d x target s) := by
  have h := started_startRuns m ((s.grant m).startedDryer d x target) x false s
  have hlim : (startRuns m ((s.grant m).startedDryer d x target) x false s).sst = s.sst := h.changes.at .sst
  rw [grantDryerStart_eq]
  generalize startRuns m ((s.grant m).startedDryer d x target) x false s = u at *
  have harr : u.fba.arrivals = s.fba.arrivals := by rw [h.fba]
  have hra : u.fba.raises = s.fba.raises := by rw [h.fba]
  by_cases hlt : x.rank < target.rank
  · rw [if_pos hlt]
    have hadd := addRaise_changes m target false u
    have hbus : (addRaise m target false u).mbc = u.mbc := hadd.at .mbc
    exact
      { record := (hadd.record m).trans h.record
        records := fun k hk => (hadd.record k).trans (h.records k hk)
        grant := h.grant
        grants := h.grants
        fba := by
          rw [if_pos hlt, if_pos hlt]
          unfold addRaise raiseFor Fba.nextArrival
          rw [State.withFba_fba, h.fba, hlim]
        committed := h.sums.1
        levelled := fun hk => by
          unfold Levelled
          rw [hbus]
          exact h.levelled hk
        control := fun k => by rw [hbus]; exact h.control k
        node := fun k => (hadd.node k).trans (h.node k)
        changes := h.changes.seq hadd }
  · rw [if_neg hlt]
    exact
      { record := h.record
        records := h.records
        grant := h.grant
        grants := h.grants
        fba := by rw [if_neg hlt, if_neg hlt]; exact h.fba
        committed := h.sums.1
        levelled := h.levelled
        control := h.control
        node := h.node
        changes := h.changes }

/-- R59, R61: a dryer's START at the head of the queue, by what it wants and what fits. -/
theorem review_dryer {e : AdmEntry} {behind : List AdmEntry} {z : Session} {q a l h : Nat} (hclear : s.fba.overBudget = false)
    (hr : s.fba.raises = []) (hs : s.fba.starts = e :: behind) (hz : (s.record e.machine).session = some z)
    (hf : z.figures = .dryer q a l h) (hk : e.level.kind = .dryer) :
    let d := LevelDraws.dryer a l h
    let fits := fun x : Level => x.rank ≤ e.level.rank ∧ s.fba.committed + d.draw x ≤ s.fba.beff
    ((∀ x : Level, x.kind = .dryer → ¬fits x) → review s = s) ∧
    ∀ x : Level, x.kind = .dryer → behind = [] → (s.grant e.machine).draw = 0 → fits x →
      (∀ y : Level, y.kind = .dryer → x.rank < y.rank → ¬fits y) →
      DryerStarted e.machine d x e.level s (review s) := by
  intro d fits
  have hhead := (grantHead_start hr hs).trans (grantStart_dryer hz hf)
  have hfit : ∀ x, (s.fba.fits s.fillLimit 0 (d.draw x) false = true ↔ s.fba.committed + d.draw x ≤ s.fba.beff) := fun x => by
    rw [fits_iff]
    simp
  refine ⟨fun hno => ?_, fun x hx hb hdraw hfx hmax => ?_⟩
  · refine review_held hclear ?_
    rw [hhead, find?_dryerLevels_none hk fun x hx hp => hno x hx ⟨hp.1, (hfit x).mp hp.2⟩]
    rfl
  · subst hb
    rw [find?_dryerLevels_some hk hx hfx.1 ((hfit x).mpr hfx.2) fun y hy hlt hp => hmax y hy hlt ⟨hp.1, (hfit y).mp hp.2⟩] at hhead
    have hd := dryerStarted_grantDryerStart e.machine d x e.level s
    rw [Option.map_some] at hhead
    rw [review_granted hclear hhead ?_]
    · exact hd
    · generalize grantDryerStart e.machine d x e.level s = t at *
      have hst : t.fba.starts = [] := by
        rw [hd.fba]
        simp [hs]
      by_cases hlt : x.rank < e.level.rank
      · have hra : t.fba.raises = [raiseFor e.machine s e.level] := by
          rw [hd.fba]
          simp [hlt, hr]
        rw [grantHead_raise hra]
        refine grantRaise_held fun hroom => hmax e.level hk hlt ⟨Nat.le_refl _, ?_⟩
        have hcom := hd.committed
        have hbeff : t.fba.beff = s.fba.beff := by rw [hd.fba]
        have hroom1 : t.fba.committed - (t.grant e.machine).draw + (t.grant e.machine).drawOf e.level ≤ t.fba.beff := hroom.1
        have hdr : (t.grant e.machine).draw = d.draw x ∧ (t.grant e.machine).drawOf e.level = d.draw e.level := by
          rw [hd.grant]
          exact ⟨rfl, rfl⟩
        omega
      · refine grantHead_empty ?_ hst
        rw [hd.fba]
        simp [hlt, hr]

/-! ## A washer's START at the head (R60) -/

theorem removeRaise_of_empty (h : s.fba.raises = []) (m : Addr) : removeRaise m s = s := by
  unfold removeRaise
  rw [h, List.filter_nil, ← h]
  rfl

/-- R55: a washer at BASE with fill that wants just that. -/
theorem compareWanted_base (hg : (s.grant m).granted = some .base) (hf : (s.grant m).fill = true) (hr : s.fba.raises = [])
    (hw : ∀ w, (s.grant m).wanted = some w → w = (.base, true)) : compareWanted m s = s := by
  unfold compareWanted
  dsimp only
  cases hwant : (s.grant m).wanted with
  | none => rw [hg]
  | some w =>
    rw [hw w hwant, hg, hf]
    exact removeRaise_of_empty hr m

/-- R60: the grant of a washer's START. -/
def GrantEntry.startedWasher (e : GrantEntry) (d : LevelDraws) : GrantEntry :=
  { e with draws := some d }.regrant .base true

/-- R59, R60: a washer's START at the head of the queue. -/
theorem review_washer {e : AdmEntry} {behind : List AdmEntry} {z : Session} {p b h : Nat} (hclear : s.fba.overBudget = false)
    (hr : s.fba.raises = []) (hs : s.fba.starts = e :: behind) (hz : (s.record e.machine).session = some z)
    (hf : z.figures = .washer p b h) :
    (¬s.room 0 b true → review s = s) ∧
    (s.room 0 b true → behind = [] → (∀ w, (s.grant e.machine).wanted = some w → w = (.base, true)) →
      Started e.machine ((s.grant e.machine).startedWasher (.washer b h)) .base true s (review s)) := by
  have hhead := (grantHead_start hr hs).trans (grantStart_washer hz hf)
  refine ⟨fun hno => ?_, fun hroom hb hw => ?_⟩
  · exact review_held hclear (hhead.trans (if_neg fun h => hno (fits_room.mp h)))
  · subst hb
    rw [if_pos (fits_room.mpr hroom), grantWasherStart_eq] at hhead
    have hd := started_startRuns e.machine ((s.grant e.machine).startedWasher (.washer b h)) .base true s
    have hgr := hd.grant
    have hra : (startRuns e.machine ((s.grant e.machine).startedWasher (.washer b h)) .base true s).fba.raises = [] := by
      rw [hd.fba]
      exact hr
    have hst : (startRuns e.machine ((s.grant e.machine).startedWasher (.washer b h)) .base true s).fba.starts = [] := by
      rw [hd.fba]
      simp [hs]
    have hsame := compareWanted_base (m := e.machine)
      (s := startRuns e.machine ((s.grant e.machine).startedWasher (.washer b h)) .base true s) (by rw [hgr]; rfl)
      (by rw [hgr]; rfl) hra (by rw [hgr]; exact hw)
    have hhead2 := hhead.trans (congrArg some hsame)
    rw [review_granted hclear hhead2 (grantHead_empty hra hst)]
    exact hd

/-! ## Sessions that have begun to run (R13, R16, R63) -/

theorem started_washer {z : Session} {p b h : Nat} (hf : z.figures = .washer p b h) (now : Option Stamp) (margin : Nat) :
    z.started now margin = { z with
      startWait := 0, startWindow := 0, startTime := now, runClock := 0, blockTimer := 0, guardTimer := (p + margin) * 60 } := by
  unfold Session.started
  rw [hf]
  rfl

theorem started_dryer {z : Session} {q a l h : Nat} (hf : z.figures = .dryer q a l h) (now : Option Stamp) (margin : Nat) :
    z.started now margin = { z with
      startWait := 0, startWindow := 0, startTime := now, runClock := 0, guardTimer := 0, blockTimer := 60 } := by
  unfold Session.started
  rw [hf]
  rfl

theorem startedAt_session {x : MachineRecord} {z : Session} (hz : x.session = some z) (now : Option Stamp) (margin : Nat) :
    x.startedAt now margin = { x with state := .running, session := some (z.started now margin) } := by
  unfold MachineRecord.startedAt
  rw [hz]
  rfl

theorem onHold_dryer {z : Session} (hz : (s.record m).session = some z) (hk : z.figures.kind = .dryer) :
    s.onHold m = (s.grant m).held := by
  unfold State.onHold
  rw [hz]
  dsimp only
  rw [hk]

theorem held_below {x target : Level} (hx : x.kind = .dryer) (ht : target.kind = .dryer) :
    (x == .air && decide (x.rank < target.rank)) = decide (x = .air ∧ target ≠ .air) := by
  revert hx ht
  cases x <;> cases target <;> simp [Level.kind, Level.rank]

theorem below_iff {x target : Level} (hx : x.kind = .dryer) (ht : target.kind = .dryer) (hle : x.rank ≤ target.rank) :
    x.rank < target.rank ↔ x ≠ target := by
  revert hx ht hle
  cases x <;> cases target <;> simp [Level.kind, Level.rank]

end

/-! ## SET LIMITS (R56, R59) -/

section
variable {a : LimitArgs} {s : State}

/-- R174: the state in which SET LIMITS has its limits taken. -/
def State.withLimits (s : State) (a : LimitArgs) : State := s.edited { s.sst.working with limits := LimitArgs.held a }

/-- R56, R59: a changed fill-slot limit has the queue re-examined. -/
theorem exec_setLimits (hs : s.Serves (.setLimits a)) (hc : s.sst.commit = none)
    (hne : (LimitArgs.held a).fillSlots ≠ s.sst.working.limits.fillSlots) (hle : s.fba.fillCount ≤ (LimitArgs.held a).fillSlots) :
    ∃ t, exec (.setLimits a) s = .next t ∧ ChangesOnly [.hli] (review (s.withLimits a)) t := by
  have hf : setLimits a s = okMarked (LimitArgs.held a).bytes (review (s.withLimits a)) := by
    refine (settingsEdit_free hc).trans ((if_neg (Nat.not_lt.mpr hle)).trans ?_)
    dsimp only
    rw [if_neg hne]
    rfl
  refine ⟨_, rfl, ?_⟩
  rw [serve_of_serves hs, answerRequest_eq hf]
  exact putReply_changes _ _ _

/-- Settles O42: the head of the queue is a RAISE entry, or a START entry of a washer or of a dryer. -/
theorem queueHeadsGranted : Obligations.QueueHeadsGranted := by
  intro a s hs hc hclear
  by_cases hcond : (LimitArgs.held a).fillSlots ≠ s.sst.working.limits.fillSlots ∧ s.fba.fillCount ≤ (LimitArgs.held a).fillSlots
  case neg =>
    obtain ⟨t, ht, -⟩ := setLimits_answers hs hc
    exact ⟨t, ht, fun h1 h2 => absurd ⟨h1, h2⟩ hcond⟩
  obtain ⟨t, ht, hch⟩ := exec_setLimits hs hc hcond.1 hcond.2
  refine ⟨t, ht, ?_⟩
  intro l room hne hle
  have hfba : t.fba = (review (s.withLimits a)).fba := hch.at .fba
  have hmsv : t.msv = (review (s.withLimits a)).msv := hch.at .msv
  have hmbc : t.mbc = (review (s.withLimits a)).mbc := hch.at .mbc
  have hgrant : ∀ k, t.grant k = (review (s.withLimits a)).grant k := hch.grant
  have hrecord : ∀ k, t.record k = (review (s.withLimits a)).record k := hch.record
  have hheld : review (s.withLimits a) = s.withLimits a → t.fba = s.fba ∧ t.msv = s.msv ∧ t.mbc = s.mbc := fun h => by
    rw [hfba, hmsv, hmbc, h]
    exact ⟨rfl, rfl, rfl⟩
  have hroom : ∀ m draw slot, (s.withLimits a).room (s.grant m).draw draw slot ↔ room m draw slot := fun _ _ _ => Iff.rfl
  refine ⟨fun e behind hr hno => hheld (review_held hclear
    ((grantHead_raise (s := s.withLimits a) hr).trans (grantRaise_held (s := s.withLimits a) fun h => hno h))), ?_, ?_⟩
  · intro e hr hst hfit
    have hhead := (grantHead_raise (s := s.withLimits a) hr).trans (grantRaise_fits (s := s.withLimits a) hfit)
    have hd := regranted_changeGrant e.machine e.level ((s.grant e.machine).fill || e.fill) (removeRaise e.machine (s.withLimits a))
    have hrev : review (s.withLimits a) =
        changeGrant e.machine e.level ((s.grant e.machine).fill || e.fill) (removeRaise e.machine (s.withLimits a)) := by
      refine review_granted hclear hhead (grantHead_empty ?_ ?_)
      · rw [hd.fba]
        simp [removeRaise, hr, State.withLimits, State.edited]
      · rw [hd.fba]
        exact hst
    rw [← hrev] at hd
    generalize review (s.withLimits a) = u at *
    rw [hfba, hmsv, hgrant, hd.fba, hd.grant]
    refine ⟨rfl, rfl, rfl, by simp [removeRaise, hr, State.withLimits, State.edited], rfl, fun k hk => ?_, hd.changes.at .msv, fun hk => ⟨?_, ?_⟩⟩
    · rw [hgrant, hd.grants k hk]
      rfl
    · show (_ || (s.node e.machine).known) = true
      rw [hk, Bool.or_true]
    · unfold Levelled
      rw [hmbc]
      exact hd.levelled hk
  · intro e behind z hr hst hz hnone hdraw
    refine ⟨fun planned b h hf hno => ?_, fun planned b h hf hb hfit hw => ?_, fun rate air low high hf hk => ?_⟩
    · refine hheld ((review_washer (s := s.withLimits a) hclear hr hst hz hf).1 fun hfit => hno ?_)
      rw [← hroom, hdraw]
      exact hfit
    · have hd := (review_washer (s := s.withLimits a) hclear hr hst hz hf).2 (by rw [← hroom, hdraw] at hfit; exact hfit) hb hw
      subst hb
      generalize review (s.withLimits a) = u at *
      have hst2 : t.fba.starts = [] := by
        rw [hfba, hd.fba]
        simp [State.withLimits, State.edited, hst]
      refine ⟨?_, by rw [hgrant, hd.grant]; rfl, by rw [hgrant, hd.grant]; rfl, by rw [hgrant, hd.grant]; rfl,
        by rw [hgrant, hd.grant]; rfl, hst2, by rw [hfba, hd.fba]; exact hr, by rw [hfba, hd.fba]; rfl, fun hk => ?_⟩
      · rw [hrecord, hd.record, startedAt_session (x := (s.withLimits a).record e.machine) hz, started_washer hf]
        rfl
      · unfold Levelled
        rw [hmbc]
        exact hd.levelled hk
    · intro draws fits
      have hfits : ∀ x, fits x ↔ x.rank ≤ e.level.rank ∧ (s.withLimits a).fba.committed + draws.draw x ≤ (s.withLimits a).fba.beff :=
        fun x => by
          show (_ ∧ room _ _ _) ↔ _
          rw [← hroom, hdraw]
          simp [State.room]
      have hrev := review_dryer (s := s.withLimits a) hclear hr hst hz hf hk
      refine ⟨fun hno => hheld (hrev.1 fun x hx hfx => hno x hx ((hfits x).mpr hfx)), fun x hx hb hfx hmax => ?_⟩
      have hd := hrev.2 x hx hb hdraw ((hfits x).mp hfx) fun y hy hlt hfy => hmax y hy hlt ((hfits y).mpr hfy)
      subst hb
      generalize review (s.withLimits a) = u at *
      have hst2 : t.fba.starts = [] := by
        rw [hfba, hd.fba]
        simp [State.withLimits, State.edited, hst]
      have hrec : t.record e.machine = { s.record e.machine with
          state := .running
          session := some { z with
            startWait := 0, startWindow := 0, startTime := s.stamp, runClock := 0, guardTimer := 0, blockTimer := 60 } } := by
        rw [hrecord, hd.record, startedAt_session (x := (s.withLimits a).record e.machine) hz, started_dryer hf]
        rfl
      refine ⟨hrec, by rw [hgrant, hd.grant]; rfl, by rw [hgrant, hd.grant]; rfl, by rw [hgrant, hd.grant]; rfl, hst2,
        by rw [hfba, hd.fba]; rfl, ?_, ?_, fun hk => ?_⟩
      · rw [hfba, hd.fba]
        show (if x.rank < e.level.rank then s.fba.raises ++ _ else s.fba.raises) = _
        rw [hr, List.nil_append]
        by_cases hxe : x = e.level
        · rw [if_pos hxe, if_neg (by rw [hxe]; exact Nat.lt_irrefl _)]
        · rw [if_neg hxe, if_pos ((below_iff hx hk hfx.1).mpr hxe)]
          rfl
      · rw [onHold_dryer (z := _) (by rw [hrec]) (by rw [hf]; rfl), hgrant, hd.grant]
        exact held_below hx hk
      · unfold Levelled
        rw [hmbc]
        exact hd.levelled hk

end

end Sys2Proof.Machine
end


section
/-! PROOF. The budget check's first shed (R65 to R67). -/
namespace Sys2Proof.Machine

section
variable {m : Addr} {s u : State} {upper lower : Level}

/-- R65: the conditions of a shed, one by one. -/
theorem sheddable_iff : s.sheddable m upper lower = true ↔
    (s.record m).state = .running ∧ (s.grant m).heldSilent = false ∧ (s.grant m).granted = some upper ∧
      (s.grant m).drawOf lower < (s.grant m).draw := by
  unfold State.sheddable
  simp [and_assoc]

/-! ## One step (R65) -/

/-- R65: a machine's turn in a step. -/
def shedTurn (upper lower : Level) (s : State) (m : Addr) : State :=
  if s.fba.beff < s.fba.committed && s.sheddable m upper lower then shedOne m lower s else s

theorem shedStep_eq (upper lower : Level) (s : State) :
    shedStep upper lower s = s.fba.startList.reverse.foldl (shedTurn upper lower) s := rfl

theorem foldl_shedTurn_nothing {l : List Addr} (h : ∀ k ∈ l, s.fba.beff < s.fba.committed → s.sheddable k upper lower = false) :
    l.foldl (shedTurn upper lower) s = s := by
  induction l with
  | nil => rfl
  | cons k l ih =>
    have hk : shedTurn upper lower s k = s := by
      unfold shedTurn
      by_cases hb : s.fba.beff < s.fba.committed
      · rw [h k List.mem_cons_self hb, Bool.and_false, if_neg Bool.false_ne_true]
      · rw [decide_eq_false hb, Bool.false_and, if_neg Bool.false_ne_true]
    rw [List.foldl_cons, hk]
    exact ih fun j hj => h j (List.mem_cons_of_mem k hj)

theorem shedStep_nothing (h : ∀ k ∈ s.fba.startList, s.fba.beff < s.fba.committed → s.sheddable k upper lower = false) :
    shedStep upper lower s = s := by
  rw [shedStep_eq]
  exact foldl_shedTurn_nothing fun k hk => h k (List.mem_reverse.mp hk)

/-- R65: the newest sheddable machine is shed, and that is enough. -/
theorem shedStep_first {older newer : List Addr} (hl : s.fba.startList = older ++ m :: newer) (hover : s.fba.beff < s.fba.committed)
    (hm : s.sheddable m upper lower = true) (hnew : ∀ k ∈ newer, s.sheddable k upper lower = false)
    (hin : (shedOne m lower s).fba.committed ≤ (shedOne m lower s).fba.beff) : shedStep upper lower s = shedOne m lower s := by
  have hturn : shedTurn upper lower s m = shedOne m lower s := by
    unfold shedTurn
    rw [decide_eq_true hover, hm, Bool.and_self, if_pos rfl]
  rw [shedStep_eq, hl, List.reverse_append, List.reverse_cons, List.foldl_append, List.foldl_append,
    foldl_shedTurn_nothing fun k hk _ => hnew k (List.mem_reverse.mp hk), List.foldl_cons, List.foldl_nil, hturn]
  exact foldl_shedTurn_nothing fun k _ hb => absurd hin (Nat.not_le.mpr hb)

/-- R65: within B_eff a step sheds nothing. -/
theorem shedStep_within (h : s.fba.committed ≤ s.fba.beff) (upper lower : Level) : shedStep upper lower s = s :=
  shedStep_nothing fun _ _ hb => absurd h (Nat.not_le.mpr hb)

/-! ## The three steps (R65) -/

/-- R65: the levels of the three steps, in their order. -/
def shedLevels : List (Level × Level) := [(.high, .low), (.low, .air), (.heat, .base)]

theorem foldl_shedLevels (s : State) : shedLevels.foldl (fun s x => shedStep x.1 x.2 s) s =
    shedStep .heat .base (shedStep .low .air (shedStep .high .low s)) := rfl

theorem foldl_shedStep_nothing {l : List (Level × Level)}
    (h : ∀ x ∈ l, ∀ k ∈ s.fba.startList, s.fba.beff < s.fba.committed → s.sheddable k x.1 x.2 = false) :
    l.foldl (fun s x => shedStep x.1 x.2 s) s = s := by
  induction l with
  | nil => rfl
  | cons x l ih =>
    rw [List.foldl_cons, shedStep_nothing (h x List.mem_cons_self)]
    exact ih fun y hy => h y (List.mem_cons_of_mem x hy)

/-- R65: the first step that sheds a machine sheds enough. -/
theorem foldl_shedStep_first {before after : List (Level × Level)} {older newer : List Addr}
    (hl : s.fba.startList = older ++ m :: newer) (hover : s.fba.beff < s.fba.committed)
    (hbefore : ∀ x ∈ before, ∀ k ∈ s.fba.startList, s.sheddable k x.1 x.2 = false)
    (hm : s.sheddable m upper lower = true) (hnew : ∀ k ∈ newer, s.sheddable k upper lower = false)
    (hin : (shedOne m lower s).fba.committed ≤ (shedOne m lower s).fba.beff) :
    (before ++ (upper, lower) :: after).foldl (fun s x => shedStep x.1 x.2 s) s = shedOne m lower s := by
  rw [List.foldl_append, foldl_shedStep_nothing fun x hx k hk _ => hbefore x hx k hk, List.foldl_cons,
    shedStep_first hl hover hm hnew hin]
  exact foldl_shedStep_nothing fun x _ k _ hb => absurd hin (Nat.not_le.mpr hb)

/-! ## The machine that is shed (R66) -/

/-- R66: a machine that wants its level as it is, with no RAISE entry waiting, has been shed. -/
structure ShedTo (m : Addr) (upper lower : Level) (s t : State) : Prop where
  grant     : t.grant m = { (s.grant m).regrant lower (s.grant m).fill with pending := (s.grant m).pending || (s.node m).known }
  grants    : ∀ k, k ≠ m → t.grant k = s.grant k
  fba       : t.fba = { s.fba with
    entries := t.fba.entries, arrivals := s.fba.nextArrival
    raises := [{ machine := m, level := upper, fill := (s.grant m).fill, arrival := s.fba.arrivals
                 timer := s.sst.working.limits.raiseWait * 60 }] }
  committed : t.fba.committed + (s.grant m).draw = s.fba.committed + (s.grant m).drawOf lower
  levelled  : (s.node m).known = true → Levelled t m lower (s.grant m).fill
  changes   : ChangesOnly [.mbc, .fba] s t

theorem shedTo_shedOne (hr : s.fba.raises = []) (hw : (s.grant m).wanted = some (upper, (s.grant m).fill)) :
    ShedTo m upper lower s (shedOne m lower s) := by
  have hd := regranted_changeGrant m lower (s.grant m).fill s
  have hsst : (changeGrant m lower (s.grant m).fill s).sst = s.sst := hd.changes.at .sst
  have hra : (changeGrant m lower (s.grant m).fill s).fba.raises = [] := by
    rw [hd.fba]
    exact hr
  have heq : shedOne m lower s = addRaise m upper (s.grant m).fill (changeGrant m lower (s.grant m).fill s) := by
    unfold shedOne
    dsimp only
    rw [hw]
    exact if_neg (by rw [Fba.hasRaise, hra]; simp)
  rw [heq]
  generalize changeGrant m lower (s.grant m).fill s = v at *
  have hadd := addRaise_changes m upper (s.grant m).fill v
  exact
    { grant := hd.grant
      grants := hd.grants
      fba := by
        unfold addRaise Fba.nextArrival
        rw [State.withFba_fba, hra, List.nil_append, hsst, hd.fba]
      committed := hd.sums.1
      levelled := fun hk => by
        unfold Levelled
        rw [hadd.at .mbc]
        exact hd.levelled hk
      changes := hd.changes.seq hadd }

/-- R59, R66: what has been shed does not come back at once. -/
theorem grantHead_shed {t : State} (h : ShedTo m upper lower s t) (hfull : (s.grant m).draw = (s.grant m).drawOf upper)
    (hover : s.fba.beff < s.fba.committed) (b : Bool) : grantHead (t.withFba { t.fba with overBudget := b }) = none := by
  have hra : (t.withFba { t.fba with overBudget := b }).fba.raises =
      [{ machine := m, level := upper, fill := (s.grant m).fill, arrival := s.fba.arrivals
         timer := s.sst.working.limits.raiseWait * 60 }] := by
    rw [State.withFba_fba, h.fba]
  rw [grantHead_raise hra]
  refine grantRaise_held fun hroom => ?_
  have hroom1 : t.fba.committed - (t.grant m).draw + (t.grant m).drawOf upper ≤ t.fba.beff := hroom.1
  have hbeff : t.fba.beff = s.fba.beff := by rw [h.fba]
  have hdr : (t.grant m).draw = (s.grant m).drawOf lower ∧ (t.grant m).drawOf upper = (s.grant m).drawOf upper := by
    rw [h.grant]
    exact ⟨rfl, rfl⟩
  have := h.committed
  omega

theorem draw_le_committed (m : Addr) (s : State) : (s.grant m).draw ≤ s.fba.committed := by
  have h := committed_setGrant m { s.grant m with draw := 0 } s
  dsimp only at h
  omega

/-! ## The check (R67) -/

/-- R67: nothing is sheddable, and OVER_BUDGET is declared. -/
theorem budgetCheck_nothing (hover : s.fba.beff < s.fba.committed)
    (h : ∀ x ∈ shedLevels, ∀ k ∈ s.fba.startList, s.sheddable k x.1 x.2 = false) :
    budgetCheck s = setEventIf (!s.fba.overBudget) .overBudget (s.withFba { s.fba with overBudget := true }) := by
  unfold budgetCheck
  rw [← foldl_shedLevels, foldl_shedStep_nothing fun x hx k hk _ => h x hx k hk]
  exact if_neg (Nat.not_le.mpr hover)

/-- R65, R67: one shed brings committed draw within B_eff. -/
theorem budgetCheck_first {before after : List (Level × Level)} {older newer : List Addr}
    (hsteps : shedLevels = before ++ (upper, lower) :: after)
    (hl : s.fba.startList = older ++ m :: newer) (hover : s.fba.beff < s.fba.committed)
    (hbefore : ∀ x ∈ before, ∀ k ∈ s.fba.startList, s.sheddable k x.1 x.2 = false)
    (hm : s.sheddable m upper lower = true) (hnew : ∀ k ∈ newer, s.sheddable k upper lower = false)
    (hr : s.fba.raises = []) (hw : (s.grant m).wanted = some (upper, (s.grant m).fill))
    (hfull : (s.grant m).draw = (s.grant m).drawOf upper)
    (hin : s.fba.committed - (s.grant m).draw + (s.grant m).drawOf lower ≤ s.fba.beff) :
    ∃ t, ShedTo m upper lower s t ∧ t.fba.committed ≤ t.fba.beff ∧
      budgetCheck s = t.withFba { t.fba with overBudget := false } := by
  have hd := shedTo_shedOne (lower := lower) hr hw
  have hbeff : (shedOne m lower s).fba.beff = s.fba.beff := by rw [hd.fba]
  have hdraw := draw_le_committed m s
  have hcom : (shedOne m lower s).fba.committed ≤ (shedOne m lower s).fba.beff := by
    have := hd.committed
    omega
  refine ⟨_, hd, hcom, ?_⟩
  have hhead := grantHead_shed hd hfull hover false
  unfold budgetCheck
  dsimp only
  rw [← foldl_shedLevels, hsteps, foldl_shedStep_first hl hover hbefore hm hnew hcom, if_pos hcom]
  unfold review clearOverBudget
  rw [if_pos hcom]
  unfold reexamine
  exact (if_neg (by simp)).trans (grantHeads_of_none hhead _)

end

/-! ## SET BUDGET (R52, R65) -/

/-- R52: the state in which B_eff follows new figures. -/
def State.withBudget (s : State) (b p beff : Nat) : State :=
  (s.withFigures b p).withFba { s.fba with beff := beff }

theorem exec_setBudget {budget : Word16} {percent : Byte} {s : State} (hs : s.Serves (.setBudget budget percent))
    (hc : s.sst.commit = none) {b p beff : Nat} (hb : b = clamp 100 8000 budget.toNat) (hp : p = clamp 30 100 percent.toNat)
    (hbeff : beff = if s.fba.demand = .shed then b * p / 100 else b) (hne : b ≠ s.sst.working.budget ∨ p ≠ s.sst.working.shed)
    (hover : beff < s.fba.committed) :
    ∃ t, exec (.setBudget budget percent) s = .next t ∧ ChangesOnly [.hli] (budgetCheck (s.withBudget b p beff)) t := by
  have hcond : ¬(b = s.sst.working.budget ∧ p = s.sst.working.shed) := fun h => hne.elim (· h.1) (· h.2)
  have hrec : recomputeBudget (s.withFigures b p) = budgetCheck (s.withBudget b p beff) := by
    unfold recomputeBudget
    rw [withFigures_effectiveBudget, ← hbeff]
    exact if_pos hover
  have hf := setBudget_free (b := budget) (p := percent) hc
  dsimp only at hf
  rw [← hb, ← hp, if_neg hcond, hrec] at hf
  refine ⟨_, rfl, ?_⟩
  rw [serve_of_serves hs, answerRequest_eq hf]
  exact putReply_changes _ _ _

/-- R63, R65: whether the machine that was shed is on hold. -/
theorem onHold_shed {m : Addr} {upper lower : Level} {s t : State} {z : Session} (h : ShedTo m upper lower s t)
    (hstep : (upper, lower) ∈ shedLevels) (hz : (s.record m).session = some z) (hk : z.figures.kind = upper.kind)
    (hg : (s.grant m).granted = some upper) (hw : (s.grant m).wanted = some (upper, (s.grant m).fill)) :
    t.onHold m = decide (lower ≠ .low) := by
  have hzt : (t.record m).session = some z := by rw [h.changes.record m, hz]
  have hheld : (t.grant m).held = (s.grant m).holdAt lower := by
    rw [h.grant]
    rfl
  have hraise : t.fba.hasRaise m = true := by
    rw [Fba.hasRaise, h.fba]
    simp
  unfold State.onHold
  rw [hzt]
  dsimp only
  rw [hk]
  simp only [shedLevels, List.mem_cons, Prod.mk.injEq, List.not_mem_nil, or_false] at hstep
  rcases hstep with ⟨rfl, rfl⟩ | ⟨rfl, rfl⟩ | ⟨rfl, rfl⟩
  · exact hheld
  · refine hheld.trans ?_
    unfold GrantEntry.holdAt GrantEntry.wantsHeat
    rw [hg, hw]
    rfl
  · exact hraise

/-- Settles O43: nothing is shed, or the first that is sheddable suffices. -/
theorem shedsNewestFirst : Obligations.ShedsNewestFirst := by
  intro budget percent s hs hc
  by_cases hcond : ((max 100 (min 8000 budget.toNat) ≠ s.sst.working.budget ∨ max 30 (min 100 percent.toNat) ≠ s.sst.working.shed) ∧
      (if s.fba.demand = .shed then max 100 (min 8000 budget.toNat) * max 30 (min 100 percent.toNat) / 100
        else max 100 (min 8000 budget.toNat)) < s.fba.committed)
  case neg =>
    obtain ⟨t, ht, -⟩ := setBudget_answers hs hc
    exact ⟨t, ht, fun h1 h2 => absurd ⟨h1, h2⟩ hcond⟩
  obtain ⟨t, ht, hch⟩ := exec_setBudget hs hc rfl rfl rfl hcond.1 hcond.2
  refine ⟨t, ht, ?_⟩
  intro b p beff sheds steps hne hover
  have hfba : t.fba = (budgetCheck (s.withBudget b p beff)).fba := hch.at .fba
  have hmsv : t.msv = (budgetCheck (s.withBudget b p beff)).msv := hch.at .msv
  have hmbc : t.mbc = (budgetCheck (s.withBudget b p beff)).mbc := hch.at .mbc
  have hevu : t.evu = (budgetCheck (s.withBudget b p beff)).evu := hch.at .evu
  have hrecord : ∀ k, t.record k = (budgetCheck (s.withBudget b p beff)).record k := hch.record
  have hno : ∀ k x y, ¬sheds k x y → (s.withBudget b p beff).sheddable k x y = false := fun k x y h =>
    Bool.eq_false_iff.mpr fun hs => h (sheddable_iff.mp hs)
  refine ⟨fun hnone => ?_, fun older m newer before upper lower after hl hsteps hm hnew hbefore hr hw hfull hin => ?_⟩
  · have hcheck := budgetCheck_nothing (s := s.withBudget b p beff) hover fun x hx k hk => hno k _ _ (hnone k hk x hx)
    have hset := setEventIf_changes (!s.fba.overBudget) .overBudget
      ((s.withBudget b p beff).withFba { (s.withBudget b p beff).fba with overBudget := true })
    rw [hfba, hmsv, hmbc, hevu, hcheck]
    refine ⟨hset.at .fba, hset.at .msv, hset.at .mbc, ?_⟩
    show (setEventIf (!s.fba.overBudget) .overBudget _).evu = _
    cases s.fba.overBudget <;> rfl
  · obtain ⟨u, hu, hcom, hcheck⟩ := budgetCheck_first (s := s.withBudget b p beff) (m := m) hsteps hl hover
      (fun x hx k hk => hno k _ _ (hbefore k hk x hx)) (sheddable_iff.mpr hm) (fun k hk => hno k _ _ (hnew k hk)) hr hw hfull hin
    have hgrant : ∀ k, t.grant k = u.grant k := fun k => by
      rw [State.grant, hfba, hcheck]
      rfl
    have hdraw := draw_le_committed m s
    have hsum : u.fba.committed + (s.grant m).draw = s.fba.committed + (s.grant m).drawOf lower := hu.committed
    have hu2 : u.mbc = t.mbc := by
      rw [hmbc, hcheck]
      rfl
    refine ⟨by rw [hgrant, hu.grant]; rfl, by rw [hgrant, hu.grant]; rfl, by rw [hgrant, hu.grant]; rfl, fun hk => ⟨?_, ?_⟩, ?_,
      fun z hz hzk => ?_, fun k hk => by rw [hgrant, hu.grants k hk]; rfl, ?_, ?_, ?_, ?_⟩
    · rw [hgrant, hu.grant]
      show (_ || (s.node m).known) = true
      rw [hk, Bool.or_true]
    · unfold Levelled
      rw [← hu2]
      exact hu.levelled hk
    · rw [hfba, hcheck, State.withFba_fba, hu.fba]
      rfl
    · have hmem : (upper, lower) ∈ shedLevels := by
        show (upper, lower) ∈ steps
        rw [hsteps]
        simp
      have hhold := onHold_shed hu hmem hz hzk hm.2.2.1 hw
      have hsame : t.onHold m = u.onHold m := by
        unfold State.onHold
        rw [hgrant, hrecord, hcheck, hfba, hcheck]
        rfl
      rw [hsame, hhold]
    · rw [hfba, hcheck, State.withFba_fba, hu.fba]
      rfl
    · rw [hmsv, hcheck]
      exact hu.changes.at .msv
    · rw [hfba, hcheck]
      rfl
    · rw [hfba, hcheck]
      show u.fba.committed = _
      omega

end Sys2Proof.Machine
end


section
/-! PROOF. The resolution of a RECOVERING record (R27). -/
namespace Sys2Proof.Machine

section
variable {m : Addr} {s t u w : State} {r : NodeReport}

/-! ## A report while no command waits for its node -/

/-- R3, R32: the state in which MSV takes a report of the right kind, where no command waits for the node. -/
structure Calmly (m : Addr) (r : NodeReport) (s w : State) : Prop where
  record  : w.record m = (s.record m).withReport r
  records : ∀ k, k ≠ m → w.record k = s.record k
  grant   : w.grant m = (s.grant m).reporting (s.node m).silentMark false
  grants  : ∀ k, k ≠ m → w.grant k = s.grant k
  node    : w.node m = (s.node m).reporting r
  queue   : w.mbc.queue = s.mbc.queue
  fba     : w.fba = { s.fba with entries := w.fba.entries }
  sums    : w.fba.committed = s.fba.committed ∧ w.fba.fillCount = s.fba.fillCount
  changes : ChangesOnly [.msv, .mbc, .fba] s w

theorem report_calmly {rep : SlotReport} (hrep : ReportTaken s m rep r) (hactive : s.mbc.discovery.active = false)
    (hno : ∀ e ∈ s.mbc.queue, e.addr ≠ m) (hkind : (s.record m).kind = some r.kind) :
    ∃ w, Calmly m r s w ∧ exec (.validReport m rep) s = .next (reportTail m r false (applyNodeState m r w)) := by
  have hw := arrived_arrived hrep.2.2.2
  obtain ⟨hrec, hgrant, hqueue⟩ := hw.calm hno
  have hexec := exec_report hrep
  rw [kindDiffers_of_same hkind, answeredBy_of_inactive hactive] at hexec
  refine ⟨_, ?_, hexec⟩
  generalize arrived m r s = w at *
  rw [reporting_calm, storedKind hkind, ← hkind] at hrec
  exact
    { record := hrec, records := hw.records, grant := hgrant, grants := hw.grants, node := hw.node, queue := hqueue, fba := hw.fba
      sums := hw.sums, changes := hw.changes }

/-- R38: no fault code is handed on, and FBA's part of the report is its last. -/
structure Quiet (m : Addr) (y t : State) : Prop where
  nodes   : ∀ k, k ≠ m → t.node k = y.node k
  queue   : t.mbc.queue = y.mbc.queue
  changes : ChangesOnly [.mbc] y t

theorem Quiet.waits {y : State} (h : Quiet m y t) (k : Addr) (c : CommandClass) : t.mbc.waiting k c = y.mbc.waiting k c := by
  unfold Mbc.waiting
  rw [h.queue]

theorem Quiet.commanded {y : State} (h : Quiet m y t) {c : BusCommand} (hc : Commanded y m c) : Commanded t m c := by
  unfold Commanded at hc ⊢
  rw [h.waits]
  exact hc

theorem quiet_reportTail (h : r.fault = none ∨ (u.node m).lastFault = r.fault) :
    Quiet m (feederReport m r u) (reportTail m r false u) := by
  cases hf : r.fault with
  | none =>
    have ht := reported_reportTail (m := m) hf false u
    exact ⟨ht.nodes, ht.queue rfl, ht.changes⟩
  | some k =>
    have hlast : ((feederReport m r u).node m).lastFault = some k := by
      rw [(allots_feederReport m m r u).node, ← hf]
      exact h.resolve_left (by rw [hf]; simp)
    have heq : reportTail m r false u = feederReport m r u := by
      unfold reportTail faultCode
      rw [hf]
      exact if_pos hlast
    rw [heq]
    exact ⟨fun _ _ => rfl, rfl, .refl _ _⟩

/-! ## The branches of R27 -/

theorem applyNodeState_recovering (hx : (s.record m).state = .recovering) : applyNodeState m r s = resolveReport m r s := by
  unfold applyNodeState
  rw [hx]

theorem endRecovery_of {x : Retained} (hx : (s.record m).state = .recovering) (hret : (s.record m).retained = some x) :
    (endRecovery m s).record m = { s.record m with state := x.state, retained := none } := by
  have h := endRecovery_record (m := m) (s := s) (x := x.state) (.inr ⟨hx, by rw [hret]; rfl⟩) (by cases x <;> simp [Retained.state])
  rw [h, if_pos hx]

theorem resolve_goesOn (hx : (s.record m).state = .recovering) (hret : (s.record m).retained = some .running)
    (hr : r.state = .nRun ∨ r.state = .nFault) : resolveReport m r s = endRecovery m s := by
  unfold resolveReport
  rw [hret]
  rcases hr with h | h
  · rw [h]
  · rw [h]
    exact if_pos (by rw [endRecovery_of hx hret]; rfl)

theorem resolve_ends (hret : (s.record m).retained = some .running)
    (hr : r.state = .nEnd ∨ r.state = .nIdle ∨ r.state = .nStopped) :
    resolveReport m r s = normalEnd m (if r.state = .nEnd then .done else .idle) (endRecovery m s) := by
  unfold resolveReport
  rw [hret]
  rcases hr with h | h | h <;> rw [h] <;> rfl

theorem resolve_lost (hret : (s.record m).retained = some .running) (hr : r.state = .nArmed ∨ r.state = .nStart) :
    resolveReport m r s = selfAbort m .runLost (endRecovery m s) := by
  unfold resolveReport
  rw [hret]
  rcases hr with h | h <;> rw [h]

variable {x : Retained}

theorem resolve_fault (hret : (s.record m).retained = some x) (hx : (s.record m).state = .recovering) (hne : x ≠ .running)
    (hr : r.state = .nFault) : resolveReport m r s = disarmIfClosed m (endRecovery m s) := by
  have hst : ((endRecovery m s).record m).state ≠ .running := by
    rw [endRecovery_of hx hret]
    cases x <;> simp [Retained.state] at hne ⊢
  unfold resolveReport
  rw [hret, hr]
  exact if_neg hst

theorem resolve_armed (hret : (s.record m).retained = some x) (hne : x ≠ .running) (hr : r.state = .nArmed) :
    resolveReport m r s = disarmIfClosed m (resolveArmed m s) := by
  unfold resolveReport
  rw [hret, hr]
  cases x with
  | running => exact absurd rfl hne
  | armed | starting => rfl

theorem resolve_rearmed (hret : (s.record m).retained = some x) (hne : x ≠ .running)
    (hr : r.state = .nIdle ∨ r.state = .nEnd ∨ r.state = .nStopped) :
    resolveReport m r s = disarmIfClosed m (queueArm m (resolveArmed m s)) := by
  unfold resolveReport
  rw [hret]
  rcases hr with h | h | h <;> rw [h] <;> cases x <;> first | rfl | exact absurd rfl hne

theorem resolve_starts (hret : (s.record m).retained = some x) (hne : x ≠ .running) (hr : r.state = .nStart ∨ r.state = .nRun) :
    resolveReport m r s = resolveStarting m r.wanted s := by
  unfold resolveReport
  rw [hret]
  rcases hr with h | h <;> rw [h] <;> cases x <;> first | rfl | exact absurd rfl hne

/-! ## What the branches leave of the record (R11, R27) -/

theorem resolveArmed_record {z : Session} (hz : (s.record m).session = some z) :
    (resolveArmed m s).record m = { s.record m with
      state := .armed, retained := none
      session := some { z with startWindow := s.sst.working.limits.startWindow * 60, startWait := 0 } } := by
  have hself : (mapRecord m (fun x => { x with state := .armed, retained := none }) s).record m =
      { s.record m with state := .armed, retained := none } := by simp [mapRecord]
  unfold resolveArmed
  rw [mapSession_record (z := z) (by rw [hself]; exact hz), hself]

/-- R9: ARM has been queued again. -/
structure Rearmed (m : Addr) (z : Session) (s t : State) : Prop where
  record  : t.record m = { s.record m with session := some { z with armAcked := false } }
  records : ∀ k, k ≠ m → t.record k = s.record k
  node    : ∀ k, t.node k = s.node k
  command : (s.node m).known = true → Commanded t m (.arm z.program z.option)
  changes : ChangesOnly [.msv, .mbc] s t

theorem rearmed_queueArm {z : Session} (hz : (s.record m).session = some z) : Rearmed m z s (queueArm m s) := by
  have h1 := mapSession_changes m (fun z => { z with armAcked := false }) s
  have hrec := mapSession_record hz fun z => { z with armAcked := false }
  have hne : ∀ k, k ≠ m → _ := fun k hk => mapSession_record_ne hk (fun z => { z with armAcked := false }) s
  rw [queueArm_of hz]
  generalize s.mapSession m (fun z => { z with armAcked := false }) = u at *
  have h2 := queueControl_changes m (.arm z.program z.option) u
  exact
    { record := by rw [h2.record m, hrec]
      records := fun k hk => by rw [h2.record k, hne k hk]
      node := fun k => (node_queueControl m k _ u).trans (h1.node k)
      command := fun hk => commanded_queueControl rfl (by rw [h1.node m]; exact hk)
      changes := h1.seq h2 }

/-- The node states as R27 tells them apart. -/
theorem nodeStates (n : NodeState) :
    n = .nFault ∨ n = .nArmed ∨ (n = .nIdle ∨ n = .nEnd ∨ n = .nStopped) ∨ (n = .nStart ∨ n = .nRun) := by
  cases n <;> simp

/-- R11 steps 1 to 4: a record that enters STARTING. -/
structure BegunStarting (m : Addr) (z : Session) (s t : State) : Prop where
  record  : t.record m = { s.record m with
    state := .starting, session := some { z with startWait := s.sst.working.limits.startWait * 60 } }
  records : ∀ k, k ≠ m → t.record k = s.record k
  node    : ∀ k, t.node k = s.node k
  command : (s.node m).known = true → Commanded t m .hold
  changes : ChangesOnly [.msv, .mbc] s t

theorem begunStarting_beginStarting {z : Session} (hz : (s.record m).session = some z) : BegunStarting m z s (beginStarting m s) := by
  have h1 := mapRecord_changes m (fun x => { x with state := .starting }) s
  have hself : (mapRecord m (fun x => { x with state := .starting }) s).record m = { s.record m with state := .starting } := by
    simp [mapRecord]
  have hother : ∀ k, k ≠ m → (mapRecord m (fun x => { x with state := .starting }) s).record k = s.record k := fun k hk => by
    simp [mapRecord, hk.symm]
  unfold beginStarting
  generalize mapRecord m (fun x => { x with state := .starting }) s = u at *
  have h2 := mapSession_changes m (fun z => { z with startWait := s.sst.working.limits.startWait * 60 }) u
  have hrec := mapSession_record (m := m) (s := u) (z := z) (by rw [hself]; exact hz)
    fun z => { z with startWait := s.sst.working.limits.startWait * 60 }
  have hne : ∀ k, k ≠ m → _ := fun k hk =>
    mapSession_record_ne hk (fun z => { z with startWait := s.sst.working.limits.startWait * 60 }) u
  generalize u.mapSession m (fun z => { z with startWait := s.sst.working.limits.startWait * 60 }) = v at *
  have h12 : ChangesOnly [.msv] s v := h1.seq h2
  have h3 := queueControl_changes m .hold v
  exact
    { record := by rw [h3.record m, hrec, hself]
      records := fun k hk => by rw [h3.record k, hne k hk, hother k hk]
      node := fun k => (node_queueControl m k .hold v).trans (h12.node k)
      command := fun hk => commanded_queueControl rfl (by rw [h12.node m]; exact hk)
      changes := h12.seq h3 }

/-- R11 step 5: the START entry that MSV asks for. -/
def startFor (m : Addr) (s : State) (k : Kind) (wanted : Level) : AdmEntry :=
  { machine := m, level := if k = .washer then .base else wanted, fill := decide (k = .washer), arrival := s.fba.arrivals, timer := 0 }

/-- R11, R58: the START entry at the tail of its group. -/
def State.withStart (s : State) (m : Addr) (k : Kind) (wanted : Level) : State :=
  s.withFba { s.fba with starts := s.fba.starts ++ [startFor m s k wanted], arrivals := s.fba.nextArrival }

theorem withStart_changes (m : Addr) (k : Kind) (wanted : Level) (s : State) : ChangesOnly [.fba] s (s.withStart m k wanted) :=
  withFba_changes _ s

theorem askStart_new {z : Session} (hz : (s.record m).session = some z) (hs : s.fba.hasStart m = false) (wanted : Level) :
    askStart m wanted s = s.withStart m z.figures.kind wanted := by
  have hadd : ∀ l f, addStart m l f s = s.withFba { s.fba with
      starts := s.fba.starts ++ [{ machine := m, level := l, fill := f, arrival := s.fba.arrivals, timer := 0 }]
      arrivals := s.fba.nextArrival } := fun l f => if_neg (by rw [hs]; simp)
  unfold askStart
  rw [hz]
  dsimp only
  cases hk : z.figures.kind with
  | washer => exact hadd _ _
  | dryer => exact hadd _ _

/-! ## OVER_BUDGET holds the queue (R59, R67) -/

theorem review_over (ho : s.fba.overBudget = true) (hb : s.fba.beff < s.fba.committed) : review s = s := by
  unfold review clearOverBudget
  rw [if_neg (Nat.not_le.mpr hb)]
  exact if_pos ho

/-- R55: FBA's part of a report in STARTING. -/
theorem feederReport_starting (hx : (s.record m).state = .starting) (r : NodeReport) : feederReport m r s =
    if (s.grant m).granted.any (fun g => g.kind != r.kind) then mapGrant m (·.reported r) s
    else if r.kind = .dryer ∧ s.fba.hasStart m = true then review (addStart m r.wanted false (mapGrant m (·.reported r) s))
    else mapGrant m (·.reported r) s := by
  have hrec : (mapGrant m (·.reported r) s).record m = s.record m := (mapGrant_changes m _ s).record m
  have hst : (mapGrant m (·.reported r) s).fba.hasStart m = s.fba.hasStart m := rfl
  unfold feederReport
  dsimp only
  rw [mapGrant_self, (sameGrant_reported _ r).granted, hrec, hx, hst]
  simp only [Bool.and_eq_true, decide_eq_true_eq]

/-- R58: a target set in place that stands already. -/
theorem addStart_same {l : Level} {f : Bool} (hs : s.fba.hasStart m = true)
    (h : ∀ e ∈ s.fba.starts, e.machine = m → e.level = l ∧ e.fill = f) : addStart m l f s = s := by
  have hmap : (s.fba.starts.map fun e => if e.machine == m then { e with level := l, fill := f } else e) = s.fba.starts := by
    refine (List.map_congr_left fun e he => ?_).trans (List.map_id _)
    by_cases hm : e.machine = m
    · obtain ⟨rfl, rfl⟩ := h e he hm
      simp
    · simp [hm]
  unfold addStart
  rw [if_pos hs, hmap]
  rfl

theorem sums_reported (m : Addr) (r : NodeReport) (s : State) :
    (mapGrant m (·.reported r) s).fba.committed = s.fba.committed ∧ (mapGrant m (·.reported r) s).fba.fillCount = s.fba.fillCount := by
  have hd := (sameGrant_reported (s.grant m) r).draw
  have hf := (sameGrant_reported (s.grant m) r).fill
  have h := Hears.setGrant (m := m) (s := s) hd hf
  exact h.sums

/-- R58, R59: while OVER_BUDGET holds the queue a report in STARTING notes its levels, where the entry has what is wanted. -/
theorem feederReport_heldStart (hx : (s.record m).state = .starting) (ho : s.fba.overBudget = true)
    (hb : s.fba.beff < s.fba.committed)
    (h : r.kind = .dryer → ∀ e ∈ s.fba.starts, e.machine = m → e.level = r.wanted ∧ e.fill = false) :
    feederReport m r s = mapGrant m (·.reported r) s := by
  rw [feederReport_starting hx]
  split
  · rfl
  · split
    · next hc =>
      rw [addStart_same (s := mapGrant m (·.reported r) s) hc.2 (h hc.1)]
      exact review_over ho (by rw [(sums_reported m r s).1]; exact hb)
    · rfl

/-- R55: without an entry too it notes its levels. -/
theorem feederReport_noStart (hx : (s.record m).state = .starting) (hs : s.fba.hasStart m = false) :
    feederReport m r s = mapGrant m (·.reported r) s := by
  rw [feederReport_starting hx, hs]
  simp

/-- R55: FBA has only noted a report's levels. -/
structure Rested (m : Addr) (r : NodeReport) (u t : State) : Prop where
  grant   : t.grant m = (u.grant m).reported r
  grants  : ∀ k, k ≠ m → t.grant k = u.grant k
  nodes   : ∀ k, k ≠ m → t.node k = u.node k
  queue   : t.mbc.queue = u.mbc.queue
  fba     : t.fba = { u.fba with entries := t.fba.entries }
  sums    : t.fba.committed = u.fba.committed ∧ t.fba.fillCount = u.fba.fillCount
  changes : ChangesOnly [.mbc, .fba] u t

theorem Rested.commanded {c : BusCommand} (h : Rested m r u t) (hc : Commanded u m c) : Commanded t m c := by
  unfold Commanded Mbc.waiting at hc ⊢
  rw [h.queue]
  exact hc

theorem rested_reportTail (h : r.fault = none ∨ (u.node m).lastFault = r.fault)
    (hfr : feederReport m r u = mapGrant m (·.reported r) u) : Rested m r u (reportTail m r false u) := by
  have hq := quiet_reportTail h
  rw [hfr] at hq
  have hg := mapGrant_changes m (·.reported r) u
  have hself := mapGrant_self (m := m) (·.reported r) u
  have hother : ∀ k, k ≠ m → (mapGrant m (·.reported r) u).grant k = u.grant k := fun k hk => by simp [mapGrant, Ne.symm hk]
  have hfba := mapGrant_queues (m := m) (·.reported r) u
  have hsums := sums_reported m r u
  generalize mapGrant m (·.reported r) u = v at *
  generalize reportTail m r false u = t at *
  exact
    { grant := (hq.changes.grant m).trans hself
      grants := fun k hk => (hq.changes.grant k).trans (hother k hk)
      nodes := fun k hk => (hq.nodes k hk).trans (hg.node k)
      queue := by rw [hq.queue, hg.at .mbc]
      fba := by rw [hq.changes.at .fba, hfba]
      sums := by rw [hq.changes.at .fba]; exact hsums
      changes := hg.seq hq.changes }

/-! ## The resolutions (R27) -/

section
variable {x : Retained} {z : Session}

/-- R27: the record that a resolution leaves, but for its state and session. -/
def MachineRecord.resolved (x : MachineRecord) (r : NodeReport) : MachineRecord := { x.withReport r with retained := none }

theorem Calmly.lastFault (h : Calmly m r s w) (hl : r.fault = none ∨ (s.node m).lastFault = r.fault) (hu : u.node m = w.node m) :
    r.fault = none ∨ (u.node m).lastFault = r.fault := by
  rw [hu, h.node]
  exact hl

/-- R27: a run that goes on. -/
theorem resolved_goesOn (hw : Calmly m r s w) (hl : r.fault = none ∨ (s.node m).lastFault = r.fault)
    (hx : (s.record m).state = .recovering) (hret : (s.record m).retained = some .running)
    (hs : s.fba.hasStart m = false) (hr : r.state = .nRun ∨ r.state = .nFault) :
    (reportTail m r false (applyNodeState m r w)).record m = { (s.record m).resolved r with state := .running } ∧
    (reportTail m r false (applyNodeState m r w)).jrn = s.jrn ∧ (reportTail m r false (applyNodeState m r w)).cru = s.cru := by
  have hwx : (w.record m).state = .recovering := by rw [hw.record]; exact hx
  have hwr : (w.record m).retained = some .running := by rw [hw.record]; exact hret
  rw [applyNodeState_recovering hwx, resolve_goesOn hwx hwr hr]
  have hrec := endRecovery_of hwx hwr
  have he := endRecovery_changes m w
  generalize endRecovery m w = u at *
  have hus : u.fba.hasStart m = false := by rw [he.at .fba, hw.fba]; exact hs
  have hstand := stands_feederReport (m := m) (r := r) (s := u) (by rw [hrec]; simp [Retained.state]) hus
  have hf := feederReport_changes m r u
  have hq := quiet_reportTail (hw.lastFault hl (he.node m))
  have hall := ((hw.changes.seq he (rs := [.msv, .mbc, .fba, .evu])).seq hf (rs := [.msv, .mbc, .fba, .evu])).seq hq.changes
    (rs := [.msv, .mbc, .fba, .evu])
  refine ⟨?_, hall.at .jrn, hall.at .cru⟩
  rw [hq.changes.record m, hstand.1, hrec, hw.record]
  rfl

/-- R18, R27: a run that has ended. -/
theorem resolved_ends (hw : Calmly m r s w) (hl : r.fault = none ∨ (s.node m).lastFault = r.fault)
    (hx : (s.record m).state = .recovering) (hret : (s.record m).retained = some .running) (hz : (s.record m).session = some z)
    (hr : r.state = .nEnd ∨ r.state = .nIdle ∨ r.state = .nStopped) :
    let t := reportTail m r false (applyNodeState m r w)
    (t.record m).state = (if r.state = .nEnd then .done else .idle) ∧
    (t.record m).unloadTimer = (if r.state = .nEnd then 1800 else 0) ∧ (t.record m).session = none ∧
    (t.record m).retained = none ∧ (t.grant m).granted = none ∧
    ((s.grant m).granted ≠ none → (t.grant m).draw = 0 ∧ m ∉ t.fba.startList) ∧
    t.evu.isSet .cycleEnd = true ∧ (t.faults m).stopCount = 0 ∧ t.cru = s.cru := by
  have hwx : (w.record m).state = .recovering := by rw [hw.record]; exact hx
  have hwr : (w.record m).retained = some .running := by rw [hw.record]; exact hret
  intro t
  have ht : t = reportTail m r false (applyNodeState m r w) := rfl
  rw [applyNodeState_recovering hwx, resolve_ends hwr hr] at ht
  have hrec := endRecovery_of hwx hwr
  have he := endRecovery_changes m w
  generalize endRecovery m w = u at *
  generalize hd : (if r.state = NodeState.nEnd then MState.done else .idle) = d at *
  have hn := normallyEnded_normalEnd (m := m) (s := u) d (z := z) (by rw [hrec, hw.record]; exact hz)
  generalize normalEnd m d u = y at *
  have hland : (u.record m).landing d = d := by
    rw [hrec, hw.record, ← hd]
    split <;> rfl
  have hyrec := hn.record
  rw [hland] at hyrec
  have hyx : (y.record m).state = d := by rw [hyrec]
  have hrest := rested_reportTail (m := m) (r := r) (u := y) (hw.lastFault hl (hn.node.trans (he.node m)))
    (feederReport_rests (by rw [hyx, ← hd]; split <;> simp))
  rw [← ht] at hrest
  clear_value t
  have hug : u.grant m = w.grant m := he.grant m
  have hgr : (u.grant m).granted = (s.grant m).granted := by rw [hug, hw.grant]; rfl
  have hall := (hw.changes.seq he (rs := [.msv, .mbc, .fba])).seq (hn.changes.seq hrest.changes
    (rs := [.msv, .mbc, .fba, .flm, .jrn, .evu])) (rs := [.msv, .mbc, .fba, .flm, .jrn, .evu])
  have hsame := sameGrant_reported (y.grant m) r
  have hunload : (if d = .done then 1800 else 0) = if r.state = .nEnd then 1800 else 0 := by
    rw [← hd]
    split <;> rfl
  rw [hrest.changes.record m, hyrec, hrest.grant, hsame.granted, hsame.draw, hrest.changes.at .evu, hrest.changes.faults m,
    hrest.fba]
  exact ⟨rfl, hunload, rfl, rfl, hn.granted, fun h => ⟨(hn.freed (by rw [hgr]; exact h)).1, (hn.freed (by rw [hgr]; exact h)).2.2⟩,
    hn.event, hn.count, hall.at .cru⟩

/-- R20, R27, R146: a run that is found lost. -/
theorem resolved_lost (hw : Calmly m r s w) (hl : r.fault = none ∨ (s.node m).lastFault = r.fault)
    (hx : (s.record m).state = .recovering) (hret : (s.record m).retained = some .running) (hz : (s.record m).session = some z)
    (hr : r.state = .nArmed ∨ r.state = .nStart) :
    let t := reportTail m r false (applyNodeState m r w)
    let refund := z.refund .running s.sst.working.limits.grace
    SessionGone s t m z.payer refund ∧ (t.record m).state = .aborting ∧
    (t.record m).stopDest = some .faulted ∧ Commanded t m (.stop true) ∧
    t.faults m = { s.faults m with current := some (selfFault s .runLost .running z refund), openMark := true } ∧
    TookFree (s.refunded m z.payer refund) t (selfBody m .runLost z refund) ∧ t.evu.isSet .fault = true := by
  have hwx : (w.record m).state = .recovering := by rw [hw.record]; exact hx
  have hwr : (w.record m).retained = some .running := by rw [hw.record]; exact hret
  intro t refund
  have ht : t = reportTail m r false (applyNodeState m r w) := rfl
  rw [applyNodeState_recovering hwx, resolve_lost hwr hr] at ht
  have hrec := endRecovery_of hwx hwr
  have he := endRecovery_changes m w
  generalize endRecovery m w = u at *
  have hsu : ChangesOnly [.msv, .mbc, .fba] s u := hw.changes.seq he
  have hy := selfAborted_selfAbort (m := m) (s := u) (z := z) (x := .running) (by rw [hrec, hw.record]; exact hz) (.inl (by rw [hrec]; rfl))
    (.inr (.inr rfl)) (by rw [hrec, hw.record]; rfl) .runLost
  have hgrace : z.refund .running u.sst.working.limits.grace = refund := by rw [hsu.at .sst]
  rw [hgrace] at hy
  generalize selfAbort m .runLost u = y at *
  have hyx : (y.record m).state = .aborting := by rw [hy.record]; rfl
  have hun := unqueued_feederReport (m := m) (r := r) (s := y) (by rw [hyx]; simp) (by rw [hyx]; simp) hy.gone.2.2.2.2 hy.gone.2.2.2.1
  have hcmd := commanded_feederReport (r := r) (hy.command (by rw [he.node m, hw.node]; rfl))
  have hf := feederReport_changes m r y
  have hev := feederReport_setsAmong m r y
  have hq := quiet_reportTail (r := r) (hw.lastFault hl (hy.node.trans (he.node m)))
  rw [← ht] at hq
  clear_value t
  generalize feederReport m r y = v at *
  have hyt : ChangesOnly [.msv, .mbc, .fba, .evu] y t := hf.seq hq.changes
  have hbooks := booksOnly_refunded m z.payer refund s u hsu.sameBooks
  have htrec : t.record m = y.record m := (hq.changes.record m).trans hun.record
  have hfba : t.fba = v.fba := hq.changes.at .fba
  obtain ⟨hgone, htimer, hcru, -, -⟩ := hy.gone
  refine ⟨⟨by rw [htrec]; exact hgone, by rw [htrec]; exact htimer, ?_, by rw [hfba]; exact hun.start, by rw [hfba]; exact hun.raise⟩,
    by rw [htrec, hyx], by rw [htrec, hy.record]; rfl, hq.commanded hcmd, ?_, hy.took.same hbooks (hyt.at .jrn), ?_⟩
  · rw [hyt.at .cru, hcru]
    exact hbooks.cru
  · rw [hyt.faults m, hy.faults, hsu.faults m]
    unfold selfFault
    rw [hsu.stamp]
  · rw [hq.changes.at .evu, hev.flag .fault]
    exact hy.event

/-- R22, R27: in a CLOSED room a resolution to ARMED or STARTING is disarmed at once. -/
theorem resolved_closed (hw : Calmly m r s w) (hl : r.fault = none ∨ (s.node m).lastFault = r.fault)
    (hx : (s.record m).state = .recovering) (hret : (s.record m).retained = some x) (hne : x ≠ .running)
    (hz : (s.record m).session = some z) (hclosed : s.sst.roomMode = .closed) :
    let t := reportTail m r false (applyNodeState m r w)
    SessionGone s t m z.payer z.total ∧ (t.record m).state = .idle ∧ Commanded t m .disarm ∧
      t.jrn = (s.refunded m z.payer z.total).jrn ∧ t.flm = s.flm.put m { s.faults m with openMark := false } := by
  have hwx : (w.record m).state = .recovering := by rw [hw.record]; exact hx
  have hwr : (w.record m).retained = some x := by rw [hw.record]; exact hret
  have hwz : (w.record m).session = some z := by rw [hw.record]; exact hz
  have hdisarm : ∃ u z', resolveReport m r w = disarmRefund m u ∧ (u.record m).session = some z' ∧ z'.payer = z.payer ∧
      z'.total = z.total ∧ (u.record m).silent = false ∧ u.node m = w.node m ∧ ChangesOnly [.msv, .mbc, .fba] w u := by
    have hwc : w.sst.roomMode = .closed := by rw [hw.changes.at .sst]; exact hclosed
    have hws : (w.record m).silent = false := by rw [hw.record]; rfl
    have hrecA := resolveArmed_record hwz
    have hA := resolveArmed_changes m w
    have hE := endRecovery_changes m w
    have hrecE := endRecovery_of hwx hwr
    have harmed := hA.at .sst
    rcases nodeStates r.state with h | h | h | h
    · exact ⟨_, _, (resolve_fault hwr hwx hne h).trans (if_pos (by rw [hE.at .sst]; exact hwc)), (congrArg MachineRecord.session hrecE).trans hwz, rfl, rfl,
        by rw [hrecE]; exact hws, hE.node m, hE.up⟩
    · exact ⟨_, _, (resolve_armed hwr hne h).trans (if_pos (by rw [harmed]; exact hwc)), congrArg MachineRecord.session hrecA, rfl, rfl,
        by rw [hrecA]; exact hws, hA.node m, hA.up⟩
    · have hq := rearmed_queueArm (m := m) (s := resolveArmed m w) (congrArg MachineRecord.session hrecA)
      exact ⟨_, _, (resolve_rearmed hwr hne h).trans (if_pos (by rw [hq.changes.at .sst, harmed]; exact hwc)), congrArg MachineRecord.session hq.record, rfl, rfl,
        by rw [hq.record, hrecA]; exact hws, (hq.node m).trans (hA.node m), hA.seq hq.changes⟩
    · have hB := begunStarting_beginStarting (m := m) (s := endRecovery m w) (z := z) (by rw [hrecE]; exact hwz)
      have hask := askStart_changes m r.wanted (beginStarting m (endRecovery m w))
      have hEB := hE.seq hB.changes (rs := [.msv, .mbc])
      have hst : resolveStarting m r.wanted w = disarmRefund m (askStart m r.wanted (beginStarting m (endRecovery m w))) := if_pos hwc
      exact ⟨_, _, (resolve_starts hwr hne h).trans hst, congrArg MachineRecord.session ((hask.record m).trans hB.record), rfl,
        rfl,
        by rw [hask.record m, hB.record, hrecE]; exact hws, by rw [hask.node m, hB.node, hE.node m], hEB.seq hask⟩
  obtain ⟨u, z', hres, huz, hpayer, htotal, hsilent, hun, hwu⟩ := hdisarm
  intro t
  have ht : t = reportTail m r false (applyNodeState m r w) := rfl
  rw [applyNodeState_recovering hwx, hres] at ht
  have hd := disarmed_disarmRefund huz
  have hdb := hd.books
  rw [hpayer, htotal] at hdb
  generalize disarmRefund m u = y at *
  have hyx : (y.record m).state = .idle := by rw [hd.record, hsilent]; rfl
  have hrest := rested_reportTail (m := m) (r := r) (u := y) (hw.lastFault hl (hd.node.trans hun))
    (feederReport_rests (by rw [hyx]; simp))
  rw [← ht] at hrest
  clear_value t
  have hsu : ChangesOnly [.msv, .mbc, .fba] s u := hw.changes.seq hwu
  have hbooks := (booksOnly_refunded m z.payer z.total s u hsu.sameBooks).trans (hdb.trans hrest.changes.sameBooks)
  have hfba := hrest.fba
  refine ⟨⟨?_, ?_, hbooks.cru, by rw [hfba]; exact hd.start, by rw [hfba]; exact hd.raise⟩, by rw [hrest.changes.record m, hyx],
    hrest.commanded (hd.command (by rw [hun, hw.node]; rfl)), hbooks.jrn, ?_⟩
  · rw [hrest.changes.record m, hd.record]
  · rw [hrest.changes.record m, hd.record]
  · rw [hrest.changes.at .flm, hd.flm, hsu.at .flm, hsu.faults m]

end

end

section
variable {m : Addr} {s w : State} {r : NodeReport} {x : Retained} {z : Session}

theorem disarmIfClosed_open {u : State} (h : u.sst.roomMode ≠ .closed) : disarmIfClosed m u = u := if_neg h

/-- R10, R27: a session that comes back ARMED, its node still armed. -/
theorem resolved_armed (hw : Calmly m r s w) (hl : r.fault = none ∨ (s.node m).lastFault = r.fault)
    (hx : (s.record m).state = .recovering) (hret : (s.record m).retained = some x) (hne : x ≠ .running)
    (hz : (s.record m).session = some z) (hopen : s.sst.roomMode ≠ .closed) (hr : r.state = .nArmed) :
    let t := reportTail m r false (applyNodeState m r w)
    t.record m = { (s.record m).resolved r with
      state := .armed, session := some { z with startWindow := s.sst.working.limits.startWindow * 60, startWait := 0 } } ∧
    t.mbc.queue = s.mbc.queue := by
  have hwx : (w.record m).state = .recovering := by rw [hw.record]; exact hx
  have hwr : (w.record m).retained = some x := by rw [hw.record]; exact hret
  have hrec := resolveArmed_record (m := m) (s := w) (z := z) (by rw [hw.record]; exact hz)
  have hA := resolveArmed_changes m w
  have hsst : w.sst = s.sst := hw.changes.at .sst
  have hres : applyNodeState m r w = resolveArmed m w := by
    rw [applyNodeState_recovering hwx, resolve_armed hwr hne hr]
    exact disarmIfClosed_open (by rw [hA.at .sst, hsst]; exact hopen)
  intro t
  have ht : t = reportTail m r false (applyNodeState m r w) := rfl
  rw [hres] at ht
  generalize resolveArmed m w = u at *
  have hrest := rested_reportTail (m := m) (r := r) (u := u) (hw.lastFault hl (hA.node m)) (feederReport_rests (by rw [hrec]; simp))
  rw [← ht] at hrest
  clear_value t
  refine ⟨?_, by rw [hrest.queue, hA.at .mbc, hw.queue]⟩
  rw [hrest.changes.record m, hrec, hw.record, hsst]
  rfl

/-- R9, R10, R27: a session that comes back ARMED, its node having lost the arming. -/
theorem resolved_rearmed (hw : Calmly m r s w) (hl : r.fault = none ∨ (s.node m).lastFault = r.fault)
    (hx : (s.record m).state = .recovering) (hret : (s.record m).retained = some x) (hne : x ≠ .running)
    (hz : (s.record m).session = some z) (hopen : s.sst.roomMode ≠ .closed)
    (hr : r.state = .nIdle ∨ r.state = .nEnd ∨ r.state = .nStopped) :
    let t := reportTail m r false (applyNodeState m r w)
    t.record m = { (s.record m).resolved r with
      state := .armed
      session := some { z with startWindow := s.sst.working.limits.startWindow * 60, startWait := 0, armAcked := false } } ∧
    Commanded t m (.arm z.program z.option) := by
  have hwx : (w.record m).state = .recovering := by rw [hw.record]; exact hx
  have hwr : (w.record m).retained = some x := by rw [hw.record]; exact hret
  have hrec := resolveArmed_record (m := m) (s := w) (z := z) (by rw [hw.record]; exact hz)
  have hA := resolveArmed_changes m w
  have hq := rearmed_queueArm (m := m) (s := resolveArmed m w) (congrArg MachineRecord.session hrec)
  have hsst : w.sst = s.sst := hw.changes.at .sst
  have hres : applyNodeState m r w = queueArm m (resolveArmed m w) := by
    rw [applyNodeState_recovering hwx, resolve_rearmed hwr hne hr]
    exact disarmIfClosed_open (by rw [hq.changes.at .sst, hA.at .sst, hsst]; exact hopen)
  intro t
  have ht : t = reportTail m r false (applyNodeState m r w) := rfl
  rw [hres] at ht
  generalize queueArm m (resolveArmed m w) = u at *
  have hrest := rested_reportTail (m := m) (r := r) (u := u) (hw.lastFault hl ((hq.node m).trans (hA.node m)))
    (feederReport_rests (by rw [hq.record, hrec]; simp))
  rw [← ht] at hrest
  clear_value t
  refine ⟨?_, hrest.commanded (hq.command (by rw [hA.node m, hw.node]; rfl))⟩
  rw [hrest.changes.record m, hq.record, hrec, hw.record, hsst]
  rfl

/-- R27: N_FAULT restores the retained state. -/
theorem resolved_fault (hw : Calmly m r s w) (hl : r.fault = none ∨ (s.node m).lastFault = r.fault)
    (hx : (s.record m).state = .recovering) (hret : (s.record m).retained = some x) (hne : x ≠ .running)
    (hopen : s.sst.roomMode ≠ .closed) (hs : s.fba.hasStart m = false) (hr : r.state = .nFault) :
    (reportTail m r false (applyNodeState m r w)).record m = { (s.record m).resolved r with state := x.state } := by
  have hwx : (w.record m).state = .recovering := by rw [hw.record]; exact hx
  have hwr : (w.record m).retained = some x := by rw [hw.record]; exact hret
  have hrec := endRecovery_of hwx hwr
  have hE := endRecovery_changes m w
  have hres : applyNodeState m r w = endRecovery m w := by
    rw [applyNodeState_recovering hwx, resolve_fault hwr hwx hne hr]
    exact disarmIfClosed_open (by rw [hE.at .sst, hw.changes.at .sst]; exact hopen)
  rw [hres]
  generalize endRecovery m w = u at *
  have hus : u.fba.hasStart m = false := by rw [hE.at .fba, hw.fba]; exact hs
  have hfr : feederReport m r u = mapGrant m (·.reported r) u := by
    cases x with
    | running => exact absurd rfl hne
    | armed => exact feederReport_rests (by rw [hrec]; simp [Retained.state])
    | starting => exact feederReport_noStart (by rw [hrec]; rfl) hus
  have hrest := rested_reportTail (hw.lastFault hl (hE.node m)) hfr
  rw [hrest.changes.record m, hrec, hw.record]
  rfl

theorem noEntries_of_hasStart (h : s.fba.hasStart m = false) : ∀ e ∈ s.fba.starts, e.machine ≠ m := fun e he hm =>
  List.any_eq_false.mp h e he (beq_iff_eq.mpr hm)

/-- R55, R58: the entry asked for has just what the node wants. -/
theorem startFor_stands {u v : State} {k : Kind} {wanted : Level} (hs : v.fba.hasStart m = false)
    (hu : u.fba.starts = v.fba.starts ++ [startFor m v k wanted]) (hk : k = .dryer) :
    ∀ e ∈ u.fba.starts, e.machine = m → e.level = wanted ∧ e.fill = false := by
  intro e he hm
  rw [hu, List.mem_append, List.mem_singleton] at he
  rcases he with he | rfl
  · exact absurd hm (noEntries_of_hasStart hs e he)
  · subst hk
    exact ⟨rfl, rfl⟩

/-- R11, R27: a session enters STARTING while OVER_BUDGET holds the queue. -/
theorem resolved_starts (hw : Calmly m r s w) (hl : r.fault = none ∨ (s.node m).lastFault = r.fault)
    (hx : (s.record m).state = .recovering) (hret : (s.record m).retained = some x) (hne : x ≠ .running)
    (hz : (s.record m).session = some z) (hk : z.figures.kind = r.kind) (hopen : s.sst.roomMode ≠ .closed)
    (hs : s.fba.hasStart m = false) (hr : r.state = .nStart ∨ r.state = .nRun) (hover : s.fba.overBudget = true)
    (hb : s.fba.beff < s.fba.committed) :
    let t := reportTail m r false (applyNodeState m r w)
    t.record m = { (s.record m).resolved r with
      state := .starting, session := some { z with startWait := s.sst.working.limits.startWait * 60 } } ∧
    Commanded t m .hold ∧ t.fba.starts = s.fba.starts ++ [startFor m s r.kind r.wanted] := by
  have hwx : (w.record m).state = .recovering := by rw [hw.record]; exact hx
  have hwr : (w.record m).retained = some x := by rw [hw.record]; exact hret
  have hrecE := endRecovery_of hwx hwr
  have hE := endRecovery_changes m w
  have hB := begunStarting_beginStarting (m := m) (s := endRecovery m w) (z := z) (by rw [hrecE, hw.record]; exact hz)
  have hfba : (beginStarting m (endRecovery m w)).fba = w.fba := (hB.changes.at .fba).trans (hE.at .fba)
  have hask := askStart_new (m := m) (s := beginStarting m (endRecovery m w)) (congrArg MachineRecord.session hB.record)
    (by rw [hfba, hw.fba]; exact hs) r.wanted
  have hres : applyNodeState m r w = review (askStart m r.wanted (beginStarting m (endRecovery m w))) := by
    rw [applyNodeState_recovering hwx, resolve_starts hwr hne hr]
    exact if_neg (by rw [hw.changes.at .sst]; exact hopen)
  have hsst : (endRecovery m w).sst = s.sst := (hE.at .sst).trans (hw.changes.at .sst)
  have hnode : ∀ k, (beginStarting m (endRecovery m w)).node k = w.node k := fun k => (hB.node k).trans (hE.node k)
  have hcmd := hB.command (by rw [hE.node m, hw.node]; rfl)
  intro t
  have ht : t = reportTail m r false (applyNodeState m r w) := rfl
  generalize beginStarting m (endRecovery m w) = v at *
  rw [hres, hask] at ht
  have hfigures : ({ z with startWait := (endRecovery m w).sst.working.limits.startWait * 60 } : Session).figures.kind = r.kind := hk
  rw [hfigures] at ht
  have hover' : (v.withStart m r.kind r.wanted).fba.overBudget = true := by
    show v.fba.overBudget = true
    rw [hfba, hw.fba]
    exact hover
  have hb' : (v.withStart m r.kind r.wanted).fba.beff < (v.withStart m r.kind r.wanted).fba.committed := by
    show v.fba.beff < v.fba.committed
    rw [hfba, hw.sums.1, hw.fba]
    exact hb
  rw [review_over hover' hb'] at ht
  have hvs : v.fba.hasStart m = false := by rw [hfba, hw.fba]; exact hs
  have hfr := feederReport_heldStart (m := m) (r := r) (s := v.withStart m r.kind r.wanted)
    (by show (v.record m).state = _; rw [hB.record]) hover' hb' fun hd => startFor_stands hvs rfl hd
  have hrest := rested_reportTail (r := r) (u := v.withStart m r.kind r.wanted) (hw.lastFault hl (hnode m)) hfr
  rw [← ht] at hrest
  clear_value t
  refine ⟨?_, hrest.commanded hcmd, ?_⟩
  · rw [hrest.changes.record m]
    show v.record m = _
    rw [hB.record, hrecE, hw.record, hsst]
    rfl
  · rw [hrest.fba]
    show v.fba.starts ++ [startFor m v r.kind r.wanted] = _
    unfold startFor
    rw [hfba, hw.fba]

end

/-- Settles O39: by the retained state, the node state and the room mode. -/
theorem reportResolvesRecovery : Obligations.ReportResolvesRecovery := by
  intro slot rep r x z s hrep hactive hno hx hret hz hkind hk hfault hs
  obtain ⟨w, hw, hexec⟩ := report_calmly hrep hactive hno hkind
  have hl : r.fault = none ∨ (s.node slot).lastFault = r.fault := by
    by_cases hf : r.state = .nFault
    · exact .inr (hfault hf)
    · exact .inl ((reportable_of_decode hrep.2.1).fault.mpr hf)
  refine ⟨_, hexec, fun hrun hr => ?_, fun hrun hr => ?_, fun hrun hr => ?_, fun hne hclosed => ?_, fun hne hopen =>
    ⟨fun hr => ?_, fun hr => ?_, fun hr hover hb => ?_, fun hr => ?_⟩⟩
  · subst hrun
    exact resolved_goesOn hw hl hx hret hs hr
  · subst hrun
    exact resolved_ends hw hl hx hret hz hr
  · subst hrun
    exact resolved_lost hw hl hx hret hz hr
  · exact resolved_closed hw hl hx hret hne hz hclosed
  · exact resolved_armed hw hl hx hret hne hz hopen hr
  · exact resolved_rearmed hw hl hx hret hne hz hopen hr
  · exact resolved_starts hw hl hx hret hne hz hk hopen hs hr hover hb
  · exact resolved_fault hw hl hx hret hne hopen hs hr

end Sys2Proof.Machine
end


section
/-! PROOF. A report in ARMED and STARTING: ARM again, STARTING, back to ARMED, and a START granted at once (R9, R11, R55 to R61). -/
namespace Sys2Proof.Machine

section
variable {m : Addr} {s t u v w : State} {r : NodeReport} {z : Session}

/-! ## A report in ARMED (R9) -/

theorem applyNodeState_notKept (hx : (s.record m).state = .armed) (hr : r.state = .nIdle ∨ r.state = .nEnd ∨ r.state = .nStopped) :
    applyNodeState m r s = rearm m s := by
  unfold applyNodeState
  rw [hx]
  unfold armedReport
  rcases hr with h | h | h <;> rw [h]

theorem rearm_acked (hz : (s.record m).session = some z) (ha : z.armAcked = true) : rearm m s = queueArm m s := by
  unfold rearm
  rw [hz]
  exact if_pos ha

theorem rearm_unacked (hz : (s.record m).session = some z) (ha : z.armAcked = false) : rearm m s = s := by
  unfold rearm
  rw [hz]
  exact if_neg (by simp [ha])

/-- R9: the node has not kept the arming. -/
theorem armed_notKept (hw : Calmly m r s w) (hf : r.fault = none) (hx : (s.record m).state = .armed)
    (hz : (s.record m).session = some z) (hr : r.state = .nIdle ∨ r.state = .nEnd ∨ r.state = .nStopped) :
    let t := reportTail m r false (applyNodeState m r w)
    (z.armAcked = true → t.record m = { (s.record m).withReport r with session := some { z with armAcked := false } } ∧
      Commanded t m (.arm z.program z.option)) ∧
    (z.armAcked = false → t.record m = (s.record m).withReport r ∧ t.mbc.queue = s.mbc.queue) := by
  have hwx : (w.record m).state = .armed := by rw [hw.record]; exact hx
  have hwz : (w.record m).session = some z := by rw [hw.record]; exact hz
  intro t
  have ht : t = reportTail m r false (applyNodeState m r w) := rfl
  rw [applyNodeState_notKept hwx hr] at ht
  refine ⟨fun ha => ?_, fun ha => ?_⟩
  · rw [rearm_acked hwz ha] at ht
    have hq := rearmed_queueArm hwz
    have hrest := rested_reportTail (m := m) (r := r) (u := queueArm m w) (.inl hf) (feederReport_rests (by rw [hq.record, hwx]; simp))
    rw [← ht] at hrest
    exact ⟨by rw [hrest.changes.record m, hq.record, hw.record], hrest.commanded (hq.command (by rw [hw.node]; rfl))⟩
  · rw [rearm_unacked hwz ha] at ht
    have hrest := rested_reportTail (m := m) (r := r) (u := w) (.inl hf) (feederReport_rests (by rw [hwx]; simp))
    rw [← ht] at hrest
    exact ⟨by rw [hrest.changes.record m, hw.record], by rw [hrest.queue, hw.queue]⟩

/-! ## Back to ARMED (R11) -/

/-- R11: a STARTING record is ARMED again. -/
structure BackToArmed (m : Addr) (z : Session) (s t : State) : Prop where
  record  : t.record m = { s.record m with state := .armed, session := some { z with startWait := 0 } }
  raise   : t.fba.hasRaise m = false
  start   : t.fba.hasStart m = false
  node    : t.node m = s.node m
  changes : ChangesOnly [.msv, .mbc, .fba] s t

theorem backToArmed_backToArmed (hz : (s.record m).session = some z) : BackToArmed m z s (backToArmed m s) := by
  have h1 := mapRecord_changes m (fun x => { x with state := .armed }) s
  have hself : (mapRecord m (fun x => { x with state := .armed }) s).record m = { s.record m with state := .armed } := by
    simp [mapRecord]
  unfold backToArmed
  generalize mapRecord m (fun x => { x with state := .armed }) s = u at *
  have h2 := mapSession_changes m (fun z => { z with startWait := 0 }) u
  have hrec := mapSession_record (m := m) (s := u) (z := z) (by rw [hself]; exact hz) fun z => { z with startWait := 0 }
  generalize u.mapSession m (fun z => { z with startWait := 0 }) = v at *
  have h12 : ChangesOnly [.msv] s v := h1.seq h2
  have hw := withdrawn_review m v
  exact
    { record := by rw [hw.record, hrec, hself]
      raise := hw.raise
      start := hw.start
      node := (allots_review m _).node.trans (h12.node m)
      changes := h12.seq hw.changes }

theorem applyNodeState_starting (hx : (s.record m).state = .starting) : applyNodeState m r s = startingReport m r s := by
  unfold applyNodeState
  rw [hx]

/-- R11: the node has given up. -/
theorem starting_givenUp (hw : Calmly m r s w) (hf : r.fault = none) (hx : (s.record m).state = .starting)
    (hz : (s.record m).session = some z)
    (hr : (r.state = .nIdle ∨ r.state = .nEnd ∨ r.state = .nStopped) ∨ r.state = .nArmed) :
    let t := reportTail m r false (applyNodeState m r w)
    (t.record m).state = .armed ∧ t.fba.hasStart m = false ∧ t.fba.hasRaise m = false ∧
    (t.record m).session = some { z with startWait := 0, armAcked := z.armAcked && decide (r.state = .nArmed) } ∧
    (z.armAcked = true → (r.state = .nIdle ∨ r.state = .nEnd ∨ r.state = .nStopped) → Commanded t m (.arm z.program z.option)) := by
  have hwx : (w.record m).state = .starting := by rw [hw.record]; exact hx
  have hb := backToArmed_backToArmed (m := m) (s := w) (z := z) (by rw [hw.record]; exact hz)
  have hbx : ((backToArmed m w).record m).session = some { z with startWait := 0 } := by rw [hb.record]
  have hbs : ((backToArmed m w).record m).state = .armed := by rw [hb.record]
  have hrests : ((backToArmed m w).record m).state ≠ .running ∧ ((backToArmed m w).record m).state ≠ .aborting ∧
      ((backToArmed m w).record m).state ≠ .starting := by rw [hbs]; simp
  have hcases : startingReport m r w = if r.state = .nArmed then backToArmed m w else rearm m (backToArmed m w) := by
    unfold startingReport
    rcases hr with (h | h | h) | h <;> rw [h] <;> rfl
  intro t
  have ht : t = reportTail m r false (applyNodeState m r w) := rfl
  rw [applyNodeState_starting hwx, hcases] at ht
  have hnot : r.state = .nArmed → ¬(r.state = .nIdle ∨ r.state = .nEnd ∨ r.state = .nStopped) := fun h => by rw [h]; simp
  by_cases harm : r.state = .nArmed
  · rw [if_pos harm] at ht
    have hrest := rested_reportTail (m := m) (r := r) (.inl hf) (feederReport_rests hrests)
    rw [← ht] at hrest
    rw [hrest.changes.record m, hrest.fba, decide_eq_true harm, Bool.and_true]
    exact ⟨hbs, hb.start, hb.raise, hbx, fun _ h => absurd h (hnot harm)⟩
  · rw [if_neg harm] at ht
    rw [decide_eq_false harm, Bool.and_false]
    cases ha : z.armAcked with
    | true =>
      rw [rearm_acked hbx ha] at ht
      have hq := rearmed_queueArm hbx
      have hrest := rested_reportTail (m := m) (r := r) (u := queueArm m (backToArmed m w)) (.inl hf)
        (feederReport_rests (by rw [hq.record]; exact hrests))
      rw [← ht] at hrest
      rw [hrest.changes.record m, hrest.fba, hq.record, hq.changes.at .fba]
      exact ⟨hbs, hb.start, hb.raise, rfl, fun _ _ => hrest.commanded (hq.command (by rw [hb.node, hw.node]; rfl))⟩
    | false =>
      rw [rearm_unacked hbx ha] at ht
      have hrest := rested_reportTail (m := m) (r := r) (.inl hf) (feederReport_rests hrests)
      rw [← ht] at hrest
      rw [hrest.changes.record m, hrest.fba]
      exact ⟨hbs, hb.start, hb.raise, by rw [hbx, ← ha], fun h => absurd h (by simp)⟩

/-! ## A START asked for (R11) -/

/-- R11, R58: the state in which a START entry is asked for. -/
structure AtStart (m : Addr) (r : NodeReport) (z : Session) (s u : State) : Prop where
  record  : u.record m = { (s.record m).withReport r with
    state := .starting
    session := some { z with
      startWait := if (s.record m).state = .armed then s.sst.working.limits.startWait * 60 else z.startWait } }
  grant   : u.grant m = (s.grant m).reporting (s.node m).silentMark false
  fba     : u.fba = { s.fba with entries := u.fba.entries }
  sums    : u.fba.committed = s.fba.committed ∧ u.fba.fillCount = s.fba.fillCount
  node    : u.node m = (s.node m).reporting r
  hold    : (s.record m).state = .armed → Commanded u m .hold
  queue   : (s.record m).state = .starting → u.mbc.queue = s.mbc.queue
  changes : ChangesOnly [.msv, .mbc, .fba] s u

theorem atStart_asked (hw : Calmly m r s w) (hx : (s.record m).state = .armed ∨ (s.record m).state = .starting)
    (hz : (s.record m).session = some z) (hk : z.figures.kind = r.kind) (hs : s.fba.hasStart m = false)
    (hr : r.state = .nStart ∨ r.state = .nRun) :
    ∃ u, AtStart m r z s u ∧ applyNodeState m r w = review (u.withStart m r.kind r.wanted) := by
  have hwz : (w.record m).session = some z := by rw [hw.record]; exact hz
  have hws : w.fba.hasStart m = false := by rw [hw.fba]; exact hs
  rcases hx with hx | hx
  · have hwx : (w.record m).state = .armed := by rw [hw.record]; exact hx
    have hB := begunStarting_beginStarting hwz
    have hfba : (beginStarting m w).fba = w.fba := hB.changes.at .fba
    have hask := askStart_new (m := m) (s := beginStarting m w) (congrArg MachineRecord.session hB.record)
      (by rw [hfba]; exact hws) r.wanted
    refine ⟨beginStarting m w, ?_, ?_⟩
    · exact
        { record := by
            rw [hB.record, hw.record, hw.changes.at .sst, if_pos hx]
          grant := (hB.changes.grant m).trans hw.grant
          fba := by rw [hfba, hw.fba]
          sums := by rw [hfba]; exact hw.sums
          node := (hB.node m).trans hw.node
          hold := fun _ => hB.command (by rw [hw.node]; rfl)
          queue := fun h => absurd (hx.symm.trans h) (by simp)
          changes := hw.changes.seq hB.changes }
    · have h1 : applyNodeState m r w = enterStarting m r.wanted w := by
        unfold applyNodeState
        rw [hwx]
        unfold armedReport
        rcases hr with h | h <;> rw [h]
      rw [h1]
      unfold enterStarting
      rw [hask]
      exact congrArg (fun k => review ((beginStarting m w).withStart m k r.wanted)) hk
  · have hwx : (w.record m).state = .starting := by rw [hw.record]; exact hx
    refine ⟨w, ?_, ?_⟩
    · exact
        { record := by
            rw [hw.record, if_neg (by rw [hx]; simp), ← hz, ← hx]
            rfl
          grant := hw.grant
          fba := hw.fba
          sums := hw.sums
          node := hw.node
          hold := fun h => absurd (hx.symm.trans h) (by simp)
          queue := fun _ => hw.queue
          changes := hw.changes }
    · have h1 : startingReport m r w = review (askStart m r.wanted w) := by
        unfold startingReport
        rcases hr with h | h <;> rw [h] <;> exact if_neg (by rw [hws]; simp)
      rw [applyNodeState_starting hwx, h1, askStart_new hwz hws, hk]

/-- R11, R67: OVER_BUDGET holds the queue. -/
theorem starts_held (hu : AtStart m r z s u) (hf : r.fault = none) (hs : s.fba.hasStart m = false) (hover : s.fba.overBudget = true)
    (hb : s.fba.beff < s.fba.committed) :
    Rested m r (u.withStart m r.kind r.wanted) (reportTail m r false (review (u.withStart m r.kind r.wanted))) := by
  have hover' : (u.withStart m r.kind r.wanted).fba.overBudget = true := by
    show u.fba.overBudget = true
    rw [hu.fba]
    exact hover
  have hb' : (u.withStart m r.kind r.wanted).fba.beff < (u.withStart m r.kind r.wanted).fba.committed := by
    show u.fba.beff < u.fba.committed
    rw [hu.sums.1, hu.fba]
    exact hb
  have hus : u.fba.hasStart m = false := by rw [hu.fba]; exact hs
  rw [review_over hover' hb']
  exact rested_reportTail (.inl hf) (feederReport_heldStart (by show (u.record m).state = _; rw [hu.record]) hover' hb'
    fun hd => startFor_stands hus rfl hd)

/-! ## FBA's part of a report that follows a START granted (R55) -/

/-- R55: FBA's part of a report in RUNNING. -/
theorem feederReport_running {g : Level} (hx : (s.record m).state = .running) (hg : (s.grant m).granted = some g) (hk : g.kind = r.kind) :
    feederReport m r s =
      reviewDecrease (compareWanted m (rebuildIfHeld m r.actual r.actualFill (mapGrant m (·.reported r) s))) := by
  have hrec : (mapGrant m (·.reported r) s).record m = s.record m := (mapGrant_changes m _ s).record m
  unfold feederReport
  dsimp only
  rw [mapGrant_self, (sameGrant_reported _ r).granted, hrec, hx, hg, Option.any_some, hk]
  simp

theorem rebuildIfHeld_clear (h : (s.grant m).heldSilent = false) (l : Level) (f : Bool) : rebuildIfHeld m l f s = s := by
  unfold rebuildIfHeld
  rw [h]

theorem reviewDecrease_held (ho : s.fba.overBudget = false) (hb : s.fba.committed ≤ s.fba.beff) (hn : grantHead s = none) :
    reviewDecrease s = s := by
  unfold reviewDecrease checkOrReview
  rw [if_neg (by simp [ho]), if_neg (Nat.not_lt.mpr hb)]
  exact review_held ho hn

theorem removeRaise_none (h : s.fba.hasRaise m = false) : removeRaise m s = s := by
  have hf : (s.fba.raises.filter (·.machine != m)) = s.fba.raises := by
    refine List.filter_eq_self.mpr fun e he => ?_
    have := List.any_eq_false.mp h e he
    simpa using this
  unfold removeRaise
  rw [hf]
  rfl

/-- R55: a target set in place that stands already. -/
theorem setRaise_same {l : Level} {f : Bool} (hs : s.fba.hasRaise m = true)
    (h : ∀ e ∈ s.fba.raises, e.machine = m → e.level = l ∧ e.fill = f) : setRaise m l f s = s := by
  have hmap : (s.fba.raises.map fun e => if e.machine == m then { e with level := l, fill := f } else e) = s.fba.raises := by
    refine (List.map_congr_left fun e he => ?_).trans (List.map_id _)
    by_cases hm : e.machine = m
    · obtain ⟨rfl, rfl⟩ := h e he hm
      simp
    · simp [hm]
  unfold setRaise
  rw [if_pos hs, hmap]
  rfl

/-- R55: a grant no higher than what is wanted stands. -/
theorem compareWanted_stands {g l : Level} {f : Bool} (hg : (s.grant m).granted = some g) (hw : (s.grant m).wanted = some (l, f))
    (hk : g.kind = l.kind) (hle : g.rank ≤ l.rank) (hf : (s.grant m).fill = true → f = true) :
    compareWanted m s = if g.rank < l.rank || (f && !(s.grant m).fill) then setRaise m l f s else removeRaise m s := by
  have hfill : ((s.grant m).fill && f) = (s.grant m).fill := by
    cases h : (s.grant m).fill with
    | false => rfl
    | true => rw [hf h]; rfl
  unfold compareWanted
  dsimp only
  rw [hg, hw]
  dsimp only
  rw [if_pos hk, if_neg (Nat.not_lt.mpr hle), hfill]
  simp only [and_self, ↓reduceIte]

theorem reported_held (e : GrantEntry) (r : NodeReport) : (e.reported r).held = (e.held && r.wanted != .air) := rfl

/-- R55, R58, R59: a report of a machine whose START entry waits. -/
theorem feederReport_waits (hx : (s.record m).state = .starting)
    (h : r.kind = .dryer → ∀ e ∈ s.fba.starts, e.machine = m → e.level = r.wanted ∧ e.fill = false)
    (hrev : review (mapGrant m (·.reported r) s) = mapGrant m (·.reported r) s) :
    feederReport m r s = mapGrant m (·.reported r) s := by
  rw [feederReport_starting hx]
  split
  · rfl
  · split
    · next hc =>
      rw [addStart_same (s := mapGrant m (·.reported r) s) hc.2 (h hc.1)]
      exact hrev
    · rfl

/-- R55: a dryer that has been granted what fits of what it wants has that grant stand. -/
theorem feederReport_dryerStarted {d : LevelDraws} {y : Level} (h : DryerStarted m d y r.wanted s u) (hr : s.fba.raises = [])
    (hs : s.fba.starts.filter (·.machine != m) = []) (hclear : s.fba.overBudget = false) (hrep : Reportable r) (hk : r.kind = .dryer)
    (hy : y.kind = .dryer) (hle : y.rank ≤ r.wanted.rank) (hsilent : (s.grant m).heldSilent = false) (hdraw : (s.grant m).draw = 0)
    (hfit : s.fba.committed + d.draw y ≤ s.fba.beff)
    (hmax : y.rank < r.wanted.rank → ¬s.fba.committed + d.draw r.wanted ≤ s.fba.beff) :
    feederReport m r u = mapGrant m (·.reported r) u := by
  have hsums := (sums_reported m r u).1
  have hself : (mapGrant m (·.reported r) u).grant m = _ := mapGrant_self (m := m) (·.reported r) u
  have hsame := sameGrant_reported (u.grant m) r
  rw [feederReport_running (g := y) (by rw [h.record]; rfl) (by rw [h.grant]; rfl) (hy.trans hk.symm)]
  have hbeff : (mapGrant m (·.reported r) u).fba.beff = s.fba.beff := by
    show u.fba.beff = _
    rw [h.fba]
  have hov : (mapGrant m (·.reported r) u).fba.overBudget = false := by
    show u.fba.overBudget = _
    rw [h.fba]
    exact hclear
  have hra : (mapGrant m (·.reported r) u).fba.raises = if y.rank < r.wanted.rank then [raiseFor m s r.wanted] else [] := by
    show u.fba.raises = _
    rw [h.fba, hr]
    rfl
  have hst : (mapGrant m (·.reported r) u).fba.starts = [] := by
    show u.fba.starts = _
    rw [h.fba]
    exact hs
  have hcom := h.committed
  have hwanted : ((mapGrant m (·.reported r) u).grant m).wanted = some (r.wanted, r.wantedFill) := by rw [hself]; rfl
  have hfields : ((mapGrant m (·.reported r) u).grant m).granted = some y ∧ ((mapGrant m (·.reported r) u).grant m).fill = false ∧
      ((mapGrant m (·.reported r) u).grant m).draw = d.draw y ∧ ((mapGrant m (·.reported r) u).grant m).draws = some d ∧
      ((mapGrant m (·.reported r) u).grant m).heldSilent = false := by
    rw [hself, hsame.granted, hsame.fill, hsame.draw, hsame.draws, hsame.heldSilent, h.grant]
    exact ⟨rfl, rfl, rfl, rfl, hsilent⟩
  generalize mapGrant m (·.reported r) u = v at *
  obtain ⟨hvg, hvf, hvd, hvs, hvh⟩ := hfields
  have hfill := (hrep.fills hk).2
  have hcmp : compareWanted m v = v := by
    rw [compareWanted_stands hvg hwanted (hy.trans (hrep.wanted.trans hk).symm) hle (by rw [hvf]; simp), hfill]
    by_cases hlt : y.rank < r.wanted.rank
    · rw [if_pos hlt] at hra
      rw [decide_eq_true hlt]
      exact setRaise_same (by unfold Fba.hasRaise; rw [hra]; simp [raiseFor]) (by rw [hra]; simp [raiseFor])
    · rw [if_neg hlt] at hra
      rw [decide_eq_false hlt]
      exact removeRaise_of_empty hra m
  rw [rebuildIfHeld_clear hvh, hcmp]
  refine reviewDecrease_held hov (by omega) ?_
  by_cases hlt : y.rank < r.wanted.rank
  · rw [if_pos hlt] at hra
    rw [grantHead_raise hra]
    refine grantRaise_held fun hroom => hmax hlt ?_
    have hroom1 : v.fba.committed - (v.grant m).draw + (v.grant m).drawOf r.wanted ≤ v.fba.beff := hroom.1
    have hof : (v.grant m).drawOf r.wanted = d.draw r.wanted := by
      unfold GrantEntry.drawOf
      rw [hvs]
    omega
  · rw [if_neg hlt] at hra
    exact grantHead_empty hra hst

/-! ## A START granted at once (R59 to R61) -/

/-- R54: an entry that holds nothing. -/
def GrantEntry.bare (e : GrantEntry) : Prop := e = { GrantEntry.empty with wanted := e.wanted, actual := e.actual }

theorem bare_fields {e : GrantEntry} (h : e.bare) :
    e.granted = none ∧ e.fill = false ∧ e.draw = 0 ∧ e.heldSilent = false := by
  rw [h]
  exact ⟨rfl, rfl, rfl, rfl⟩

/-- R11, R59, R61: a dryer's START, by what it wants and what fits. -/
theorem starts_dryer {q a l h : Nat} (hu : AtStart m r z s u) (hrep : Reportable r) (hf : r.fault = none) (hk : r.kind = .dryer)
    (hclear : s.fba.overBudget = false) (hr : s.fba.raises = []) (hst : s.fba.starts = []) (hg : (s.grant m).bare)
    (hfig : z.figures = .dryer q a l h) :
    let d := LevelDraws.dryer a l h
    let fits := fun y : Level => y.rank ≤ r.wanted.rank ∧ s.fba.committed + d.draw y ≤ s.fba.beff
    let u1 := u.withStart m r.kind r.wanted
    ((∀ y : Level, y.kind = .dryer → ¬fits y) → review u1 = u1 ∧ Rested m r u1 (reportTail m r false u1)) ∧
    ∀ y : Level, y.kind = .dryer → fits y → (∀ x : Level, x.kind = .dryer → y.rank < x.rank → ¬fits x) →
      DryerStarted m d y r.wanted u1 (review u1) ∧ Rested m r (review u1) (reportTail m r false (review u1)) := by
  intro d fits u1
  have hu1 : u1 = u.withStart m r.kind r.wanted := rfl
  obtain ⟨-, -, hg0, hgh⟩ := bare_fields hg
  have hgrant : u1.grant m = (s.grant m).reporting (s.node m).silentMark false := hu.grant
  have hrec : (u1.record m).state = .starting ∧ ∃ w, (u1.record m).session = some w ∧ w.figures = z.figures := by
    show (u.record m).state = _ ∧ ∃ w, (u.record m).session = some w ∧ _
    rw [hu.record]
    exact ⟨rfl, _, rfl, rfl⟩
  obtain ⟨hx, w, hw, hwf⟩ := hrec
  have hwf := hwf.trans hfig
  have hfields : u1.fba.overBudget = false ∧ u1.fba.raises = [] ∧ u1.fba.beff = s.fba.beff := by
    show u.fba.overBudget = _ ∧ u.fba.raises = _ ∧ u.fba.beff = _
    rw [hu.fba]
    exact ⟨hclear, hr, rfl⟩
  have hcom : u1.fba.committed = s.fba.committed := hu.sums.1
  have hst1 : u1.fba.starts = [startFor m u .dryer r.wanted] := by
    show u.fba.starts ++ [startFor m u r.kind r.wanted] = _
    rw [hu.fba, hst, hk]
    rfl
  clear_value u1
  obtain ⟨ho1, hr1, hb1⟩ := hfields
  have hwk : r.wanted.kind = .dryer := hrep.wanted.trans hk
  have hfits : ∀ y, fits y ↔ y.rank ≤ r.wanted.rank ∧ u1.fba.committed + d.draw y ≤ u1.fba.beff := fun y => by rw [hcom, hb1]
  refine ⟨fun hno => ?_, fun y hy hfy hmax => ?_⟩
  · have hrev := (review_dryer (s := u1) ho1 hr1 hst1 hw hwf hwk).1 fun y hy hfy => hno y hy ((hfits y).mpr hfy)
    have hg1 := mapGrant_changes m (·.reported r) u1
    have hagain : review (mapGrant m (·.reported r) u1) = mapGrant m (·.reported r) u1 := by
      refine (review_dryer (s := mapGrant m (·.reported r) u1) ho1 hr1 hst1 (z := w) ?_ hwf hwk).1 fun y hy hfy => hno y hy ((hfits y).mpr ?_)
      · rw [hg1.record]
        exact hw
      · rw [(sums_reported m r u1).1] at hfy
        exact hfy
    exact ⟨hrev, rested_reportTail (.inl hf) (feederReport_waits hx (fun _ e he _ => by
      rw [hst1] at he
      obtain rfl := List.mem_singleton.mp he
      exact ⟨rfl, rfl⟩) hagain)⟩
  · have hdraw : (u1.grant m).draw = 0 := (congrArg GrantEntry.draw hgrant).trans hg0
    have hsilent : (u1.grant m).heldSilent = false := (congrArg GrantEntry.heldSilent hgrant).trans hgh
    have hd : DryerStarted m d y r.wanted u1 (review u1) := (review_dryer (s := u1) ho1 hr1 hst1 hw hwf hwk).2 y hy rfl hdraw
      ((hfits y).mp hfy) fun x hx hlt hfx => hmax x hx hlt ((hfits x).mpr hfx)
    have hfeed := feederReport_dryerStarted hd hr1 (by rw [hst1]; simp [startFor]) ho1 hrep hk hy hfy.1 hsilent hdraw
      ((hfits y).mp hfy).2 fun hlt hle => hmax r.wanted hwk hlt ((hfits _).mpr ⟨Nat.le_refl _, hle⟩)
    exact ⟨hd, rested_reportTail (.inl hf) hfeed⟩

/-- R11, R60: a washer's START that fits. -/
theorem starts_washer {p b h : Nat} (hu : AtStart m r z s u) (hf : r.fault = none) (hk : r.kind = .washer)
    (hclear : s.fba.overBudget = false) (hr : s.fba.raises = []) (hst : s.fba.starts = []) (hg : (s.grant m).bare)
    (hwant : ∀ w, (s.grant m).wanted = some w → w = (.base, true)) (hbase : r.wanted = .base) (hfill : r.wantedFill = true)
    (hfig : z.figures = .washer p b h) (hfit : s.fba.committed + b ≤ s.fba.beff)
    (hslot : s.fba.fillCount < s.sst.working.limits.fillSlots) :
    let u1 := u.withStart m r.kind r.wanted
    Started m ((u1.grant m).startedWasher (.washer b h)) .base true u1 (review u1) ∧
      Rested m r (review u1) (reportTail m r false (review u1)) := by
  intro u1
  have hu1 : u1 = u.withStart m r.kind r.wanted := rfl
  obtain ⟨-, hgf, hg0, hgh⟩ := bare_fields hg
  have hgrant : u1.grant m = (s.grant m).reporting (s.node m).silentMark false := hu.grant
  have hrec : ∃ w, (u1.record m).session = some w ∧ w.figures = z.figures := by
    show ∃ w, (u.record m).session = some w ∧ _
    rw [hu.record]
    exact ⟨_, rfl, rfl⟩
  obtain ⟨w, hw, hwf⟩ := hrec
  have hwf := hwf.trans hfig
  have hfields : u1.fba.overBudget = false ∧ u1.fba.raises = [] ∧ u1.fba.beff = s.fba.beff := by
    show u.fba.overBudget = _ ∧ u.fba.raises = _ ∧ u.fba.beff = _
    rw [hu.fba]
    exact ⟨hclear, hr, rfl⟩
  have hsum1 : u1.fba.committed = s.fba.committed ∧ u1.fba.fillCount = s.fba.fillCount := hu.sums
  have hlim : u1.fillLimit = s.sst.working.limits.fillSlots := by
    show u.sst.working.limits.fillSlots = _
    rw [hu.changes.at .sst]
  have hst1 : u1.fba.starts = [startFor m u .washer r.wanted] := by
    show u.fba.starts ++ [startFor m u r.kind r.wanted] = _
    rw [hu.fba, hst, hk]
    rfl
  clear_value u1
  obtain ⟨ho1, hr1, hb1⟩ := hfields
  have hd := (review_washer (s := u1) ho1 hr1 hst1 hw hwf).2
    ⟨by rw [hsum1.1, hb1]; exact hfit, fun _ => by rw [hsum1.2, hlim]; exact hslot⟩ rfl
    fun w hw => hwant w ((congrArg GrantEntry.wanted hgrant).symm.trans hw)
  have hd : Started m ((u1.grant m).startedWasher (.washer b h)) .base true u1 (review u1) := hd
  refine ⟨hd, rested_reportTail (.inl hf) ?_⟩
  generalize review u1 = v at *
  have hsame := sameGrant_reported (v.grant m) r
  have hself := mapGrant_self (m := m) (·.reported r) v
  have hsums := (sums_reported m r v).1
  rw [feederReport_running (g := .base) (by rw [hd.record]; rfl) (by rw [hd.grant]; rfl) hk.symm]
  have hvg : ((mapGrant m (·.reported r) v).grant m).granted = some .base ∧ ((mapGrant m (·.reported r) v).grant m).fill = true ∧
      ((mapGrant m (·.reported r) v).grant m).heldSilent = false := by
    rw [hself, hsame.granted, hsame.fill, hsame.heldSilent, hd.grant]
    exact ⟨rfl, rfl, by rw [hgrant]; exact hgh⟩
  have hvw : ((mapGrant m (·.reported r) v).grant m).wanted = some (.base, true) := by
    rw [hself, ← hbase, ← hfill]
    rfl
  have hvr : (mapGrant m (·.reported r) v).fba.raises = [] := by
    show v.fba.raises = _
    rw [hd.fba]
    exact hr1
  have hvs : (mapGrant m (·.reported r) v).fba.starts = [] := by
    show v.fba.starts = _
    rw [hd.fba, hst1]
    simp [startFor]
  have hvo : (mapGrant m (·.reported r) v).fba.overBudget = false := by
    show v.fba.overBudget = _
    rw [hd.fba]
    exact ho1
  have hvb : (mapGrant m (·.reported r) v).fba.committed ≤ (mapGrant m (·.reported r) v).fba.beff := by
    have hbeff : (mapGrant m (·.reported r) v).fba.beff = u1.fba.beff := by
      show v.fba.beff = _
      rw [hd.fba]
    have hcom : v.fba.committed + (u1.grant m).draw = u1.fba.committed + b := hd.sums.1
    omega
  rw [rebuildIfHeld_clear hvg.2.2, compareWanted_base hvg.1 hvg.2.1 hvr fun w hw => by rw [hvw] at hw; exact (Option.some.inj hw).symm]
  exact reviewDecrease_held hvo hvb (grantHead_empty hvr hvs)

/-- R61: where a level fits there is a highest one that does. -/
theorem highest_dryer {p : Level → Prop} (h : ∃ y : Level, y.kind = .dryer ∧ p y) :
    ∃ y : Level, y.kind = .dryer ∧ p y ∧ ∀ x : Level, x.kind = .dryer → y.rank < x.rank → ¬p x := by
  by_cases hhigh : p .high
  · exact ⟨.high, rfl, hhigh, fun x _ hlt => by cases x <;> simp [Level.rank] at hlt⟩
  by_cases hlow : p .low
  · refine ⟨.low, rfl, hlow, fun x _ hlt => ?_⟩
    have hx : x = .high := by cases x <;> simp [Level.rank] at hlt ⊢
    rw [hx]
    exact hhigh
  · obtain ⟨y, hy, hp⟩ := h
    have hair : y = .air := by cases y <;> simp_all [Level.kind]
    refine ⟨.air, rfl, hair ▸ hp, fun x hx hlt hpx => ?_⟩
    cases x <;> simp_all [Level.rank, Level.kind]

/-- R58: what a START entry asked for leaves of the queue. -/
theorem rested_withStart (hu : AtStart m r z s u) (h : Rested m r (u.withStart m r.kind r.wanted) t) :
    t.fba.raises = s.fba.raises ∧ t.fba.starts = s.fba.starts ++ [startFor m s r.kind r.wanted] ∧
    t.record m = u.record m ∧ t.grant m = (u.grant m).reported r ∧ t.mbc.queue = u.mbc.queue := by
  refine ⟨?_, ?_, h.changes.record m, h.grant, h.queue⟩
  · rw [h.fba]
    show u.fba.raises = _
    rw [hu.fba]
  · rw [h.fba]
    show u.fba.starts ++ [startFor m u r.kind r.wanted] = _
    unfold startFor
    rw [hu.fba]

theorem AtStart.lasts (hu : AtStart m r z s u) : u.sst = s.sst ∧ u.stamp = s.stamp :=
  ⟨hu.changes.at .sst, by unfold State.stamp; rw [hu.changes.at .sst]⟩

end

/-- Settles O36: by the record's state and the node state, and where a START joins an empty queue by what fits. -/
theorem reportArmsAndStarts : Obligations.ReportArmsAndStarts := by
  intro slot rep r z s hrep hactive hno hz hkind hzk
  obtain ⟨w, hw, hexec⟩ := report_calmly hrep hactive hno hkind
  have hable := reportable_of_decode hrep.2.1
  refine ⟨_, hexec, ?_⟩
  intro x notKept starts
  have hfault : r.state ≠ .nFault → r.fault = none := hable.fault.mpr
  have hkept : notKept → r.fault = none := fun h => hfault (by rcases h with h | h | h <;> simp [h])
  have hstarts : starts → r.fault = none := fun h => hfault (by rcases h with h | h <;> simp [h])
  have asked : ∀ h : ((s.record slot).state = .armed ∨ (s.record slot).state = .starting) ∧ s.fba.hasStart slot = false ∧ starts,
      ∃ u, AtStart slot r z s u ∧ applyNodeState slot r w = review (u.withStart slot r.kind r.wanted) :=
    fun ⟨hx, hs, hr⟩ => atStart_asked hw hx hz hzk hs hr
  refine ⟨fun hx hr => armed_notKept hw (hkept hr) hx hz hr, fun hx hr hover hb hs => ?_, fun hx hr => ?_, fun hx hr hover hb hs => ?_,
    fun hx hr hclear hra hst hg rate air low high hfig => ?_,
    fun planned base heat hx hr hfig hclear hra hst hg hwant hbase hfill hfit hslot => ?_⟩
  · obtain ⟨u, hu, happ⟩ := asked ⟨.inl hx, hs, hr⟩
    rw [happ]
    have hrest := starts_held hu (hstarts hr) hs hover hb
    obtain ⟨h1, h2, h3, -, -⟩ := rested_withStart hu hrest
    refine ⟨?_, hrest.commanded (hu.hold hx), h1, h2⟩
    rw [h3, hu.record, if_pos hx]
  · refine starting_givenUp hw ?_ hx hz hr
    exact hr.elim hkept fun h => hfault (by simp [h])
  · obtain ⟨u, hu, happ⟩ := asked ⟨.inr hx, hs, hr⟩
    rw [happ]
    obtain ⟨h1, h2, h3, -, h5⟩ := rested_withStart hu (starts_held hu (hstarts hr) hs hover hb)
    refine ⟨?_, h5.trans (hu.queue hx), h1, h2⟩
    rw [h3, hu.record, if_neg (by rw [hx]; simp), ← hz, ← hx]
    rfl
  · obtain ⟨u, hu, happ⟩ := asked ⟨hx, by unfold Fba.hasStart; rw [hst]; rfl, hr⟩
    rw [happ]
    have hk : r.kind = .dryer := by rw [← hzk, hfig]; rfl
    obtain ⟨hnone, hfits⟩ := starts_dryer hu hable (hstarts hr) hk hclear hra hst hg hfig
    obtain ⟨hsst, hstamp⟩ := hu.lasts
    obtain ⟨hgn, -, hg0, -⟩ := bare_fields hg
    have hknown : ((u.withStart slot r.kind r.wanted).node slot).known = true := by
      show (u.node slot).known = true
      rw [hu.node]
      rfl
    have hentry : s.fba.starts ++ [startFor slot s r.kind r.wanted] =
        [{ machine := slot, level := r.wanted, fill := false, arrival := s.fba.arrivals, timer := 0 }] := by
      rw [hst, hk]
      rfl
    refine ⟨fun harm => ?_, fun hno => ?_, fun y hy hfy hmax => ?_⟩
    · by_cases hany : ∃ y : Level, y.kind = .dryer ∧ (y.rank ≤ r.wanted.rank ∧ s.fba.committed + (LevelDraws.dryer air low high).draw y ≤ s.fba.beff)
      · obtain ⟨y, hy, hfy, hmax⟩ := highest_dryer hany
        obtain ⟨hd, hrest⟩ := hfits y hy hfy hmax
        refine hrest.commanded ?_
        unfold Commanded
        rw [hd.control]
        exact hu.hold harm
      · obtain ⟨hrev, hrest⟩ := hnone fun y hy hfy => hany ⟨y, hy, hfy⟩
        rw [hrev]
        exact hrest.commanded (hu.hold harm)
    · obtain ⟨hrev, hrest⟩ := hnone hno
      rw [hrev]
      obtain ⟨h1, h2, h3, h4, -⟩ := rested_withStart hu hrest
      rw [h1, h2, h3, h4, hu.record, (sameGrant_reported _ r).granted, hu.grant]
      exact ⟨rfl, hgn, hra, hentry⟩
    · obtain ⟨hd, hrest⟩ := hfits y hy hfy hmax
      generalize review (u.withStart slot r.kind r.wanted) = v at *
      generalize reportTail slot r false v = t at *
      have hsame := sameGrant_reported (v.grant slot) r
      have hrec : t.record slot = { x with
          state := .running
          session := some { z with
            startWait := 0, startWindow := 0, startTime := s.stamp, runClock := 0, guardTimer := 0, blockTimer := 60 } } := by
        rw [hrest.changes.record slot, hd.record]
        show (u.record slot).startedAt u.stamp u.sst.working.limits.guardMargin = _
        rw [hu.record, startedAt_session rfl, started_dryer (by exact hfig), hstamp]
      have hlist : t.fba.startList = s.fba.startList ++ [slot] ∧ t.fba.starts = [] := by
        rw [hrest.fba]
        show v.fba.startList = _ ∧ v.fba.starts = _
        rw [hd.fba]
        show u.fba.startList ++ [slot] = _ ∧ (u.fba.starts ++ [startFor slot u r.kind r.wanted]).filter (·.machine != slot) = []
        rw [hu.fba, hst]
        exact ⟨rfl, by simp [startFor]⟩
      have hraises : t.fba.raises = if y.rank < r.wanted.rank then
          [raiseFor slot (u.withStart slot r.kind r.wanted) r.wanted] else [] := by
        rw [hrest.fba]
        show v.fba.raises = _
        rw [hd.fba]
        show (if _ then u.fba.raises ++ _ else u.fba.raises) = _
        rw [hu.fba, hra]
        rfl
      have hwk : r.wanted.kind = .dryer := hable.wanted.trans hk
      have hgrant : t.grant slot = ((((u.withStart slot r.kind r.wanted).grant slot).startedDryerAt (.dryer air low high) y r.wanted
          ((u.withStart slot r.kind r.wanted).node slot).known).reported r) := by
        rw [hrest.grant, hd.grant]
      have hheld : t.onHold slot = decide (y = .air ∧ r.wanted ≠ .air) := by
        rw [onHold_dryer (congrArg MachineRecord.session hrec) (by rw [hfig]; rfl), hgrant, reported_held]
        show ((y == .air && decide (y.rank < r.wanted.rank)) && r.wanted != .air) = _
        rw [held_below hy hwk]
        cases r.wanted <;> simp
      have hcommitted : t.fba.committed = s.fba.committed + (LevelDraws.dryer air low high).draw y := by
        have hcom : v.fba.committed + (u.grant slot).draw = u.fba.committed + _ := hd.committed
        have hdraw : (u.grant slot).draw = 0 := (congrArg GrantEntry.draw hu.grant).trans hg0
        rw [hrest.sums.1, ← hu.sums.1, ← hcom, hdraw, Nat.add_zero]
      refine ⟨hrec, ?_, ?_, ?_, ?_, ?_, ?_, hlist.1, hlist.2, ?_, hheld, hcommitted⟩
      · rw [hrest.grant, hsame.granted, hd.grant]
        rfl
      · rw [hrest.grant, hsame.fill, hd.grant]
        rfl
      · rw [hrest.grant, hsame.draw, hd.grant]
        rfl
      · rw [hrest.grant, hsame.draws, hd.grant]
        rfl
      · rw [hrest.grant, hsame.pending, hd.grant]
        show (_ || _) = true
        rw [hknown, Bool.or_true]
      · unfold Levelled Mbc.waiting
        rw [hrest.queue]
        exact hd.levelled hknown
      · rw [hraises]
        by_cases hxe : y = r.wanted
        · rw [if_pos hxe, if_neg (by rw [hxe]; exact Nat.lt_irrefl _)]
        · rw [if_neg hxe, if_pos ((below_iff hy hwk hfy.1).mpr hxe)]
          unfold raiseFor
          show [({ arrival := wrapInc 65535 u.fba.arrivals, timer := u.sst.working.limits.raiseWait * 60, .. } : AdmEntry)] = _
          rw [hu.fba, hsst]
          rfl
  · obtain ⟨u, hu, happ⟩ := asked ⟨hx, by unfold Fba.hasStart; rw [hst]; rfl, hr⟩
    rw [happ]
    have hk : r.kind = .washer := by rw [← hzk, hfig]; rfl
    obtain ⟨hd, hrest⟩ := starts_washer hu (hstarts hr) hk hclear hra hst hg hwant hbase hfill hfig hfit hslot
    obtain ⟨hsst, hstamp⟩ := hu.lasts
    obtain ⟨-, -, hg0, -⟩ := bare_fields hg
    have hknown : ((u.withStart slot r.kind r.wanted).node slot).known = true := by
      show (u.node slot).known = true
      rw [hu.node]
      rfl
    generalize review (u.withStart slot r.kind r.wanted) = v at *
    generalize reportTail slot r false v = t at *
    have hsame := sameGrant_reported (v.grant slot) r
    have hqueue : t.fba.startList = s.fba.startList ++ [slot] ∧ t.fba.starts = [] ∧ t.fba.raises = [] := by
      rw [hrest.fba]
      show v.fba.startList = _ ∧ v.fba.starts = _ ∧ v.fba.raises = _
      rw [hd.fba]
      show u.fba.startList ++ [slot] = _ ∧ (u.fba.starts ++ [startFor slot u r.kind r.wanted]).filter (·.machine != slot) = [] ∧
        u.fba.raises = _
      rw [hu.fba, hst]
      exact ⟨rfl, by simp [startFor], hra⟩
    have hcommitted : t.fba.committed = s.fba.committed + base := by
      have hcom : v.fba.committed + (u.grant slot).draw = u.fba.committed + base := hd.sums.1
      have hdraw : (u.grant slot).draw = 0 := (congrArg GrantEntry.draw hu.grant).trans hg0
      rw [hrest.sums.1, ← hu.sums.1, ← hcom, hdraw, Nat.add_zero]
    refine ⟨?_, ?_, ?_, ?_, ?_, ?_, hqueue.1, hqueue.2.1, hqueue.2.2, hcommitted⟩
    · rw [hrest.changes.record slot, hd.record]
      show (u.record slot).startedAt u.stamp u.sst.working.limits.guardMargin = _
      rw [hu.record, startedAt_session rfl, started_washer (by exact hfig), hstamp, hsst]
    · rw [hrest.grant, hsame.granted, hd.grant]
      rfl
    · rw [hrest.grant, hsame.fill, hd.grant]
      rfl
    · rw [hrest.grant, hsame.draw, hd.grant]
      rfl
    · rw [hrest.grant, hsame.pending, hd.grant]
      show (_ || _) = true
      rw [hknown, Bool.or_true]
    · unfold Levelled Mbc.waiting
      rw [hrest.queue]
      exact hd.levelled hknown

end Sys2Proof.Machine
end


section
/-! PROOF. What a review and a budget check keep of one machine: its level commands, its excess run, its hold (R59, R63, R65, R72). -/
namespace Sys2Proof.Machine

section
variable {m n : Addr} {s t u : State}

/-! ## Reviews and checks by their steps (R59, R65, R67) -/

/-- R59: what the clearing of OVER_BUDGET and every head granted keep, a review keeps. -/
theorem review_induction {P : State → Prop} (hclear : ∀ u, P u → P (u.withFba { u.fba with overBudget := false }))
    (hhead : ∀ u t, grantHead u = some t → P u → P t) (h : P s) : P (review s) := by
  have hheads : ∀ (k : Nat) (u : State), P u → P (grantHeads k u) := fun k => by
    induction k with
    | zero => exact fun u hu => hu
    | succ k ih =>
      intro u hu
      unfold grantHeads
      split
      · exact hu
      · next t ht => exact ih t (hhead u t ht hu)
  have h1 : P (clearOverBudget s) := by
    unfold clearOverBudget
    split
    · exact hclear s h
    · exact h
  unfold review reexamine
  split
  · exact h1
  · exact hheads _ _ h1

/-- R65, R67: what every shed and the declaration keep besides, a check or review keeps. -/
theorem checkOrReview_induction {P : State → Prop} (hclear : ∀ u, P u → P (u.withFba { u.fba with overBudget := false }))
    (hhead : ∀ u t, grantHead u = some t → P u → P t)
    (hshed : ∀ u n hi lo, u.sheddable n hi lo = true → P u → P (shedOne n lo u))
    (hdeclare : ∀ u b, P u → P (setEventIf b .overBudget (u.withFba { u.fba with overBudget := true }))) (h : P s) :
    P (checkOrReview s) := by
  have hstep : ∀ hi lo u, P u → P (shedStep hi lo u) := fun hi lo u hu => by
    unfold shedStep
    generalize u.fba.startList.reverse = ms
    induction ms generalizing u with
    | nil => exact hu
    | cons n ms ih =>
      refine ih _ ?_
      dsimp only
      split
      · next hc => exact hshed u n hi lo (by simp only [Bool.and_eq_true] at hc; exact hc.2) hu
      · exact hu
  unfold checkOrReview
  split
  · have h3 := hstep .heat .base _ (hstep .low .air _ (hstep .high .low s h))
    unfold budgetCheck
    dsimp only
    split
    · exact review_induction hclear hhead h3
    · exact hdeclare _ _ h3
  · exact review_induction hclear hhead h

/-! ## The level commands of a machine without an entry in the queue (R39, R59) -/

/-- R39: no level command for a machine has been queued. -/
def LevelsFrom (m : Addr) (s t : State) : Prop := ∀ e ∈ t.mbc.queue, e.fills m .level = true → e ∈ s.mbc.queue

namespace LevelsFrom

theorem of_queue (h : t.mbc.queue = s.mbc.queue) : LevelsFrom m s t := fun _ he _ => h ▸ he

theorem refl (m : Addr) (s : State) : LevelsFrom m s s := of_queue rfl

theorem trans (h : LevelsFrom m s t) (k : LevelsFrom m t u) : LevelsFrom m s u := fun e he hf => h e (k e he hf) hf

theorem ite {c : Prop} [Decidable c] (h : LevelsFrom m s t) (k : LevelsFrom m s u) : LevelsFrom m s (if c then t else u) := by
  split <;> assumption

theorem of_changes {ps : List Part} (h : ChangesOnly ps s t) (hp : ps.contains .mbc = false := by rfl) : LevelsFrom m s t :=
  of_queue (congrArg Mbc.queue (h.at .mbc hp))

end LevelsFrom

/-- R39: a command of another class, or for another node. -/
theorem levelsFrom_queueCommand {c : BusCommand} (h : n ≠ m ∨ c.cls ≠ some .level) (o : BusOwner) (s : State) :
    LevelsFrom m s (queueCommand n c o s) := by
  unfold queueCommand
  split
  · exact .refl m s
  · next k hk =>
    refine .ite (fun e he hf => ?_) (.refl m s)
    have hnew : ∀ e : BusEntry, e.addr = n → e.command = c → e.fills m .level = true → False := fun e ha hc hf => by
      obtain ⟨h1, h2⟩ := fills_iff.mp hf
      exact h.elim (fun h => h (ha.symm.trans h1)) fun h => h (hc ▸ h2)
    have he2 : e ∈ enqueueIn s.mbc.queue n k c o := he
    unfold enqueueIn at he2
    dsimp only at he2
    split at he2
    · obtain ⟨x, hx, hxe⟩ := List.mem_map.mp he2
      split at hxe
      · exact (hnew e (by rw [← hxe]) (by rw [← hxe]) hf).elim
      · rw [← hxe]
        exact hx
    · rcases List.mem_append.mp he2 with hx | hx
      · exact hx
      · rw [List.mem_singleton.mp hx] at hf
        exact (hnew _ rfl rfl hf).elim

theorem levelsFrom_queueGrant (h : n ≠ m) (l : Level) (f : Bool) (s : State) : LevelsFrom m s (queueGrant n l f s) :=
  .ite ((LevelsFrom.of_changes (setGrant_changes n _ s)).trans (levelsFrom_queueCommand (.inl h) _ _)) (.refl m s)

theorem levelsFrom_changeGrant (h : n ≠ m) (l : Level) (f : Bool) (s : State) : LevelsFrom m s (changeGrant n l f s) :=
  (LevelsFrom.of_changes (mapGrant_changes n _ s)).trans (levelsFrom_queueGrant h l f _)

theorem levelsFrom_compareWanted (h : n ≠ m) (s : State) : LevelsFrom m s (compareWanted n s) := by
  unfold compareWanted
  dsimp only
  split
  · split
    · have hc : ∀ (c : Prop) [Decidable c] l f, LevelsFrom m s (if c then s else changeGrant n l f s) :=
        fun c _ l f => .ite (.refl m s) (levelsFrom_changeGrant h l f s)
      exact .ite ((hc _ _ _).trans (.of_changes (setRaise_changes n _ _ _)))
        ((hc _ _ _).trans (.of_changes (removeRaise_changes n _)))
    · exact .refl m s
  · exact .refl m s

theorem levelsFrom_startRuns (h : n ≠ m) (e : GrantEntry) (l : Level) (f : Bool) (s : State) :
    LevelsFrom m s (startRuns n e l f s) :=
  ((LevelsFrom.of_changes (startGranted_changes n e s)).trans (levelsFrom_queueGrant h l f _)).trans
    (.of_changes (enterRunning_changes n _))

theorem levelsFrom_grantHead (hg : grantHead s = some t) (hr : s.fba.hasRaise m = false) (hs : s.fba.hasStart m = false) :
    LevelsFrom m s t := by
  unfold grantHead at hg
  split at hg
  · next e l hl =>
    have hne : e.machine ≠ m := by intro he; simp_all [Fba.hasRaise]
    unfold grantRaise at hg
    dsimp only at hg
    split at hg
    · cases hg
      exact (LevelsFrom.of_changes (removeRaise_changes e.machine s)).trans (levelsFrom_changeGrant hne _ _ _)
    · cases hg
  · next e l _ hl =>
    have hne : e.machine ≠ m := by intro he; simp_all [Fba.hasStart]
    unfold grantStart at hg
    split at hg
    · cases hg
    · split at hg
      · split at hg
        · cases hg
          rw [grantWasherStart_eq]
          exact (levelsFrom_startRuns hne _ _ _ s).trans (levelsFrom_compareWanted hne _)
        · cases hg
      · split at hg
        · cases hg
          rw [grantDryerStart_eq]
          exact .ite ((levelsFrom_startRuns hne _ _ _ s).trans (.of_changes (addRaise_changes _ _ _ _)))
            (levelsFrom_startRuns hne _ _ _ s)
        · cases hg
  · cases hg

/-- R59, R65: nothing of a machine is touched that neither waits nor runs. -/
structure Aloof (m : Addr) (s t : State) : Prop where
  apart  : Apart m s t
  levels : LevelsFrom m s t

theorem aloof_checkOrReview (h : (s.record m).state ≠ .running) (hr : s.fba.hasRaise m = false) (hs : s.fba.hasStart m = false) :
    Aloof m s (checkOrReview s) := by
  refine checkOrReview_induction (P := Aloof m s) (fun u hu => ⟨hu.apart.trans ⟨rfl, rfl, rfl, rfl⟩, hu.levels⟩)
    (fun u t ht hu => ?_) (fun u n hi lo hn hu => ?_) (fun u b hu => ?_) ⟨.refl m s, .refl m s⟩
  · have hur := hu.apart.raise.trans hr
    have hus := hu.apart.start.trans hs
    exact ⟨hu.apart.trans (apart_grantHead ht hur hus), hu.levels.trans (levelsFrom_grantHead ht hur hus)⟩
  · have hne : n ≠ m := fun he => by
      subst he
      obtain ⟨hx, -⟩ := sheddable_iff.mp hn
      exact h (hu.apart.record ▸ hx)
    exact ⟨hu.apart.trans ((apart_changeGrant hne _ _ u).trans (apart_ensureRaise hne _ _ _)),
      hu.levels.trans ((levelsFrom_changeGrant hne _ _ u).trans (.of_changes (ensureRaise_changes n _ _ _)))⟩
  · have hset := setEventIf_changes b .overBudget (u.withFba { u.fba with overBudget := true })
    exact ⟨hu.apart.trans ⟨hset.record m, hset.grant m, by rw [hset.at .fba]; rfl, by rw [hset.at .fba]; rfl⟩,
      hu.levels.trans (.of_queue (congrArg Mbc.queue (hset.at .mbc)))⟩

theorem levelsFrom_offerNext (s : State) : LevelsFrom m s (offerNext s) := by
  unfold offerNext
  split
  · exact .of_queue rfl
  · intro e he hf
    rcases List.mem_append.mp he with h | h
    · exact h
    · rw [List.mem_singleton.mp h] at hf
      exact absurd (fills_iff.mp hf).2 (by simp [BusCommand.cls])

/-- R38, R45: what follows FBA's part of a report without a fault code. -/
theorem levelsFrom_reportTail {r : NodeReport} (hr : r.fault = none) (answers : Bool) (x : State) :
    LevelsFrom m (feederReport m r x) (reportTail m r answers x) := by
  have hf : faultCode m r (feederReport m r x) = mapNode m (fun n => { n with lastFault := none }) (feederReport m r x) := by
    unfold faultCode
    rw [hr]
  unfold reportTail
  rw [hf]
  exact .ite ((LevelsFrom.of_queue rfl).trans (levelsFrom_offerNext _)) (.of_queue rfl)

/-! ## What regrants keep of a grant (R55, R62, R66, R72) -/

/-- R55, R71: what a regrant and a GRANT queued keep of an entry. -/
structure KeptByGrants (Q : GrantEntry → Prop) : Prop where
  regrant : ∀ e l f, Q e → Q (e.regrant l f)
  pending : ∀ e b, Q e → Q { e with pending := b }

variable {Q : GrantEntry → Prop}

theorem grant_changeGrant (hQ : KeptByGrants Q) (n : Addr) (l : Level) (f : Bool) (h : Q (s.grant m)) :
    Q ((changeGrant n l f s).grant m) := by
  by_cases hn : n = m
  · subst hn
    rw [changeGrant_grant]
    exact hQ.pending _ _ (hQ.regrant _ l f h)
  · rw [(apart_changeGrant hn l f s).grant]
    exact h

theorem grant_queueGrant (hQ : KeptByGrants Q) (n : Addr) (l : Level) (f : Bool) (h : Q (s.grant m)) :
    Q ((queueGrant n l f s).grant m) := by
  by_cases hn : n = m
  · subst hn
    rw [queueGrant_grant]
    exact hQ.pending _ _ h
  · rw [(apart_queueGrant hn l f s).grant]
    exact h

theorem grant_shedOne (hQ : KeptByGrants Q) (n : Addr) (l : Level) (h : Q (s.grant m)) : Q ((shedOne n l s).grant m) := by
  unfold shedOne
  dsimp only
  rw [show ∀ l f v, (ensureRaise n l f v).grant m = v.grant m from fun l f v => by
    unfold ensureRaise addRaise
    split <;> rfl]
  exact grant_changeGrant hQ n l _ h

theorem grant_compareWanted (hQ : KeptByGrants Q) (n : Addr) (h : Q (s.grant m)) : Q ((compareWanted n s).grant m) := by
  have hset : ∀ l f v, (setRaise n l f v).grant m = v.grant m := fun l f v => by
    unfold setRaise addRaise
    split <;> rfl
  have hv : ∀ (c : Prop) [Decidable c] l f, Q ((if c then s else changeGrant n l f s).grant m) := fun c _ l f => by
    split
    · exact h
    · exact grant_changeGrant hQ n _ _ h
  have hend : ∀ (c : Prop) [Decidable c] l f v, Q (v.grant m) → Q ((if c then setRaise n l f v else removeRaise n v).grant m) :=
    fun c _ l f v hq => by
      split
      · exact (hset l f v).symm ▸ hq
      · exact hq
  unfold compareWanted
  dsimp only
  split
  · split
    · exact hend _ _ _ _ (hv _ _ _)
    · exact h
  · exact h

theorem grant_grantRaise (hQ : KeptByGrants Q) {e : AdmEntry} (hg : grantRaise e s = some t) (h : Q (s.grant m)) :
    Q (t.grant m) := by
  unfold grantRaise at hg
  dsimp only at hg
  split at hg
  · cases hg
    exact grant_changeGrant (s := removeRaise e.machine s) hQ _ _ _ h
  · cases hg

/-- R59: what grants keep, and that a machine has no START entry, a head granted keeps. -/
theorem grant_grantHead_of (hQ : KeptByGrants Q) (hg : grantHead s = some t) (h : Q (s.grant m) ∧ s.fba.hasStart m = false) :
    Q (t.grant m) ∧ t.fba.hasStart m = false := by
  refine ⟨?_, (grantHead_record hg h.2).2⟩
  unfold grantHead at hg
  split at hg
  · exact grant_grantRaise hQ hg h.1
  · next e l _ hl =>
    rw [(apart_grantStart (by intro he; simp_all [Fba.hasStart]) hg).grant]
    exact h.1
  · cases hg

theorem grant_review_of (hQ : KeptByGrants Q) (hs : s.fba.hasStart m = false) (h : Q (s.grant m)) :
    Q ((review s).grant m) ∧ (review s).fba.hasStart m = false :=
  review_induction (P := fun u => Q (u.grant m) ∧ u.fba.hasStart m = false) (fun _ hu => hu)
    (fun _ _ ht hu => grant_grantHead_of hQ ht hu) ⟨h, hs⟩

/-- R65: a shed adds no START entry. -/
theorem hasStart_shedOne (n : Addr) (l : Level) (s : State) : (shedOne n l s).fba.hasStart m = s.fba.hasStart m := by
  have hk := (keepsStarts_changeGrant n l (s.grant n).fill s).trans (keepsStarts_ensureRaise n
    ((s.grant n).wanted.getD ((s.grant n).granted.getD l, (s.grant n).fill)).1
    ((s.grant n).wanted.getD ((s.grant n).granted.getD l, (s.grant n).fill)).2 _)
  exact congrArg (fun l : List AdmEntry => l.any (·.machine == m)) hk.1

theorem grant_checkOrReview_of (hQ : KeptByGrants Q) (hs : s.fba.hasStart m = false) (h : Q (s.grant m)) :
    Q ((checkOrReview s).grant m) ∧ (checkOrReview s).fba.hasStart m = false := by
  refine checkOrReview_induction (P := fun u => Q (u.grant m) ∧ u.fba.hasStart m = false) (fun _ hu => hu)
    (fun _ _ ht hu => grant_grantHead_of hQ ht hu)
    (fun u n _ lo _ hu => ⟨grant_shedOne hQ n lo hu.1, (hasStart_shedOne n lo u).trans hu.2⟩) (fun u b hu => ?_) ⟨h, hs⟩
  have hset := setEventIf_changes b .overBudget (u.withFba { u.fba with overBudget := true })
  exact ⟨(hset.grant m).symm ▸ hu.1, by rw [hset.at .fba]; exact hu.2⟩

/-- R55, R69: what grants keep, FBA's part of a report that rebuilds a RUNNING machine's grant keeps from the rebuild on. -/
theorem grant_feederReport_rebuilt {r : NodeReport} {g : Level} (hQ : KeptByGrants Q) (hx : (s.record m).state = .running)
    (hsilent : (s.grant m).heldSilent = true) (hg : (s.grant m).granted = some g) (hk : g.kind = r.kind)
    (hs : s.fba.hasStart m = false) (h : Q (((s.grant m).reported r).rebuilt g r.actual r.actualFill)) :
    Q ((feederReport m r s).grant m) := by
  have hself := mapGrant_self (m := m) (·.reported r) s
  have hsame := sameGrant_reported (s.grant m) r
  have hst : (mapGrant m (·.reported r) s).fba.hasStart m = false := hs
  have hrec : (mapGrant m (·.reported r) s).record m = s.record m := (mapGrant_changes m _ s).record m
  rw [feederReport_running hx hg hk]
  generalize mapGrant m (·.reported r) s = v at *
  have hreb : rebuildIfHeld m r.actual r.actualFill v = rebuildGrant m g r.actual r.actualFill v := by
    unfold rebuildIfHeld
    rw [hself, hsame.heldSilent, hsilent, hsame.granted, hg]
  rw [hreb]
  have hv : Q ((mapGrant m (fun e => e.rebuilt g r.actual r.actualFill) v).grant m) := by rw [mapGrant_self, hself]; exact h
  have h1 : Q ((rebuildGrant m g r.actual r.actualFill v).grant m) ∧
      (rebuildGrant m g r.actual r.actualFill v).fba.hasStart m = false := by
    unfold rebuildGrant
    dsimp only
    rw [hrec, if_pos hx]
    refine grant_checkOrReview_of hQ ?_ (grant_queueGrant hQ m _ _ hv)
    rw [Fba.hasStart, (keepsStarts_queueGrant m _ _ _).1]
    exact hst
  generalize rebuildGrant m g r.actual r.actualFill v = u at *
  have h2 := grant_compareWanted hQ m h1.1
  have hst2 : (compareWanted m u).fba.hasStart m = false := by
    rw [Fba.hasStart, (keepsStarts_compareWanted m u).1]
    exact h1.2
  unfold reviewDecrease
  split
  · exact (grant_review_of hQ hst2 h2).1
  · exact (grant_checkOrReview_of hQ hst2 h2).1

/-- R60, R61: what the grant of a START keeps of an entry. -/
structure KeptByStarts (Q : GrantEntry → Prop) : Prop extends KeptByGrants Q where
  washer : ∀ e d, Q e → Q (e.startedWasher d)
  dryer  : ∀ e d l target, Q e → Q (e.startedDryer d l target)

theorem grant_startRuns (hQ : KeptByGrants Q) (n : Addr) {e : GrantEntry} (l : Level) (f : Bool) (he : n = m → Q e)
    (h : Q (s.grant m)) : Q ((startRuns n e l f s).grant m) := by
  have hd := started_startRuns n e l f s
  by_cases hn : n = m
  · subst hn
    rw [hd.grant]
    exact hQ.pending _ _ (he rfl)
  · rw [hd.grants m (Ne.symm hn)]
    exact h

theorem grant_grantHead (hQ : KeptByStarts Q) (hg : grantHead s = some t) (h : Q (s.grant m)) : Q (t.grant m) := by
  unfold grantHead at hg
  split at hg
  · exact grant_grantRaise hQ.toKeptByGrants hg h
  · unfold grantStart at hg
    split at hg
    · cases hg
    · split at hg
      · split at hg
        · cases hg
          rw [grantWasherStart_eq]
          exact grant_compareWanted hQ.toKeptByGrants _
            (grant_startRuns hQ.toKeptByGrants _ _ _ (fun hn => hQ.washer _ _ (hn ▸ h)) h)
        · cases hg
      · split at hg
        · cases hg
          rw [grantDryerStart_eq]
          have hd := fun n d l target => grant_startRuns hQ.toKeptByGrants n (e := (s.grant n).startedDryer d l target) l false
            (fun hn => hQ.dryer _ _ _ _ (hn ▸ h)) h
          split <;> exact hd _ _ _ _
        · cases hg
  · cases hg

/-- R59, R65: what grants and starts keep, a review or check keeps. -/
theorem grant_checkOrReview (hQ : KeptByStarts Q) (h : Q (s.grant m)) : Q ((checkOrReview s).grant m) :=
  checkOrReview_induction (P := fun u => Q (u.grant m)) (fun _ hu => hu) (fun _ _ ht hu => grant_grantHead hQ ht hu)
    (fun _ n _ lo _ hu => grant_shedOne hQ.toKeptByGrants n lo hu)
    (fun u b hu => by
      rw [(setEventIf_changes b .overBudget (u.withFba { u.fba with overBudget := true })).grant m]
      exact hu) h

theorem grant_review (hQ : KeptByStarts Q) (h : Q (s.grant m)) : Q ((review s).grant m) :=
  review_induction (P := fun u => Q (u.grant m)) (fun _ hu => hu) (fun _ _ ht hu => grant_grantHead hQ ht hu) h

end

end Sys2Proof.Machine
end


section
/-! PROOF. Grants rebuilt by a report, grants that follow what a node wants, and the excess run (R55, R69, R72). -/
namespace Sys2Proof.Machine

section
variable {m : Addr} {s t u v w : State} {r : NodeReport} {g : Level}

/-! ## What MSV makes of a report of N_RUN (R18, R21) -/

theorem applyNodeState_runs (hx : (s.record m).state = .running) (hr : r.state = .nRun) : applyNodeState m r s = s := by
  unfold applyNodeState
  rw [hx]
  unfold runningReport
  dsimp only
  rw [hr]

theorem reporting_state (x : MachineRecord) (r : NodeReport) (b : Bool) : (x.reporting r b).state = x.state := rfl

/-- R18: a RUNNING machine's report of N_RUN leaves all to FBA. -/
theorem report_runs {rep : SlotReport} (hrep : ReportTaken s m rep r) (hr : r.state = .nRun) (hx : (s.record m).state = .running)
    (hkind : (s.record m).kind = some r.kind) :
    exec (.validReport m rep) s = .next (reportTail m r (s.mbc.discovery.answeredBy m) (arrived m r s)) ∧
      ((arrived m r s).record m).state = .running := by
  have hw := arrived_arrived hrep.2.2.2
  have hst : ((arrived m r s).record m).state = .running := by rw [hw.record]; exact hx
  have hexec := exec_report hrep
  rw [kindDiffers_of_same hkind] at hexec
  have hbody : reportBody m r false (arrived m r s) = arrived m r s := applyNodeState_runs hst hr
  rw [hbody] at hexec
  exact ⟨hexec, hst⟩

/-- R21: an ABORTING machine's report of N_RUN has STOP(abort) queued again. -/
theorem report_abortsOn {rep : SlotReport} (hrep : ReportTaken s m rep r) (hr : r.state = .nRun)
    (hx : (s.record m).state = .aborting) :
    exec (.validReport m rep) s =
      .next (reportTail m r (s.mbc.discovery.answeredBy m) (queueControl m (.stop true) (arrived m r s))) := by
  have hw := arrived_arrived hrep.2.2.2
  have hst : ((arrived m r s).record m).state = .aborting := by rw [hw.record]; exact hx
  have hexec := exec_report hrep
  rw [kindDiffers_of_aborting hx] at hexec
  have hbody : reportBody m r false (arrived m r s) = queueControl m (.stop true) (arrived m r s) := 
    (applyNodeState_aborting hst r).2 (by simp [hr]) (by simp [hr])
  rw [hbody] at hexec
  exact hexec

/-! ## A rebuilt grant (R69) -/

theorem reported_drawOf (e : GrantEntry) (r : NodeReport) (l : Level) : (e.reported r).drawOf l = e.drawOf l := by
  unfold GrantEntry.drawOf
  rw [(sameGrant_reported e r).draws]

/-- R69: an entry after a report and the rebuild from it. -/
structure Rebuilt (r : NodeReport) (g : Level) (e f : GrantEntry) : Prop where
  granted    : f.granted = some (rebuiltLevel g r.actual)
  fill       : f.fill = (e.fill && r.actualFill)
  draw       : f.draw = e.drawOf (rebuiltLevel g r.actual)
  heldSilent : f.heldSilent = false
  wanted     : f.wanted = some (r.wanted, r.wantedFill)
  held       : f.held = (rebuiltLevel g r.actual == .air && decide (0 < r.wanted.rank))

theorem rebuilt_rebuilt (e : GrantEntry) (r : NodeReport) (g : Level) :
    Rebuilt r g e ((e.reported r).rebuilt g r.actual r.actualFill) where
  granted := rfl
  fill := congrArg (· && r.actualFill) (sameGrant_reported e r).fill
  draw := reported_drawOf e r _
  heldSilent := rfl
  wanted := rfl
  held := rfl

theorem rebuildIfHeld_held (hsilent : (s.grant m).heldSilent = true) (hg : (s.grant m).granted = some g) (a : Level) (f : Bool) :
    rebuildIfHeld m a f s = rebuildGrant m g a f s := by
  unfold rebuildIfHeld
  rw [hsilent, hg]

/-- R69: in ABORTING the rebuilt grant stands, and no level command is queued. -/
theorem rebuilt_aborting (hx : (s.record m).state = .aborting) (hsilent : (s.grant m).heldSilent = true)
    (hg : (s.grant m).granted = some g) (hk : g.kind = r.kind) (hr : s.fba.hasRaise m = false) (hs : s.fba.hasStart m = false) :
    Rebuilt r g (s.grant m) ((feederReport m r s).grant m) ∧ LevelsFrom m s (feederReport m r s) := by
  have hself := mapGrant_self (m := m) (·.reported r) s
  have hsame := sameGrant_reported (s.grant m) r
  have hmap := mapGrant_changes m (·.reported r) s
  rw [feederReport_aborting hx, hg, if_neg (by simp [hk])]
  have hlev : LevelsFrom m s (mapGrant m (·.reported r) s) := .of_changes hmap
  have hst : (mapGrant m (·.reported r) s).fba.hasStart m = false ∧ (mapGrant m (·.reported r) s).fba.hasRaise m = false := ⟨hs, hr⟩
  have hrec := hmap.record m
  generalize mapGrant m (·.reported r) s = v at *
  rw [rebuildIfHeld_held (by rw [hself, hsame.heldSilent]; exact hsilent) (by rw [hself, hsame.granted]; exact hg)]
  have hself2 := mapGrant_self (m := m) (fun e => e.rebuilt g r.actual r.actualFill) v
  have hmap2 := mapGrant_changes m (fun e => e.rebuilt g r.actual r.actualFill) v
  have hne : (v.record m).state ≠ .running := by rw [hrec, hx]; simp
  unfold rebuildGrant
  dsimp only
  rw [if_neg hne]
  have hal := aloof_checkOrReview (m := m) (s := mapGrant m (fun e => e.rebuilt g r.actual r.actualFill) v)
    (by rw [hmap2.record m]; exact hne) hst.2 hst.1
  refine ⟨?_, (hlev.trans (.of_changes hmap2)).trans hal.levels⟩
  rw [hal.apart.grant, hself2, hself]
  exact rebuilt_rebuilt _ r g

/-- R69: of another kind nothing is rebuilt. -/
theorem feederReport_otherKind (hg : (s.grant m).granted = some g) (hk : g.kind ≠ r.kind) :
    feederReport m r s = mapGrant m (·.reported r) s := by
  unfold feederReport
  dsimp only
  rw [mapGrant_self, (sameGrant_reported _ r).granted, hg, Option.any_some]
  exact if_pos (by simpa using hk)

/-! ## A rebuild in RUNNING (R69) -/

/-- R59: a review within the budget leaves a machine alone that waits for nothing. -/
structure Settled (m : Addr) (s t : State) : Prop where
  apart  : Apart m s t
  bus    : SameBus m s t
  within : t.fba.committed ≤ t.fba.beff
  clear  : t.fba.overBudget = false

theorem settled_checkOrReview (h : s.fba.committed ≤ s.fba.beff) (hr : s.fba.hasRaise m = false) (hs : s.fba.hasStart m = false) :
    Settled m s (checkOrReview s) := by
  have hw := review_within h
  unfold checkOrReview
  rw [if_neg (Nat.not_lt.mpr h)]
  exact ⟨apart_review s hr hs, sameBus_review s hr hs, hw.2, hw.1⟩

theorem Settled.trans (h : Settled m s t) (k : Settled m t u) : Settled m s u :=
  ⟨h.apart.trans k.apart, h.bus.trans k.bus, k.within, k.clear⟩

/-- R69, R71: a grant rebuilt and GRANT queued, before the budget is looked at. -/
theorem rebuildGrant_running (hx : (s.record m).state = .running) (g a : Level) (f : Bool) :
    rebuildGrant m g a f s =
      checkOrReview (queueGrant m (rebuiltLevel g a) ((s.grant m).fill && f) (mapGrant m (·.rebuilt g a f) s)) := by
  unfold rebuildGrant
  dsimp only
  rw [if_pos hx, mapGrant_self]
  rfl

/-- R55, R69: a RUNNING machine's rebuilt grant, which its node wants no more than, within the budget. -/
theorem rebuilt_running (hx : (s.record m).state = .running) (hsilent : (s.grant m).heldSilent = true)
    (hg : (s.grant m).granted = some g) (hk : g.kind = r.kind) (hr : s.fba.hasRaise m = false) (hs : s.fba.hasStart m = false)
    (hknown : (s.node m).known = true) (hwant : r.wanted = rebuiltLevel g r.actual)
    (hfill : r.wantedFill = ((s.grant m).fill && r.actualFill))
    (hfit : s.fba.committed - (s.grant m).draw + (s.grant m).drawOf (rebuiltLevel g r.actual) ≤ s.fba.beff) :
    let t := feederReport m r s
    Rebuilt r g (s.grant m) (t.grant m) ∧ (t.grant m).pending = true ∧
    Levelled t m (rebuiltLevel g r.actual) ((s.grant m).fill && r.actualFill) ∧ t.fba.hasRaise m = false ∧
    t.fba.committed ≤ t.fba.beff ∧ t.fba.overBudget = false ∧ t.record m = s.record m := by
  have hself := mapGrant_self (m := m) (·.reported r) s
  have hsame := sameGrant_reported (s.grant m) r
  have hmap := mapGrant_changes m (·.reported r) s
  have hsums := sums_reported m r s
  have hcon : (mapGrant m (·.reported r) s).fba.hasStart m = false ∧ (mapGrant m (·.reported r) s).fba.hasRaise m = false ∧
      (mapGrant m (·.reported r) s).fba.beff = s.fba.beff := ⟨hs, hr, rfl⟩
  intro t
  have ht : t = _ := feederReport_running hx hg hk
  clear_value t
  generalize mapGrant m (·.reported r) s = v at *
  have hvg := (congrArg GrantEntry.granted hself).trans (hsame.granted.trans hg)
  rw [rebuildIfHeld_held ((congrArg GrantEntry.heldSilent hself).trans (hsame.heldSilent.trans hsilent)) hvg,
    rebuildGrant_running (by rw [hmap.record m]; exact hx), hself, hsame.fill] at ht
  have hself2 := mapGrant_self (m := m) (·.rebuilt g r.actual r.actualFill) v
  have hmap2 := mapGrant_changes m (·.rebuilt g r.actual r.actualFill) v
  have hsum2 : (mapGrant m (·.rebuilt g r.actual r.actualFill) v).fba.committed + (v.grant m).draw = v.fba.committed + _ :=
    committed_setGrant m _ v
  have hcon2 : (mapGrant m (·.rebuilt g r.actual r.actualFill) v).fba.hasStart m = false ∧
      (mapGrant m (·.rebuilt g r.actual r.actualFill) v).fba.hasRaise m = false ∧
      (mapGrant m (·.rebuilt g r.actual r.actualFill) v).fba.beff = s.fba.beff := hcon
  have hreb := rebuilt_rebuilt (s.grant m) r g
  rw [← hself] at hreb
  rw [hreb.draw, hself, hsame.draw] at hsum2
  rw [← hself2] at hreb
  generalize mapGrant m (·.rebuilt g r.actual r.actualFill) v = x at *
  have hxk : (x.node m).known = true := by rw [hmap2.node m, hmap.node m]; exact hknown
  have hlev := levelled_queueGrant (s := x) (l := rebuiltLevel g r.actual) (f := (s.grant m).fill && r.actualFill) hxk
  have hqg := queueGrant_grant m (rebuiltLevel g r.actual) ((s.grant m).fill && r.actualFill) x
  have hqf := queueGrant_entries m (rebuiltLevel g r.actual) ((s.grant m).fill && r.actualFill) x
  have hqb := (queueGrant_budget m (rebuiltLevel g r.actual) ((s.grant m).fill && r.actualFill) x).1
  have hqc := queueGrant_changes m (rebuiltLevel g r.actual) ((s.grant m).fill && r.actualFill) x
  generalize queueGrant m (rebuiltLevel g r.actual) ((s.grant m).fill && r.actualFill) x = q at *
  rw [hxk, Bool.or_true] at hqg
  have hdraw := draw_le_committed m s
  have hq : q.fba.hasRaise m = false ∧ q.fba.hasStart m = false ∧ q.fba.beff = s.fba.beff := by
    rw [hqf]
    exact ⟨hcon2.2.1, hcon2.1, hcon2.2.2⟩
  have h1 := settled_checkOrReview (m := m) (s := q) (by omega) hq.1 hq.2.1
  generalize checkOrReview q = y at *
  have hyg : y.grant m = { x.grant m with pending := true } := h1.apart.grant.trans hqg
  have hyr := h1.apart.raise.trans hq.1
  have hys := h1.apart.start.trans hq.2.1
  have hcmp : compareWanted m y = y := by
    rw [compareWanted_stands (g := rebuiltLevel g r.actual) (l := r.wanted) (f := r.wantedFill) (by rw [hyg]; exact hreb.granted)
      (by rw [hyg]; exact hreb.wanted) (by rw [hwant]) (by rw [hwant]) (by rw [hyg, hfill]; exact fun h => hreb.fill ▸ h)]
    rw [if_neg ?_, removeRaise_none hyr]
    rw [hyg, hfill, hwant]
    simp [hreb.fill]
  have hdec : reviewDecrease y = checkOrReview y := if_neg (by simp [h1.clear])
  rw [hcmp, hdec] at ht
  have h2 := h1.trans (settled_checkOrReview h1.within hyr hys)
  rw [← ht] at h2
  have htg : t.grant m = { x.grant m with pending := true } := h2.apart.grant.trans hqg
  refine ⟨?_, by rw [htg], ?_, h2.apart.raise.trans hq.1, h2.within, h2.clear, ?_⟩
  · rw [htg]
    exact ⟨hreb.granted, hreb.fill, hreb.draw, hreb.heldSilent, hreb.wanted, hreb.held⟩
  · unfold Levelled
    rw [h2.bus.waits]
    exact hlev
  · rw [h2.apart.record, hqc.record m, hmap2.record m, hmap.record m]

/-! ## The hold of a dryer whose grant is rebuilt (R63, R69) -/

/-- R63: a grant on hold exactly where it stands at AIR and more is wanted. -/
structure HoldRight (r : NodeReport) (e : GrantEntry) : Prop where
  granted : e.granted.isSome = true
  wanted  : e.wanted = some (r.wanted, r.wantedFill)
  held    : e.held = (e.granted == some .air && decide (0 < r.wanted.rank))

theorem holdRight_kept (r : NodeReport) : KeptByGrants (HoldRight r) where
  regrant e l f h := by
    refine ⟨rfl, h.wanted, ?_⟩
    have hw : e.wantsHeat = decide (0 < r.wanted.rank) := by
      unfold GrantEntry.wantsHeat
      rw [h.wanted]
      rfl
    show e.holdAt l = _
    unfold GrantEntry.holdAt
    have hair : (if e.granted = some .air then e.held else e.wantsHeat) = decide (0 < r.wanted.rank) := by
      split
      · next hg => rw [h.held, hg]; rfl
      · exact hw
    rw [hair]
    rfl
  pending e b h := ⟨h.granted, h.wanted, h.held⟩

theorem Rebuilt.holdRight {e f : GrantEntry} (h : Rebuilt r g e f) : HoldRight r f :=
  ⟨by rw [h.granted]; rfl, h.wanted, by rw [h.held, h.granted]; rfl⟩

theorem onHold_holdRight {z : Session} (hz : (s.record m).session = some z) (hk : z.figures.kind = .dryer)
    (h : HoldRight r (s.grant m)) (hw : r.wanted.kind = .dryer) :
    s.onHold m = decide ((s.grant m).granted = some .air ∧ r.wanted ≠ .air) := by
  have hrank : decide (0 < r.wanted.rank) = decide (r.wanted ≠ .air) := by
    revert hw
    cases r.wanted <;> simp [Level.kind, Level.rank]
  rw [onHold_dryer hz hk, h.held, hrank, Bool.decide_and, Bool.beq_eq_decide_eq]

theorem reporting_payer (x : MachineRecord) (r : NodeReport) (b : Bool) :
    (x.reporting r b).session.map (·.payer) = x.session.map (·.payer) := by
  cases h : x.session <;> simp [MachineRecord.reporting, MachineRecord.withReport, h]

theorem Rebuilt.of_reporting {e f : GrantEntry} {a b : Bool} (h : Rebuilt r g (e.reporting a b) f) : Rebuilt r g e f :=
  ⟨h.granted, h.fill, h.draw, h.heldSilent, h.wanted, h.held⟩

/-- R69: a report of N_RUN that finds an ABORTING machine's grant held silent. -/
theorem report_rebuilds_aborting {rep : SlotReport} (hrep : ReportTaken s m rep r) (hsilent : (s.grant m).heldSilent = true)
    (hg : (s.grant m).granted = some g) (hrun : r.state = .nRun) (hs : s.fba.hasStart m = false) (hr : s.fba.hasRaise m = false)
    (hx : (s.record m).state = .aborting) :
    ∃ t, exec (.validReport m rep) s = .next t ∧
      (g.kind = r.kind → Rebuilt r g (s.grant m) (t.grant m) ∧ LevelsFrom m s t) ∧
      (g.kind ≠ r.kind → (t.grant m).granted = some g ∧ (t.grant m).fill = (s.grant m).fill ∧
        (t.grant m).draw = (s.grant m).draw ∧ (t.grant m).heldSilent = true) := by
  have hf := (reportable_of_decode hrep.2.1).fault.mpr (show r.state ≠ .nFault by simp [hrun])
  have hw := arrived_arrived hrep.2.2.2
  refine ⟨_, report_abortsOn hrep hrun hx, ?_⟩
  generalize arrived m r s = w at *
  have hq := queueControl_changes m (.stop true) w
  have hlev : LevelsFrom m s (queueControl m (.stop true) w) := by
    refine LevelsFrom.trans (t := w) (fun e he _ => ?_) (levelsFrom_queueCommand (.inr (by simp [BusCommand.cls])) _ w)
    rw [hw.queue] at he
    exact unechoed_subset _ _ _ _ (unechoed_subset _ _ _ _ he)
  have hgu := (hq.grant m).trans hw.grant
  have hxu : ((queueControl m (.stop true) w).record m).state = .aborting := by rw [hq.record m, hw.record]; exact hx
  have hru : (queueControl m (.stop true) w).fba.hasRaise m = false ∧ (queueControl m (.stop true) w).fba.hasStart m = false := by
    rw [hq.at .fba, hw.fba]
    exact ⟨hr, hs⟩
  generalize queueControl m (.stop true) w = u at *
  have ht := reported_reportTail (m := m) hf (s.mbc.discovery.answeredBy m) u
  have hlt := levelsFrom_reportTail (m := m) hf (s.mbc.discovery.answeredBy m) u
  have hgr : (u.grant m).granted = some g := (congrArg GrantEntry.granted hgu).trans hg
  rw [ht.changes.grant m]
  refine ⟨fun hk => ?_, fun hk => ?_⟩
  · have h := rebuilt_aborting hxu ((congrArg GrantEntry.heldSilent hgu).trans hsilent) hgr hk hru.1 hru.2
    rw [hgu] at h
    exact ⟨h.1.of_reporting, (hlev.trans h.2).trans hlt⟩
  · have hsame := sameGrant_reported (u.grant m) r
    rw [feederReport_otherKind hgr hk, mapGrant_self, hsame.granted, hsame.fill, hsame.draw, hsame.heldSilent, hgu]
    exact ⟨hg, rfl, rfl, hsilent⟩

/-- R55, R63, R69: a report of N_RUN that finds a RUNNING machine's grant held silent. -/
theorem report_rebuilds_running {rep : SlotReport} (hrep : ReportTaken s m rep r) (hsilent : (s.grant m).heldSilent = true)
    (hg : (s.grant m).granted = some g) (hrun : r.state = .nRun) (hs : s.fba.hasStart m = false) (hr : s.fba.hasRaise m = false)
    (hx : (s.record m).state = .running) (hkind : (s.record m).kind = some r.kind) (hk : g.kind = r.kind) :
    ∃ t, exec (.validReport m rep) s = .next t ∧
      (r.wanted = rebuiltLevel g r.actual → r.wantedFill = ((s.grant m).fill && r.actualFill) →
        s.fba.committed - (s.grant m).draw + (s.grant m).drawOf (rebuiltLevel g r.actual) ≤ s.fba.beff →
        Rebuilt r g (s.grant m) (t.grant m) ∧ (t.grant m).pending = true ∧
        Levelled t m (rebuiltLevel g r.actual) ((s.grant m).fill && r.actualFill) ∧ t.fba.hasRaise m = false ∧
        t.fba.committed ≤ t.fba.beff ∧ t.fba.overBudget = false) ∧
      t.record m = (s.record m).reporting r (s.armEchoed m r.ctlTag) ∧ HoldRight r (t.grant m) := by
  have hf := (reportable_of_decode hrep.2.1).fault.mpr (show r.state ≠ .nFault by simp [hrun])
  have hw := arrived_arrived hrep.2.2.2
  obtain ⟨hexec, hxw⟩ := report_runs hrep hrun hx hkind
  refine ⟨_, hexec, ?_⟩
  generalize arrived m r s = w at *
  have hgw : (w.grant m).granted = some g := (congrArg GrantEntry.granted hw.grant).trans hg
  have hsw : (w.grant m).heldSilent = true := (congrArg GrantEntry.heldSilent hw.grant).trans hsilent
  have hfw : w.fba.hasRaise m = false ∧ w.fba.hasStart m = false ∧ w.fba.beff = s.fba.beff := by
    rw [hw.fba]
    exact ⟨hr, hs, rfl⟩
  have ht := reported_reportTail (m := m) hf (s.mbc.discovery.answeredBy m) w
  have hrec := (stands_feederReport (m := m) (r := r) (s := w) (by rw [hxw]; simp) hfw.2.1).1
  have hhold := grant_feederReport_rebuilt (r := r) (holdRight_kept r) hxw hsw hgw hk hfw.2.1 (rebuilt_rebuilt _ r g).holdRight
  have hfba : (reportTail m r (s.mbc.discovery.answeredBy m) w).fba = (feederReport m r w).fba := ht.changes.at .fba
  rw [ht.changes.grant m, ht.changes.record m, hrec, hfba]
  refine ⟨fun hwant hfill hfit => ?_, hw.record, hhold⟩
  have h := rebuilt_running hxw hsw hgw hk hfw.1 hfw.2.1 (by rw [hw.node]; rfl) hwant
    (by rw [hw.grant]; exact hfill) (by rw [hw.grant, hw.sums.1, hfw.2.2]; exact hfit)
  obtain ⟨h1, h2, h3, h4, h5, h6, -⟩ := h
  rw [hw.grant] at h1 h3
  refine ⟨h1.of_reporting, h2, ?_, h4, h5, h6⟩
  unfold Levelled
  rw [ht.waits]
  exact h3

/-! ## A grant that follows what the node wants (R55, R59, R62) -/

/-- R55: the level left of a grant once a node wants a level. -/
def loweredLevel (g l : Level) : Level := if l.rank < g.rank then l else g

/-- R55: a decrease, where there is one, has been taken. -/
def State.lowered (s : State) (m : Addr) (g l : Level) (f : Bool) : State :=
  if loweredLevel g l = g ∧ ((s.grant m).fill && f) = (s.grant m).fill then s
  else changeGrant m (loweredLevel g l) ((s.grant m).fill && f) s

/-- R55: the RAISE entry by what is still wanted. -/
def asked (m : Addr) (more : Bool) (l : Level) (f : Bool) (s : State) : State := if more then setRaise m l f s else removeRaise m s

theorem compareWanted_of {l : Level} {f : Bool} (hg : (s.grant m).granted = some g) (hw : (s.grant m).wanted = some (l, f))
    (hk : g.kind = l.kind) :
    compareWanted m s = asked m (decide ((loweredLevel g l).rank < l.rank) || (f && !((s.grant m).fill && f))) l f (s.lowered m g l f) := by
  unfold compareWanted
  dsimp only
  rw [hg, hw]
  exact if_pos hk

/-- R55, R71: what a decrease leaves. -/
structure Lowered (m : Addr) (g l : Level) (f : Bool) (s t : State) : Prop where
  granted : (t.grant m).granted = some l
  fill    : (t.grant m).fill = f
  draw    : (t.grant m).draw = if l ≠ g ∨ f ≠ (s.grant m).fill then (s.grant m).drawOf l else (s.grant m).draw
  draws   : (t.grant m).draws = (s.grant m).draws
  told    : l ≠ g ∨ f ≠ (s.grant m).fill → (t.grant m).pending = true ∧ Levelled t m l f
  grants  : ∀ k, k ≠ m → t.grant k = s.grant k
  fba     : t.fba = { s.fba with entries := t.fba.entries }
  sums    : t.fba.committed + (s.grant m).draw = s.fba.committed + (t.grant m).draw ∧
    t.fba.fillCount + (s.grant m).fill.toNat = s.fba.fillCount + f.toNat
  node    : t.node m = s.node m
  changes : ChangesOnly [.mbc, .fba] s t

theorem lowered_lowered {l : Level} {f : Bool} (hg : (s.grant m).granted = some g) (hknown : (s.node m).known = true) :
    Lowered m g (loweredLevel g l) ((s.grant m).fill && f) s (s.lowered m g l f) := by
  unfold State.lowered
  by_cases h : loweredLevel g l = g ∧ ((s.grant m).fill && f) = (s.grant m).fill
  · have hno : ¬(loweredLevel g l ≠ g ∨ ((s.grant m).fill && f) ≠ (s.grant m).fill) := by simp [h.1, h.2]
    rw [if_pos h]
    exact
      { granted := by rw [h.1]; exact hg
        fill := h.2.symm
        draw := (if_neg hno).symm
        draws := rfl
        told := fun hl => absurd hl hno
        grants := fun _ _ => rfl
        fba := rfl
        sums := ⟨rfl, by rw [h.2]⟩
        node := rfl
        changes := .refl _ s }
  · have hyes : loweredLevel g l ≠ g ∨ ((s.grant m).fill && f) ≠ (s.grant m).fill := by
      rcases not_and_or.mp h with h | h
      · exact .inl h
      · exact .inr h
    rw [if_neg h]
    have hd := regranted_changeGrant m (loweredLevel g l) ((s.grant m).fill && f) s
    generalize changeGrant m (loweredLevel g l) ((s.grant m).fill && f) s = t at *
    have hdraw : (t.grant m).draw = (s.grant m).drawOf (loweredLevel g l) := by rw [hd.grant]; rfl
    exact
      { granted := by rw [hd.grant]; rfl
        fill := by rw [hd.grant]; rfl
        draw := by rw [if_pos hyes]; exact hdraw
        draws := by rw [hd.grant]; rfl
        told := fun _ => ⟨by rw [hd.grant, hknown, Bool.or_true], hd.levelled hknown⟩
        grants := hd.grants
        fba := hd.fba
        sums := ⟨by rw [hdraw]; exact hd.sums.1, hd.sums.2⟩
        node := hd.node m
        changes := hd.changes }

/-- R58: the RAISE group after what is still wanted has been asked for. -/
def raisesAsked (s : State) (m : Addr) (more : Bool) (l : Level) (f : Bool) : List AdmEntry :=
  if more = true then
    if s.fba.hasRaise m = true then s.fba.raises.map fun a => if a.machine = m then { a with level := l, fill := f } else a
    else s.fba.raises ++
      [{ machine := m, level := l, fill := f, arrival := s.fba.arrivals, timer := s.sst.working.limits.raiseWait * 60 }]
  else s.fba.raises.filter (·.machine != m)

/-- R55, R58: a RAISE entry asked for, or gone. -/
structure Asked (m : Addr) (more : Bool) (l : Level) (f : Bool) (s t : State) : Prop where
  raises  : t.fba.raises = raisesAsked s m more l f
  rest    : t.fba.starts = s.fba.starts ∧ t.fba.entries = s.fba.entries ∧ t.fba.overBudget = s.fba.overBudget ∧
    t.fba.beff = s.fba.beff
  changes : ChangesOnly [.fba] s t

theorem asked_asked (m : Addr) (more : Bool) (l : Level) (f : Bool) (s : State) : Asked m more l f s (asked m more l f s) := by
  unfold asked
  cases more with
  | false => exact ⟨rfl, ⟨rfl, rfl, rfl, rfl⟩, removeRaise_changes m s⟩
  | true =>
    have hmap : (s.fba.raises.map fun a => if a.machine == m then { a with level := l, fill := f } else a) =
        s.fba.raises.map fun a => if a.machine = m then { a with level := l, fill := f } else a := by
      simp only [beq_iff_eq]
    refine ⟨?_, ?_, setRaise_changes m l f s⟩
    · show (setRaise m l f s).fba.raises = if s.fba.hasRaise m = true then _ else _
      unfold setRaise
      split
      · exact hmap
      · rfl
    · show (setRaise m l f s).fba.starts = _ ∧ _
      unfold setRaise addRaise
      split <;> exact ⟨rfl, rfl, rfl, rfl⟩

/-- R55: more is wanted than the decrease has left. -/
def wantsMore (g : Level) (fill : Bool) (r : NodeReport) : Bool :=
  decide ((loweredLevel g r.wanted).rank < r.wanted.rank) || (r.wantedFill && !(fill && r.wantedFill))

theorem wantsMore_iff {fill : Bool} : wantsMore g fill r = true ↔
    (loweredLevel g r.wanted).rank < r.wanted.rank ∨ (r.wantedFill = true ∧ (fill && r.wantedFill) = false) := by
  unfold wantsMore
  simp only [Bool.or_eq_true, decide_eq_true_eq, Bool.and_eq_true, Bool.not_eq_true']

/-- R55, R58: a report's decrease taken and what more it wants asked for, before the queue is reviewed. -/
structure Followed (m : Addr) (g : Level) (r : NodeReport) (s t : State) : Prop where
  granted : (t.grant m).granted = some (loweredLevel g r.wanted)
  fill    : (t.grant m).fill = ((s.grant m).fill && r.wantedFill)
  draw    : (t.grant m).draw =
    if loweredLevel g r.wanted ≠ g ∨ ((s.grant m).fill && r.wantedFill) ≠ (s.grant m).fill then
      (s.grant m).drawOf (loweredLevel g r.wanted) else (s.grant m).draw
  drawOf  : ∀ l, (t.grant m).drawOf l = (s.grant m).drawOf l
  told    : loweredLevel g r.wanted ≠ g ∨ ((s.grant m).fill && r.wantedFill) ≠ (s.grant m).fill →
    (t.grant m).pending = true ∧ Levelled t m (loweredLevel g r.wanted) ((s.grant m).fill && r.wantedFill)
  grants  : ∀ k, k ≠ m → t.grant k = s.grant k
  raises  : t.fba.raises = raisesAsked s m (wantsMore g (s.grant m).fill r) r.wanted r.wantedFill
  rest    : t.fba.starts = s.fba.starts ∧ t.fba.overBudget = s.fba.overBudget ∧ t.fba.beff = s.fba.beff ∧ t.sst = s.sst
  sums    : t.fba.committed = s.fba.committed - (s.grant m).draw + (t.grant m).draw ∧
    t.fba.fillCount + (s.grant m).fill.toNat = s.fba.fillCount + ((s.grant m).fill && r.wantedFill).toNat
  known   : (t.node m).known = true

/-- R55: FBA's part of a report of a RUNNING machine whose grant is not held silent. -/
theorem followed_feederReport (hw : Arrived m r s w) (hrep : Reportable r) (hx : (s.record m).state = .running)
    (hsilent : (s.grant m).heldSilent = false) (hg : (s.grant m).granted = some g) (hk : g.kind = r.kind) :
    ∃ y, Followed m g r s y ∧ feederReport m r w = reviewDecrease y := by
  have hgw := congrArg GrantEntry.granted hw.grant
  have hxw : (w.record m).state = .running := by rw [hw.record]; exact hx
  have hfeed := feederReport_running (r := r) hxw (hgw.trans hg) hk
  have hself := mapGrant_self (m := m) (·.reported r) w
  have hsame := sameGrant_reported (w.grant m) r
  have hmap := mapGrant_changes m (·.reported r) w
  have hsums := sums_reported m r w
  have hfba : (mapGrant m (·.reported r) w).fba = { w.fba with entries := (mapGrant m (·.reported r) w).fba.entries } := rfl
  have hother : ∀ k, k ≠ m → (mapGrant m (·.reported r) w).grant k = w.grant k := fun k hk => by simp [mapGrant, Ne.symm hk]
  have hwant : ((mapGrant m (·.reported r) w).grant m).wanted = some (r.wanted, r.wantedFill) := by rw [hself]; rfl
  generalize mapGrant m (·.reported r) w = v at *
  have hvg : (v.grant m).granted = some g := by rw [hself, hsame.granted, hgw]; exact hg
  have hvf : (v.grant m).fill = (s.grant m).fill := by rw [hself, hsame.fill, hw.grant]; rfl
  have hvd : (v.grant m).draw = (s.grant m).draw := by rw [hself, hsame.draw, hw.grant]; rfl
  have hvs : (v.grant m).draws = (s.grant m).draws := by rw [hself, hsame.draws, hw.grant]; rfl
  have hvh : (v.grant m).heldSilent = false := by rw [hself, hsame.heldSilent, hw.grant]; exact hsilent
  have hvo : ∀ l, (v.grant m).drawOf l = (s.grant m).drawOf l := fun l => by unfold GrantEntry.drawOf; rw [hvs]
  have hvk : (v.node m).known = true := by rw [hmap.node m, hw.node]; rfl
  have hvfba : v.fba = { s.fba with entries := v.fba.entries } := by rw [hfba, hw.fba]
  have hvsst : v.sst = s.sst := (hmap.at .sst).trans (hw.changes.at .sst)
  rw [rebuildIfHeld_clear hvh, compareWanted_of hvg hwant (hk.trans hrep.wanted.symm)] at hfeed
  have hl := lowered_lowered (l := r.wanted) (f := r.wantedFill) hvg hvk
  generalize v.lowered m g r.wanted r.wantedFill = x at *
  have hxfba : x.fba = { s.fba with entries := x.fba.entries } := by rw [hl.fba, hvfba]
  have hxsst : x.sst = s.sst := (hl.changes.at .sst).trans hvsst
  have hmore : (decide ((loweredLevel g r.wanted).rank < r.wanted.rank) || (r.wantedFill && !((v.grant m).fill && r.wantedFill))) =
      wantsMore g (s.grant m).fill r := by rw [hvf]; rfl
  rw [hmore] at hfeed
  have ha := asked_asked m (wantsMore g (s.grant m).fill r) r.wanted r.wantedFill x
  refine ⟨_, ?_, hfeed⟩
  generalize asked m (wantsMore g (s.grant m).fill r) r.wanted r.wantedFill x = y at *
  have hyg : ∀ k, y.grant k = x.grant k := fun k => by unfold State.grant; rw [ha.rest.2.1]
  have hsum : y.fba.committed = x.fba.committed ∧ y.fba.fillCount = x.fba.fillCount := by
    unfold Fba.committed Fba.fillCount
    rw [ha.rest.2.1]
    exact ⟨rfl, rfl⟩
  have hle := draw_le_committed m s
  have hc := hl.sums.1
  have hcv := hsums.1.trans hw.sums.1
  have hfv := hsums.2.trans hw.sums.2
  exact
    { granted := by rw [hyg]; exact hl.granted
      fill := by rw [hyg, hl.fill, hvf]
      draw := by rw [hyg, hl.draw, hvf, hvo, hvd]
      drawOf := fun l => by rw [hyg, ← hvo]; unfold GrantEntry.drawOf; rw [hl.draws]
      told := fun h => by
        rw [hyg, ← hvf]
        obtain ⟨h1, h2⟩ := hl.told (by rw [hvf]; exact h)
        refine ⟨h1, ?_⟩
        unfold Levelled
        rw [ha.changes.at .mbc]
        exact h2
      grants := fun k hk => by rw [hyg, hl.grants k hk, hother k hk, hw.grants k hk]
      raises := by
        rw [ha.raises]
        unfold raisesAsked Fba.hasRaise
        rw [hxfba, hxsst]
      rest := ⟨by rw [ha.rest.1, hxfba], by rw [ha.rest.2.2.1, hxfba], by rw [ha.rest.2.2.2, hxfba], (ha.changes.at .sst).trans hxsst⟩
      sums := by
        rw [hyg, hsum.1, hsum.2]
        have hf := hl.sums.2
        rw [hvf, hfv] at hf
        exact ⟨by omega, hf⟩
      known := by rw [ha.changes.node m, hl.node]; exact hvk }

end

end Sys2Proof.Machine
end


section
/-! PROOF. The excess run of a report (R72). -/
namespace Sys2Proof.Machine

section
variable {m : Addr} {s t u v w : State} {r : NodeReport} {Q : GrantEntry → Prop}

/-! ## A grant stands through an order (R20) -/

theorem grant_abortUnstarted (m : Addr) (b : Bool) (d : MState) (s : State) : (abortUnstarted m b d s).grant m = s.grant m := by
  have h := (queueControl_changes m .disarm (review (removeEntries m s))).seq
    (disposeSession_changes m (s.orderRefund m b) (queueControl m .disarm (review (removeEntries m s)))) (rs := [.msv, .mbc, .jrn, .cru, .evu])
  unfold abortUnstarted
  rw [(enterState_changes m d _).grant m, h.grant m]
  exact (withdrawn_review m s).grant

theorem grant_abortRunning (m : Addr) (b : Bool) (d : StopDest) (s : State) : (abortRunning m b d s).grant m = s.grant m := by
  unfold abortRunning
  dsimp only
  rw [(mapRecord_changes m _ _).grant m, (disposeSession_changes m _ _).grant m, (withdrawn_review m _).grant]
  exact (queueControl_changes m (.stop true) s).grant m

theorem grant_abortIn (m : Addr) (sev : Severity) (b : Bool) (s : State) : (abortIn m sev b s).grant m = s.grant m := by
  unfold abortIn
  split
  · exact grant_abortUnstarted m b _ s
  · exact grant_abortUnstarted m b _ s
  · exact (withdrawn_review m _).grant
  · exact grant_abortUnstarted m b _ s
  · exact grant_abortUnstarted m b _ s
  · exact grant_abortRunning m b _ s
  · exact grant_abortRunning m b _ s
  · exact (mapRecord_changes m _ s).grant m
  · exact (mapRecord_changes m _ s).grant m
  any_goals exact (enterState_changes m _ s).grant m
  · rfl

theorem grant_selfAbort (m : Addr) (c : FaultCause) (s : State) : (selfAbort m c s).grant m = s.grant m := by
  have horder : ∀ (sev : Severity) (u : State), (orderAbort m sev true u).grant m = u.grant m := fun sev u => by
    unfold orderAbort applyAbort
    rw [(storeRefund_changes m _ _).grant m, grant_abortIn, (endRecovery_changes m u).grant m]
  unfold selfAbort
  dsimp only
  rw [(setEvent_changes _ _).grant m, (writeFree_changes _ _).grant m]
  split
  · rw [(setOpenMark_changes m _ _).grant m, horder]
    rfl
  · rw [horder]
    rfl

/-- R3: in these states a report of N_RUN leaves FBA's entry to FBA. -/
theorem grant_applyNodeState (hr : r.state = .nRun)
    (hx : (s.record m).state ≠ .armed ∧ (s.record m).state ≠ .starting ∧ (s.record m).state ≠ .recovering) :
    (applyNodeState m r s).grant m = s.grant m := by
  have hfree : ∀ u : State, (commandUnpaid m r.state u).grant m = u.grant m := fun u => (commandUnpaid_changes m r.state u).grant m
  obtain ⟨h1, h2, h3⟩ := hx
  cases hst : (s.record m).state with
  | armed => exact absurd hst h1
  | starting => exact absurd hst h2
  | recovering => exact absurd hst h3
  | running => rw [applyNodeState_runs hst hr]
  | aborting =>
    rw [(applyNodeState_aborting hst r).2 (by simp [hr]) (by simp [hr])]
    exact (queueControl_changes m _ s).grant m
  | reserved => unfold applyNodeState; rw [hst]
  | idle | outOfService => unfold applyNodeState; rw [hst]; exact hfree s
  | absent | offline => unfold applyNodeState; rw [hst]; exact (hfree _).trans ((enterState_changes m .idle s).grant m)
  | done | faulted =>
    unfold applyNodeState
    rw [hst]
    exact ((doorRelease_changes m r.door _).grant m).trans (hfree s)

/-! ## FBA's part of any report (R55) -/

theorem grant_rebuildIfHeld (hQ : KeptByStarts Q) (hreb : ∀ e g a f, Q e → Q (GrantEntry.rebuilt e g a f)) (a : Level) (f : Bool)
    (h : Q (s.grant m)) : Q ((rebuildIfHeld m a f s).grant m) := by
  unfold rebuildIfHeld
  split
  · next g _ _ =>
    have h1 : Q ((mapGrant m (·.rebuilt g a f) s).grant m) := by
      rw [mapGrant_self]
      exact hreb _ _ _ _ h
    unfold rebuildGrant
    dsimp only
    refine grant_checkOrReview hQ ?_
    split
    · exact grant_queueGrant hQ.toKeptByGrants m _ _ h1
    · exact h1
  · exact h

/-- R55: what grants, starts and rebuilds keep, FBA's part of a report keeps once it has noted the levels. -/
theorem grant_feederReport (hQ : KeptByStarts Q) (hreb : ∀ e g a f, Q e → Q (GrantEntry.rebuilt e g a f))
    (h : Q ((s.grant m).reported r)) : Q ((feederReport m r s).grant m) := by
  have h0 : Q ((mapGrant m (·.reported r) s).grant m) := by
    rw [mapGrant_self]
    exact h
  unfold feederReport
  dsimp only
  generalize mapGrant m (·.reported r) s = u at *
  have h1 := grant_rebuildIfHeld hQ hreb r.actual r.actualFill h0
  split
  · exact h0
  split
  · have h2 := grant_compareWanted hQ.toKeptByGrants m h1
    unfold reviewDecrease
    split
    · exact grant_review hQ h2
    · exact grant_checkOrReview hQ h2
  · exact h1
  · split
    · refine grant_review hQ ?_
      have ha : (addStart m r.wanted false u).grant m = u.grant m := by
        unfold addStart
        split <;> rfl
      rw [ha]
      exact h0
    · exact h0
  · exact h0

/-! ## The excess run (R72) -/

/-- R72: the excess run and the reports owed to FLM. -/
structure Excess (a : Nat) (b c : Bool) (e : GrantEntry) : Prop where
  run     : e.excessRun = a
  excess  : e.excessOwed = b
  persist : e.persistOwed = c

theorem excess_kept (a : Nat) (b c : Bool) : KeptByStarts (Excess a b c) where
  regrant _ _ _ h := ⟨h.run, h.excess, h.persist⟩
  pending _ _ h := ⟨h.run, h.excess, h.persist⟩
  washer _ _ h := ⟨h.run, h.excess, h.persist⟩
  dryer _ _ _ _ h := ⟨h.run, h.excess, h.persist⟩

/-- R72: the excess run of an entry after a report's levels. -/
theorem excess_reported {e : GrantEntry} (h1 : e.excessOwed = false) (h2 : e.persistOwed = false) :
    let above := e.exceededBy r.actual r.actualFill
    Excess (if e.pending = true then 0 else if above = true then min 10 (e.excessRun + 1) else 0)
      (!e.pending && above && e.excessRun == 1) (!e.pending && above && e.excessRun == 9) (e.reported r) := by
  intro above
  have hsat : satInc 10 e.excessRun = min 10 (e.excessRun + 1) := by
    unfold satInc
    split <;> omega
  have hrun : (e.reported r).excessRun = (e.countExcess r.actual r.actualFill).excessRun := rfl
  have howed : (e.reported r).excessOwed = (e.countExcess r.actual r.actualFill).excessOwed := rfl
  have hpers : (e.reported r).persistOwed = (e.countExcess r.actual r.actualFill).persistOwed := rfl
  have hab : e.exceededBy r.actual r.actualFill = above := rfl
  clear_value above
  refine ⟨hrun.trans ?_, howed.trans ?_, hpers.trans ?_⟩ <;> unfold GrantEntry.countExcess <;> rw [hab] <;>
    cases hp : e.pending <;> cases above <;> simp [h1, h2, hsat]

/-- R72: a report's excess run, whatever the record's state has FBA do after. -/
theorem report_excess {rep : SlotReport} (hrep : ReportTaken s m rep r) (hrun : r.state = .nRun)
    (hx : (s.record m).state ≠ .armed ∧ (s.record m).state ≠ .starting ∧ (s.record m).state ≠ .recovering) :
    ∃ t, exec (.validReport m rep) s = .next t ∧ ∀ a b c,
      Excess a b c (((s.grant m).reporting (s.node m).silentMark (s.echoed m .level r.lvlTag)).reported r) → Excess a b c (t.grant m) := by
  have hf := (reportable_of_decode hrep.2.1).fault.mpr (show r.state ≠ .nFault by simp [hrun])
  have hw := arrived_arrived hrep.2.2.2
  refine ⟨_, exec_report hrep, fun a b c h => ?_⟩
  generalize arrived m r s = w at *
  have hbody : (reportBody m r ((s.record m).kindDiffers r.kind) w).grant m = w.grant m := by
    unfold reportBody
    split
    · rw [grant_selfAbort]
      exact (endRecovery_changes m w).grant m
    · have hwx : (w.record m).state = (s.record m).state := by rw [hw.record]; rfl
      rw [← hwx] at hx
      exact grant_applyNodeState hrun hx
  have ht := reported_reportTail (m := m) hf (s.mbc.discovery.answeredBy m) (reportBody m r ((s.record m).kindDiffers r.kind) w)
  generalize reportBody m r ((s.record m).kindDiffers r.kind) w = u at *
  rw [ht.changes.grant m]
  refine grant_feederReport (excess_kept a b c) (fun e g l f he => ⟨he.run, he.excess, he.persist⟩) ?_
  rw [hbody, hw.grant]
  exact h

/-! ## What a review makes of a grant that follows (R59, R62, R67) -/

variable {g : Level} {y : State}

/-- R59, R67: while OVER_BUDGET holds the queue, the decrease and what is wanted stand as they are. -/
theorem followed_over (h : Followed m g r s y) (ho : s.fba.overBudget = true)
    (hb : s.fba.beff < s.fba.committed - (s.grant m).draw + (y.grant m).draw) : reviewDecrease y = y := by
  have ho2 : y.fba.overBudget = true := by rw [h.rest.2.1]; exact ho
  unfold reviewDecrease
  rw [if_pos ho2]
  exact review_over ho2 (by rw [h.rest.2.2.1, h.sums.1]; exact hb)

/-- R59: within the budget an entry that does not fit, or none, holds the queue. -/
theorem followed_held (h : Followed m g r s y) (ho : s.fba.overBudget = false)
    (hb : s.fba.committed - (s.grant m).draw + (y.grant m).draw ≤ s.fba.beff) (hn : grantHead y = none) : reviewDecrease y = y :=
  reviewDecrease_held (by rw [h.rest.2.1]; exact ho) (by rw [h.rest.2.2.1, h.sums.1]; exact hb) hn

/-- R58: the RAISE entry for what a report wants. -/
def raiseAsked (m : Addr) (r : NodeReport) (s : State) : AdmEntry :=
  { machine := m, level := r.wanted, fill := r.wantedFill, arrival := s.fba.arrivals
    timer := s.sst.working.limits.raiseWait * 60 }

theorem followed_raises (h : Followed m g r s y) (hm : wantsMore g (s.grant m).fill r = true) (hr : s.fba.raises = []) :
    y.fba.raises = [raiseAsked m r s] := by
  rw [h.raises, hm]
  unfold raisesAsked Fba.hasRaise
  rw [hr]
  rfl

/-- R62: room for the RAISE entry of what a report wants. -/
theorem followed_room (h : Followed m g r s y) : y.room (y.grant m).draw ((y.grant m).drawOf r.wanted) (r.wantedFill && !(y.grant m).fill) ↔
    s.fba.committed - (s.grant m).draw + (y.grant m).draw - (y.grant m).draw + (s.grant m).drawOf r.wanted ≤ s.fba.beff ∧
    (r.wantedFill = true → ((s.grant m).fill && r.wantedFill) = false →
      s.fba.fillCount - (if (s.grant m).fill ≠ ((s.grant m).fill && r.wantedFill) then 1 else 0) + 1 ≤ s.sst.working.limits.fillSlots) := by
  have hc := h.sums.2
  have hlim : y.fillLimit = s.sst.working.limits.fillSlots := by unfold State.fillLimit; rw [h.rest.2.2.2]
  unfold State.room
  rw [h.sums.1, h.rest.2.2.1, h.drawOf, hlim, h.fill]
  refine and_congr_right fun _ => ?_
  cases hf : (s.grant m).fill <;> cases hw : r.wantedFill <;> simp [hf, hw] at hc ⊢
  rw [hc]

/-- R59, R62: the RAISE entry of what a report wants, granted at once. -/
theorem followed_granted (h : Followed m g r s y) (hm : wantsMore g (s.grant m).fill r = true) (hr : s.fba.raises = [])
    (hs : s.fba.starts = []) (ho : s.fba.overBudget = false)
    (hb : s.fba.committed - (s.grant m).draw + (y.grant m).draw ≤ s.fba.beff)
    (hroom : y.room (y.grant m).draw ((y.grant m).drawOf r.wanted) (r.wantedFill && !(y.grant m).fill)) :
    let t := reviewDecrease y
    (t.grant m).granted = some r.wanted ∧ (t.grant m).fill = r.wantedFill ∧ (t.grant m).draw = (s.grant m).drawOf r.wanted ∧
    (t.grant m).pending = true ∧ Levelled t m r.wanted r.wantedFill ∧ t.fba.raises = [] := by
  have hra := followed_raises h hm hr
  have hhead := (grantHead_raise hra).trans (grantRaise_fits hroom)
  have hyo : y.fba.overBudget = false := by rw [h.rest.2.1]; exact ho
  have hfill : ((y.grant m).fill || r.wantedFill) = r.wantedFill := by
    rw [h.fill]
    cases (s.grant m).fill <;> simp
  have hdec : reviewDecrease y = review y := by
    unfold reviewDecrease checkOrReview
    rw [if_neg (by simp [hyo]), if_neg (Nat.not_lt.mpr (by rw [h.rest.2.2.1, h.sums.1]; exact hb))]
  have hd := regranted_changeGrant m r.wanted ((y.grant m).fill || r.wantedFill) (removeRaise m y)
  have hrev : review y = changeGrant m r.wanted ((y.grant m).fill || r.wantedFill) (removeRaise m y) := by
    refine review_granted hyo hhead (grantHead_empty ?_ ?_)
    · show (changeGrant m r.wanted ((y.grant m).fill || r.wantedFill) (removeRaise m y)).fba.raises = _
      rw [hd.fba]
      simp [removeRaise, hra, raiseAsked]
    · show (changeGrant m r.wanted ((y.grant m).fill || r.wantedFill) (removeRaise m y)).fba.starts = _
      rw [hd.fba]
      exact h.rest.1.trans hs
  intro t
  have ht : t = _ := hdec.trans hrev
  clear_value t
  rw [hfill] at ht hd
  rw [← ht] at hd
  have hknown : ((removeRaise m y).node m).known = true := h.known
  refine ⟨by rw [hd.grant]; rfl, by rw [hd.grant]; rfl, ?_, by rw [hd.grant, hknown, Bool.or_true], hd.levelled hknown, ?_⟩
  · rw [hd.grant]
    exact h.drawOf r.wanted
  · rw [hd.fba]
    simp [removeRaise, hra, raiseAsked]

end

/-- R55: what the record and the bus show of FBA's part of a RUNNING machine's report. -/
theorem report_follows {m : Addr} {s : State} {r : NodeReport} {g : Level} {rep : SlotReport} (hrep : ReportTaken s m rep r)
    (hsilent : (s.grant m).heldSilent = false) (hg : (s.grant m).granted = some g) (hrun : r.state = .nRun)
    (hx : (s.record m).state = .running) (hkind : (s.record m).kind = some r.kind) (hk : g.kind = r.kind)
    (hs : s.fba.hasStart m = false) :
    ∃ t y, exec (.validReport m rep) s = .next t ∧ Followed m g r s y ∧ (t.record m).state = .running ∧
      (∀ k, t.grant k = (reviewDecrease y).grant k) ∧ t.fba = (reviewDecrease y).fba ∧
      ∀ k c, t.mbc.waiting k c = (reviewDecrease y).mbc.waiting k c := by
  have hable := reportable_of_decode hrep.2.1
  have hf := hable.fault.mpr (show r.state ≠ .nFault by simp [hrun])
  have hw := arrived_arrived hrep.2.2.2
  obtain ⟨hexec, hxw⟩ := report_runs hrep hrun hx hkind
  obtain ⟨y, hy, hfeed⟩ := followed_feederReport hw hable hx hsilent hg hk
  refine ⟨_, y, hexec, hy, ?_⟩
  generalize arrived m r s = w at *
  have ht := reported_reportTail (m := m) hf (s.mbc.discovery.answeredBy m) w
  have hrec := (stands_feederReport (m := m) (r := r) (s := w) (by rw [hxw]; simp) (by rw [hw.fba]; exact hs)).1
  rw [← hfeed]
  exact ⟨by rw [ht.changes.record m, hrec]; exact hxw, ht.changes.grant, ht.changes.at .fba, ht.waits⟩

/-- Settles O40: a rebuild, a grant that follows what the node wants, and the excess run. -/
theorem reportRebuildsGrant : Obligations.ReportRebuildsGrant := by
  refine ⟨fun slot rep r g s hrep hsilent hg hrun hs hr => ?_, fun slot rep r g s hrep hsilent hg hrun hx hkind hk hs => ?_,
    fun slot rep r s hrep hrun hx => ?_⟩
  · have hlevel : (if r.actual.rank ≤ g.rank then r.actual else g) = rebuiltLevel g r.actual := rfl
    by_cases hx : (s.record slot).state = .aborting
    · obtain ⟨t, ht, hsame, hother⟩ := report_rebuilds_aborting hrep hsilent hg hrun hs hr hx
      refine ⟨t, ht, fun _ hk => ?_, fun _ hk => hother hk, fun h => absurd (hx.symm.trans h) (by simp),
        fun z h => absurd (hx.symm.trans h) (by simp)⟩
      obtain ⟨h, hlev⟩ := hsame hk
      exact ⟨h.granted, h.fill, h.draw, h.heldSilent, hlev⟩
    by_cases hrunning : (s.record slot).state = .running ∧ (s.record slot).kind = some r.kind ∧ g.kind = r.kind
    · obtain ⟨hrun2, hkind, hk⟩ := hrunning
      obtain ⟨t, ht, hfits, hrec, hhold⟩ := report_rebuilds_running hrep hsilent hg hrun hs hr hrun2 hkind hk
      refine ⟨t, ht, fun h => absurd h hx, fun h => absurd h hx, fun _ _ _ hwant hfill hfit => ?_, fun z _ _ hz hzk _ hrk => ?_⟩
      · obtain ⟨h, hp, hlev, hraise, hcom, hover⟩ := hfits hwant hfill hfit
        rw [hrec]
        exact ⟨hrun2, reporting_payer _ r _, h.granted, h.fill, h.draw, h.heldSilent, hp, hlev, hraise, hcom, hover⟩
      · have hz2 : (t.record slot).session = some { z with armAcked := z.armAcked || s.armEchoed slot r.ctlTag } := by
          rw [hrec]
          exact congrArg (Option.map _) hz
        exact ⟨hhold.granted, onHold_holdRight hz2 hzk hhold ((reportable_of_decode hrep.2.1).wanted.trans hrk)⟩
    · exact ⟨_, exec_report hrep, fun h => absurd h hx, fun h => absurd h hx, fun h1 h2 h3 => absurd ⟨h1, h2, h3⟩ hrunning,
        fun z h1 h2 _ _ h5 h6 => absurd ⟨h1, h2, h5.trans h6.symm⟩ hrunning⟩
  · obtain ⟨t, y, ht, hy, hrec, hgr, hfba, hwait⟩ := report_follows hrep hsilent hg hrun hx hkind hk hs
    refine ⟨t, ht, ?_⟩
    intro e level fill lower draw committed fills more entry taken
    have hdraw : (y.grant slot).draw = draw := hy.draw
    have hcom : s.fba.committed - (s.grant slot).draw + (y.grant slot).draw = committed := by rw [hdraw]
    have htaken : reviewDecrease y = y → taken := fun h => by
      rw [h] at hgr hwait
      show (t.grant slot).granted = some level ∧ (t.grant slot).fill = fill ∧ (t.grant slot).draw = draw ∧
        (lower → (t.grant slot).pending = true ∧ Levelled t slot level fill)
      rw [hgr]
      refine ⟨hy.granted, hy.fill, hdraw, fun hl => ⟨(hy.told hl).1, ?_⟩⟩
      unfold Levelled
      rw [hwait]
      exact (hy.told hl).2
    have hmore : wantsMore g (s.grant slot).fill r = true ↔ more := wantsMore_iff
    refine ⟨hrec, fun ho hb => ?_, fun ho hb hst => ⟨fun hno hall => ?_, fun hm hra => ⟨fun hno => ?_, fun hfit => ?_⟩⟩⟩
    · have hheld := followed_over hy ho (by rw [hcom]; exact hb)
      rw [hheld] at hgr hfba
      refine ⟨htaken hheld, by rw [hfba]; exact hy.rest.1, by rw [hfba, hy.rest.2.1]; exact ho,
        fun k hk => by rw [hgr, hy.grants k hk], ?_⟩
      rw [hfba, hy.raises]
      unfold raisesAsked
      by_cases hm : more
      · rw [if_pos hm, if_pos (hmore.mpr hm)]
      · rw [if_neg hm, if_neg fun h => hm (hmore.mp h)]
    · have hra : y.fba.raises = [] := by
        rw [hy.raises]
        unfold raisesAsked
        rw [if_neg fun h => hno (hmore.mp h)]
        exact List.filter_eq_nil_iff.mpr fun a ha => by simp [hall a ha]
      have hheld := followed_held hy ho (by rw [hcom]; exact hb) (grantHead_empty hra (hy.rest.1.trans hst))
      rw [hheld] at hfba
      exact ⟨htaken hheld, by rw [hfba]; exact hra, by rw [hfba, hy.sums.1]; exact hcom⟩
    · have hra2 := followed_raises hy (hmore.mpr hm) hra
      have hheld := followed_held hy ho (by rw [hcom]; exact hb) ((grantHead_raise hra2).trans (grantRaise_held fun hroom =>
        hno (by
          have h := (followed_room hy).mp hroom
          rw [hcom, hdraw] at h
          exact h)))
      rw [hheld] at hfba
      exact ⟨htaken hheld, by rw [hfba]; exact hra2⟩
    · have hroom : y.room (y.grant slot).draw ((y.grant slot).drawOf r.wanted) (r.wantedFill && !(y.grant slot).fill) := by
        refine (followed_room hy).mpr ?_
        rw [hcom, hdraw]
        exact hfit
      obtain ⟨h1, h2, h3, h4, h5, h6⟩ := followed_granted hy (hmore.mpr hm) hra hst ho (by rw [hcom]; exact hb) hroom
      rw [hgr, hfba]
      refine ⟨h1, h2, h3, h4, ?_, h6⟩
      unfold Levelled
      rw [hwait]
      exact h5
  · have hable := reportable_of_decode hrep.2.1
    obtain ⟨t, ht, h⟩ := report_excess hrep hrun (by refine ⟨?_, ?_, ?_⟩ <;> intro he <;> simp [he] at hx)
    refine ⟨t, ht, ?_⟩
    intro e acked waits run bare above
    obtain ⟨-, -, hexc, hpers⟩ := hrep.2.2.1 slot
    have howed := excess_reported (r := r) (e := e.reporting (s.node slot).silentMark (s.echoed slot .level r.lvlTag))
      hexc hpers
    have habove : (e.reporting (s.node slot).silentMark (s.echoed slot .level r.lvlTag)).exceededBy r.actual r.actualFill = above := by
      show (s.grant slot).exceededBy r.actual r.actualFill = _
      unfold GrantEntry.exceededBy
      rw [hable.actual] <;> rfl
    rw [habove] at howed
    obtain ⟨h1, h2, h3⟩ := h _ _ _ howed
    exact ⟨h1, h2, h3⟩

end Sys2Proof.Machine
end


section
/-! PROOF. A primary fault, by what it finds: a session, a session that STOP would not end, or none (R131 to R135, R138, R139). -/
namespace Sys2Proof.Machine

section
variable {m : Addr} {k : FaultKind} {s t u v : State} {own sev : Severity} {x : MState} {z : Session} {esc : Bool} {n : Nat}

/-! ## Before the order and after it (R132) -/

theorem counted_history (f : FaultRecord) (k : FaultKind) : (f.counted k).history = countedHistory f.history k := by
  unfold FaultRecord.counted countedHistory
  simp only [satInc_eq_min]

/-- R139, R150: the record of a fault, whichever of the two rules holds for a CLASH record. -/
theorem faultBody_eq (m : Addr) (k : FaultKind) (sev : Severity) (esc sec : Bool) (e : Ended) :
    faultBody m k sev esc sec e = faultTaken m k sev esc sec e := by
  unfold faultBody faultTaken recordedEnd faultRecordKind
  by_cases hk : k = .addressClash
  · subst hk
    cases h : Config.clashBearsSession <;> simp
  · cases k <;> simp at hk ⊢

/-- R132 steps 1 to 4, R133: the fault is counted, and the new current fault stands. -/
def State.noting (s : State) (m : Addr) (k : FaultKind) (n : Nat) (sev : Severity) (esc : Bool) : State :=
  s.setFaults m { (s.faults m).counted k with stopCount := n, current := some (newCurrent m (some k) .fault sev esc s) }

theorem noting_changes (s : State) (m : Addr) (k : FaultKind) (n : Nat) (sev : Severity) (esc : Bool) :
    ChangesOnly [.flm] s (s.noting m k n sev esc) := setFaults_changes m _ s

theorem noting_faults (s : State) (m : Addr) (k : FaultKind) (n : Nat) (sev : Severity) (esc : Bool) :
    (s.noting m k n sev esc).faults m =
      { current := some (newCurrent m (some k) .fault sev esc s), openMark := (s.faults m).openMark, stopCount := n
        history := countedHistory (s.faults m).history k } := by
  have h : (s.noting m k n sev esc).faults m =
      { (s.faults m).counted k with stopCount := n, current := some (newCurrent m (some k) .fault sev esc s) } := by
    simp [State.noting]
  rw [h, ← counted_history]
  rfl

/-- R132 steps 6 to 8, R139, R140: the open mark, the record and the events. -/
def concluded (m : Addr) (b : RecordBody) (sev : Severity) (opens : Bool) (s : State) : State :=
  setEventIf (sev == .lockout) .lockout (setEvent .fault (writeFree b (if opens = true then setOpenMark m true s else s)))

/-- R132 steps 6 to 8: what they leave. -/
structure Concluded (m : Addr) (b : RecordBody) (sev : Severity) (opens : Bool) (s t : State) : Prop where
  faults  : t.faults m = { s.faults m with openMark := opens || (s.faults m).openMark }
  jrn     : t.jrn = (writeFree b s).jrn
  fault   : t.evu.isSet .fault = true
  lockout : t.evu.isSet .lockout = (decide (sev = .lockout) || s.evu.isSet .lockout)
  changes : ChangesOnly [.flm, .jrn, .evu] s t

theorem concluded_concluded (m : Addr) (b : RecordBody) (sev : Severity) (opens : Bool) (s : State) :
    Concluded m b sev opens s (concluded m b sev opens s) := by
  have h1 : ChangesOnly [.flm] s (if opens = true then setOpenMark m true s else s) := .ite (setOpenMark_changes m true s) (.refl _ s)
  have hf : (if opens = true then setOpenMark m true s else s).faults m = { s.faults m with openMark := opens || (s.faults m).openMark } := by
    cases opens with
    | true => exact setOpenMark_faults m true s
    | false => rfl
  unfold concluded
  generalize (if opens = true then setOpenMark m true s else s) = u at *
  have hw := writeFree_changes b u
  have hj := (booksOnly_writeFree b s u h1.sameBooks).jrn
  have hset := writeFree_setsAmong b u
  generalize writeFree b u = v at *
  have h2 := setEvent_changes .fault v
  have h3 := setEventIf_changes (sev == .lockout) .lockout (setEvent .fault v)
  have h23 : ChangesOnly [.evu] v (setEventIf (sev == .lockout) .lockout (setEvent .fault v)) := h2.seq h3
  exact
    { faults := by rw [h23.faults m, hw.faults m, hf]
      jrn := by rw [h23.at .jrn, hj]
      fault := by rw [setEventIf_isSet, setEvent_isSet]; simp
      lockout := by
        rw [setEventIf_isSet, setEvent_isSet, hset .lockout (by decide), congrArg (fun e : Evu => e.isSet .lockout) (h1.at .evu)]
        cases sev <;> rfl
      changes := h1.seq (hw.seq h23 (rs := [.jrn, .evu])) }

/-- R132: a primary fault, by its own severity, and the one that R133 makes of it. -/
theorem takePrimary_eq (m : Addr) (k : FaultKind) (p : Bool) (s : State) :
    let session := (s.record m).session.isSome
    let own := severityOf k p (s.record m).effective
    let counts := session && decide (own ≠ .retry)
    let n := if counts = true then s.stopsCounted m else (s.faults m).stopCount
    let esc := counts && s.escalates m own
    let sev := if esc = true then .lockout else own
    let s1 := s.noting m k n sev esc
    let s2 := orderAbort m sev true s1
    takePrimary m k p s =
      concluded m (faultTaken m k sev esc false (abortReport m sev true s1)) sev
        ((s2.record m).opensMark && (session || sev != .stop)) s2 := by
  intro session own counts n esc sev s1 s2
  have hn : (if counts then countStop ((s.faults m).counted k) else ((s.faults m).counted k).stopCount) = n := by
    show _ = if counts = true then min 9 ((s.faults m).stopCount + 1) else (s.faults m).stopCount
    rw [← satInc_eq_min]
    rfl
  have hesc : (counts && own == .stop && decide (s.sst.working.limits.lockout ≤ n)) = esc := by
    show _ = (counts && (own == .stop && decide (s.sst.working.limits.lockout ≤ s.stopsCounted m)))
    cases hc : counts with
    | false => rfl
    | true =>
      have : n = s.stopsCounted m := if_pos hc
      rw [this]
      rfl
  unfold takePrimary
  dsimp only
  rw [hn, hesc, faultBody_eq]
  rfl

/-! ## A session ended by a fault (R132, R133, R20) -/

/-- R133: the severity of a fault that finds a session. -/
def State.raised (s : State) (m : Addr) (own : Severity) : Severity := if s.escalates m own = true then .lockout else own

theorem raised_ne_retry (s : State) (m : Addr) (h : own ≠ .retry) : s.raised m own ≠ .retry := by
  unfold State.raised
  split
  · simp
  · exact h

theorem raised_eq_lockout (s : State) (m : Addr) : s.raised m own = .lockout ↔ own = .lockout ∨ s.escalates m own = true := by
  unfold State.raised
  split
  · next h => simp [h]
  · next h => simp [h]

/-- R132, R133, R135: a fault has ended the session that it found. -/
structure Struck (m : Addr) (k : FaultKind) (own : Severity) (x : MState) (z : Session) (s t : State) : Prop where
  record  : t.record m = { s.record m with
    state := (s.raised m own).leaves x (s.record m).silent, session := none, silenceTimer := 0
    unloadTimer := if x = .running then (s.record m).unloadTimer else 0
    stopDest := if x = .running then some (s.raised m own).stopDest else (s.record m).stopDest
    retained := if (s.record m).state = .recovering then none else (s.record m).retained }
  gone    : SessionGone s t m z.payer (z.refund x s.sst.working.limits.grace)
  grant   : t.grant m = s.grant m
  node    : t.node m = s.node m
  command : (s.node m).known = true → Commanded t m x.orderCommand
  taken   : PrimaryTaken s t m k own x (some (z.payer, z.refund x s.sst.working.limits.grace))
  mark    : (s.record m).lockoutPending = false ∨ x = .running →
    (t.faults m).openMark = decide ((s.raised m own).leaves x (s.record m).silent ≠ .offline)
  changes : ChangesOnly sessionParts s t

theorem leaves_opens (h : (s.raised m own).leaves x b ≠ .offline) {y : MachineRecord}
    (hy : y.state = (s.raised m own).leaves x b) : y.opensMark = true := by
  unfold Severity.leaves at h hy
  unfold MachineRecord.opensMark
  by_cases hx : x = .running
  · rw [if_pos hx] at hy
    rw [hy]
    rfl
  · rw [if_neg hx] at h hy
    by_cases hl : s.raised m own = .lockout
    · rw [if_pos hl] at hy
      rw [hy]
      rfl
    · rw [if_neg hl] at h hy
      cases b with
      | true => exact absurd rfl h
      | false =>
        rw [hy]
        rfl

/-- R132, R133: a fault of STOP or LOCKOUT severity that finds a session. -/
theorem takePrimary_session (hz : (s.record m).session = some z) {p : Bool} (hown : severityOf k p (s.record m).effective = own)
    (hne : own ≠ .retry) :
    takePrimary m k p s =
      concluded m (faultTaken m k (s.raised m own) (s.escalates m own) false
          (abortReport m (s.raised m own) true (s.noting m k (s.stopsCounted m) (s.raised m own) (s.escalates m own))))
        (s.raised m own)
        ((orderAbort m (s.raised m own) true (s.noting m k (s.stopsCounted m) (s.raised m own) (s.escalates m own))).record m).opensMark
        (orderAbort m (s.raised m own) true (s.noting m k (s.stopsCounted m) (s.raised m own) (s.escalates m own))) := by
  have heq := takePrimary_eq m k p s
  rw [hown, hz] at heq
  simp only [Option.isSome_some, Bool.true_and, decide_eq_true hne, Bool.true_or, Bool.and_true, ↓reduceIte] at heq
  exact heq

theorem struck_takePrimary (hz : (s.record m).session = some z) (hx : (s.record m).standsIn x)
    (hxs : x = .armed ∨ x = .starting ∨ x = .running) {p : Bool} (hown : severityOf k p x = own) (hne : own ≠ .retry) :
    Struck m k own x z s (takePrimary m k p s) := by
  have heff := effective_of_standsIn hx (standsIn_ne_recovering hxs)
  have heq := takePrimary_session (m := m) (k := k) hz (by rw [heff]; exact hown) hne
  have hsev := raised_ne_retry s m hne
  have hc := noting_changes s m k (s.stopsCounted m) (s.raised m own) (s.escalates m own)
  have hfl := noting_faults s m k (s.stopsCounted m) (s.raised m own) (s.escalates m own)
  have hz1 : ((s.noting m k (s.stopsCounted m) (s.raised m own) (s.escalates m own)).record m).session = some z := hz
  have hx1 : ((s.noting m k (s.stopsCounted m) (s.raised m own) (s.escalates m own)).record m).standsIn x := hx
  have hgr : (s.noting m k (s.stopsCounted m) (s.raised m own) (s.escalates m own)).sst = s.sst := rfl
  generalize s.noting m k (s.stopsCounted m) (s.raised m own) (s.escalates m own) = s1 at *
  have hrep := abortReport_of hz1 hx1 hxs hsev true
  obtain ⟨ho, hof⟩ := ordered_orderAbort hz1 hx1 hxs hsev true
  simp only [if_true, hgr] at hrep ho hof
  rw [hrep] at heq
  generalize orderAbort m (s.raised m own) true s1 = s2 at *
  have ho := ho.before hc
  have hcc := concluded_concluded m (faultTaken m k (s.raised m own) (s.escalates m own) false
    (some (z.payer, z.refund x s.sst.working.limits.grace))) (s.raised m own) ((s2.record m).opensMark) s2
  rw [← heq] at hcc
  generalize takePrimary m k p s = t at *
  have hrec : s1.record m = s.record m := hc.record m
  rw [hfl, hrec] at hof
  have hlock : s2.evu.isSet .lockout = s.evu.isSet .lockout := ho.flags .lockout (by decide)
  have hstate : (s2.record m).state = (s.raised m own).leaves x (s.record m).silent := by rw [ho.record]
  exact
    { record := by rw [hcc.changes.record m, ho.record]
      gone := ho.gone.of_changes hcc.changes
      grant := (hcc.changes.grant m).trans ho.grant
      node := (hcc.changes.node m).trans ho.node
      command := fun hn => (ho.command hn).of_sameBus (hcc.changes.sameBus m)
      taken := by
        refine ⟨?_, ho.took hcc.jrn, hcc.fault, ?_⟩
        · rw [hcc.faults, hof]
          simp [FaultRecord.leftIn, newCurrent, heff, State.raised]
        · rw [hcc.lockout, hlock]
          rfl
      mark := fun h => by
        rw [hcc.faults, hof]
        show ((s2.record m).opensMark || (!((s.raised m own).leaves x (s.record m).silent == .offline) && (s.faults m).openMark)) = _
        by_cases hoff : (s.raised m own).leaves x (s.record m).silent = .offline
        · rw [hoff, decide_eq_false (by simp)]
          have hno : (s2.record m).lockoutPending = false := by
            rw [ho.record]
            refine h.resolve_right fun hxr => ?_
            rw [hxr] at hoff
            exact absurd hoff (by simp [Severity.leaves])
          unfold MachineRecord.opensMark
          rw [hstate, hoff, hno]
          rfl
        · rw [leaves_opens hoff hstate, decide_eq_true hoff]
          rfl
      changes := ho.changes.seq hcc.changes }

/-! ## A fault that finds no session (R132, R20) -/

/-- R20: the states in which a machine without a session is at rest, RESERVED among them. -/
def MState.idles : MState → Bool
  | .idle | .done | .offline | .absent | .reserved | .outOfService => true
  | _ => false

theorem endRecovery_same (h : (s.record m).state ≠ .recovering) : endRecovery m s = s := by
  have hsame : ∀ u : State, u.setRecord m (u.record m) = u := fun u => by
    unfold State.setRecord State.record
    rw [PerMachine.put_at_self]
    rfl
  unfold endRecovery mapRecord
  dsimp only
  split
  · next hx _ => exact absurd hx h
  · exact hsame s

theorem abortReport_none (hz : (s.record m).session = none) (hx : (s.record m).state ≠ .recovering) (wr : Bool) :
    abortReport m sev wr s = none := by
  unfold abortReport
  dsimp only
  rw [endRecovery_same hx, hz]
  split
  · rfl
  iterate 3 contradiction
  · rfl

theorem idles_ne (h : x.idles = true) : x ≠ .recovering ∧ x ≠ .armed ∧ x ≠ .starting ∧ x ≠ .running ∧ x ≠ .aborting ∧ x ≠ .faulted := by
  cases x <;> simp [MState.idles] at h ⊢

theorem effective_of_idles {y : MachineRecord} (h : y.state.idles = true) : y.effective = y.state := by
  have hne := (idles_ne h).1
  unfold MachineRecord.effective
  split
  · next hx _ => exact absurd hx hne
  · rfl

/-- R20: STOP orders nothing of a machine at rest. -/
theorem applyAbort_stop (h : (s.record m).state.idles = true) (wr : Bool) : applyAbort m .stop wr s = s := by
  have hne := idles_ne h
  unfold applyAbort
  rw [endRecovery_same hne.1]
  unfold abortIn
  cases hx : (s.record m).state <;> simp [hx, MState.idles] at h ⊢

/-- R20: LOCKOUT takes a machine at rest out of service, and waits for the end of a purchase. -/
def MachineRecord.lockedOut (y : MachineRecord) : MachineRecord :=
  if y.state = .reserved then { y with lockoutPending := true }
  else if y.state = .outOfService then y
  else { y with state := .outOfService, unloadTimer := 0 }

theorem applyAbort_lockout (h : (s.record m).state.idles = true) (wr : Bool) :
    (applyAbort m .lockout wr s).record m = (s.record m).lockedOut ∧ (applyAbort m .lockout wr s).faults m = s.faults m ∧
      ChangesOnly [.msv, .flm] s (applyAbort m .lockout wr s) := by
  have hne := idles_ne h
  have henter : (enterState m .outOfService s).record m = { s.record m with state := .outOfService, unloadTimer := 0 } ∧
      (enterState m .outOfService s).faults m = s.faults m ∧ ChangesOnly [.msv, .flm] s (enterState m .outOfService s) := by
    refine ⟨enterState_record m .outOfService s, ?_, enterState_changes m _ s⟩
    unfold State.faults
    rw [enterState_flm]
    rfl
  have hpend : (mapRecord m (fun y => { y with lockoutPending := true }) s).record m = { s.record m with lockoutPending := true } := by
    simp [mapRecord]
  have hout : (s.record m).state ≠ .reserved → (s.record m).state ≠ .outOfService →
      (s.record m).lockedOut = { s.record m with state := .outOfService, unloadTimer := 0 } := fun h1 h2 => by
    unfold MachineRecord.lockedOut
    rw [if_neg h1, if_neg h2]
  have happ : applyAbort m .lockout wr s = abortIn m .lockout wr s := by
    unfold applyAbort
    rw [endRecovery_same hne.1]
  rw [happ]
  cases hx : (s.record m).state with
  | reserved =>
    have ha : abortIn m .lockout wr s = mapRecord m (fun y => { y with lockoutPending := true }) s := by unfold abortIn; rw [hx]
    rw [ha, show (s.record m).lockedOut = { s.record m with lockoutPending := true } from if_pos hx]
    exact ⟨hpend, rfl, (mapRecord_changes m _ s).seq (.refl [] _) (rs := [.msv, .flm])⟩
  | outOfService =>
    have ha : abortIn m .lockout wr s = s := by unfold abortIn; rw [hx]
    have hl : (s.record m).lockedOut = s.record m := by
      unfold MachineRecord.lockedOut
      rw [if_neg (by simp [hx]), if_pos hx]
    rw [ha, hl]
    exact ⟨rfl, rfl, .refl _ s⟩
  | idle | done | offline | absent =>
    have ha : abortIn m .lockout wr s = enterState m .outOfService s := by unfold abortIn; rw [hx]
    rw [ha, hout (by simp [hx]) (by simp [hx])]
    exact henter
  | armed | starting | running | aborting | faulted | recovering => rw [hx] at h; cases h

theorem lockedOut_opens (y : MachineRecord) : y.lockedOut.opensMark = true := by
  unfold MachineRecord.lockedOut MachineRecord.opensMark
  split
  · simp
  · split
    · next h => simp [h]
    · simp

/-- R132: a fault has been taken of a machine at rest. -/
structure StruckBare (m : Addr) (k : FaultKind) (own : Severity) (s t : State) : Prop where
  stop    : own = .stop → t.msv = s.msv ∧ (t.faults m).openMark = (s.faults m).openMark
  lockout : own = .lockout → t.record m = (s.record m).lockedOut ∧ (t.faults m).openMark = true
  taken   : PrimaryTaken s t m k own (s.record m).state none
  changes : ChangesOnly [.msv, .flm, .jrn, .evu] s t

theorem struckBare_takePrimary (hz : (s.record m).session = none) (hx : (s.record m).state.idles = true) {p : Bool}
    (hown : severityOf k p (s.record m).state = own) (hne : own ≠ .retry) : StruckBare m k own s (takePrimary m k p s) := by
  have heff := effective_of_idles hx
  have heq := takePrimary_eq m k p s
  rw [heff, hown, hz] at heq
  simp only [Option.isSome_none, Bool.false_and, Bool.false_eq_true, ↓reduceIte, Bool.false_or] at heq
  have hc := noting_changes s m k (s.faults m).stopCount own false
  have hfl := noting_faults s m k (s.faults m).stopCount own false
  have hz1 : ((s.noting m k (s.faults m).stopCount own false).record m).session = none := hz
  have hx1 : ((s.noting m k (s.faults m).stopCount own false).record m).state.idles = true := hx
  have hrec : (s.noting m k (s.faults m).stopCount own false).record m = s.record m := rfl
  generalize s.noting m k (s.faults m).stopCount own false = s1 at *
  have hrep := abortReport_none hz1 (idles_ne hx1).1 (sev := own) true
  have horder : orderAbort m own true s1 = applyAbort m own true s1 := by
    unfold orderAbort
    rw [hrep]
    rfl
  rw [hrep, horder] at heq
  have hbare : ∀ (b : Bool) (s2 : State), ChangesOnly [.msv, .flm] s1 s2 → (s2.faults m = s1.faults m) →
      takePrimary m k p s = concluded m (faultTaken m k own false false none) own b s2 →
      PrimaryTaken s (takePrimary m k p s) m k own (s.record m).state none ∧
      ChangesOnly [.msv, .flm, .jrn, .evu] s (takePrimary m k p s) ∧
      ((takePrimary m k p s).faults m).openMark = (b || (s.faults m).openMark) ∧ (takePrimary m k p s).msv = s2.msv := by
    intro b s2 hc2 hf2 ht
    have hcc := concluded_concluded m (faultTaken m k own false false none) own b s2
    rw [← ht] at hcc
    have hall : ChangesOnly [.msv, .flm, .jrn, .evu] s (takePrimary m k p s) := (hc.seq hc2 (rs := [.msv, .flm])).seq hcc.changes
    have h02 : ChangesOnly [.msv, .flm] s s2 := hc.seq hc2
    refine ⟨⟨?_, .of_same (h02.at .jrn) (h02.sameBooks.stamp) hcc.jrn, hcc.fault, ?_⟩, hall, ?_, hcc.changes.at .msv⟩
    · rw [hcc.faults, hf2, hfl]
      simp [newCurrent, heff]
    · rw [hcc.lockout, congrArg (fun e : Evu => e.isSet .lockout) (h02.at .evu)]
      rfl
    · rw [hcc.faults, hf2, hfl]
  cases own with
  | retry => exact absurd rfl hne
  | stop =>
    rw [applyAbort_stop hx1] at heq
    obtain ⟨h1, h2, h3, h4⟩ := hbare _ s1 (.refl _ _) rfl heq
    refine ⟨fun _ => ⟨h4.trans (hc.at .msv), h3.trans ?_⟩, fun h => absurd h (by simp), h1, h2⟩
    simp
  | lockout =>
    obtain ⟨hr, hf, hc2⟩ := applyAbort_lockout hx1 true
    generalize applyAbort m .lockout true s1 = s2 at *
    obtain ⟨h1, h2, h3, h4⟩ := hbare _ s2 hc2 hf heq
    refine ⟨fun h => absurd h (by simp), fun _ => ⟨?_, h3.trans ?_⟩, h1, h2⟩
    · rw [← hrec, ← hr]
      unfold State.record
      rw [h4]
    · rw [hr, lockedOut_opens]
      rfl

/-! ## DOOR_LOCK in ARMED and STARTING (R129, R20) -/

/-- R20: a RETRY leaves the session, and a STARTING record goes back to ARMED. -/
structure Retried (m : Addr) (k : FaultKind) (x : MState) (z : Session) (s t : State) : Prop where
  record  : t.record m = { s.record m with
    state := .armed, session := some (if x = .starting then { z with startWait := 0 } else z)
    retained := if (s.record m).state = .recovering then none else (s.record m).retained }
  start   : x = .starting ∨ s.fba.hasStart m = false → t.fba.hasStart m = false
  raise   : x = .starting → t.fba.hasRaise m = false
  mark    : (s.record m).lockoutPending = false → (t.faults m).openMark = (s.faults m).openMark
  taken   : PrimaryTaken s t m k .retry x none
  changes : ChangesOnly [.msv, .mbc, .fba, .flm, .jrn, .evu] s t

theorem abortReport_retry (wr : Bool) : abortReport m .retry wr s = none := by
  unfold abortReport
  dsimp only

/-- R20, R27: the order RETRY. -/
theorem applyAbort_retry (hz : (s.record m).session = some z) (hx : (s.record m).standsIn x) (hxs : x = .armed ∨ x = .starting)
    (wr : Bool) :
    let t := applyAbort m .retry wr s
    t.record m = { s.record m with
      state := .armed, session := some (if x = .starting then { z with startWait := 0 } else z)
      retained := if (s.record m).state = .recovering then none else (s.record m).retained } ∧
    (x = .starting → t.fba.hasStart m = false ∧ t.fba.hasRaise m = false) ∧
    (x = .armed → t.fba = s.fba) ∧ ChangesOnly [.msv, .mbc, .fba] s t := by
  have hrec := endRecovery_record (m := m) hx (by rcases hxs with rfl | rfl <;> simp)
  have hc := endRecovery_changes m s
  intro t
  have ht : t = abortIn m .retry wr (endRecovery m s) := rfl
  clear_value t
  generalize endRecovery m s = u at *
  have hux : (u.record m).state = x := by rw [hrec]
  rcases hxs with rfl | rfl
  · have ha : abortIn m .retry wr u = u := by unfold abortIn; rw [hux]
    rw [ha] at ht
    subst ht
    refine ⟨?_, fun h => absurd h (by simp), fun _ => hc.at .fba, hc.seq (.refl [] _)⟩
    have hself : (if MState.armed = MState.starting then { z with startWait := 0 } else z) = z := if_neg (by simp)
    rw [hrec, hself, ← hz]
  · have ha : abortIn m .retry wr u = backToArmed m u := by unfold abortIn; rw [hux]
    have hb := backToArmed_backToArmed (m := m) (s := u) (z := z) (by rw [hrec]; exact hz)
    rw [ha] at ht
    rw [ht]
    refine ⟨?_, fun _ => ⟨hb.start, hb.raise⟩, fun h => absurd h (by simp), hc.seq hb.changes⟩
    rw [hb.record, hrec, if_pos rfl]

theorem retried_takePrimary (hz : (s.record m).session = some z) (hx : (s.record m).standsIn x) (hxs : x = .armed ∨ x = .starting)
    {p : Bool} (hown : severityOf k p x = .retry) : Retried m k x z s (takePrimary m k p s) := by
  have heff := effective_of_standsIn hx (by rcases hxs with rfl | rfl <;> simp)
  have heq := takePrimary_eq m k p s
  rw [heff, hown] at heq
  simp only [ne_eq, not_true_eq_false, decide_false, Bool.and_false, Bool.false_eq_true, ↓reduceIte, Bool.false_and] at heq
  have hc := noting_changes s m k (s.faults m).stopCount .retry false
  have hfl := noting_faults s m k (s.faults m).stopCount .retry false
  have hz1 : ((s.noting m k (s.faults m).stopCount .retry false).record m).session = some z := hz
  have hx1 : ((s.noting m k (s.faults m).stopCount .retry false).record m).standsIn x := hx
  have hrec : (s.noting m k (s.faults m).stopCount .retry false).record m = s.record m := rfl
  have hfba : (s.noting m k (s.faults m).stopCount .retry false).fba = s.fba := rfl
  generalize s.noting m k (s.faults m).stopCount .retry false = s1 at *
  have horder : orderAbort m .retry true s1 = applyAbort m .retry true s1 := by
    unfold orderAbort
    rw [abortReport_retry]
    rfl
  rw [abortReport_retry, horder] at heq
  obtain ⟨hr, hstart, harmed, hc2⟩ := applyAbort_retry hz1 hx1 hxs true
  generalize applyAbort m .retry true s1 = s2 at *
  have h02 : ChangesOnly [.msv, .mbc, .fba, .flm] s s2 := hc.seq hc2
  generalize hopens : ((s2.record m).opensMark && ((s.record m).session.isSome || Severity.retry != .stop)) = b at heq
  have hcc := concluded_concluded m (faultTaken m k .retry false false none) .retry b s2
  rw [← heq] at hcc
  generalize takePrimary m k p s = t at *
  have hf2 : s2.faults m = s1.faults m := hc2.faults m
  have htf : t.fba = s2.fba := hcc.changes.at .fba
  exact
    { record := by rw [hcc.changes.record m, hr, hrec]
      start := fun h => by
        rw [htf]
        rcases hxs with hxa | hxa
        · rw [harmed hxa, hfba]
          exact h.resolve_left (by simp [hxa])
        · exact (hstart hxa).1
      raise := fun h => by
        rw [htf]
        exact (hstart h).2
      mark := fun h => by
        have hno : (s2.record m).opensMark = false := by
          rw [hr, hrec]
          unfold MachineRecord.opensMark
          simp [h]
        rw [hno, Bool.false_and] at hopens
        rw [hcc.faults, hf2, hfl, ← hopens]
        rfl
      taken := by
        refine ⟨?_, .of_same (h02.at .jrn) h02.sameBooks.stamp hcc.jrn, hcc.fault, ?_⟩
        · rw [hcc.faults, hf2, hfl]
          simp [newCurrent, heff]
        · rw [hcc.lockout, congrArg (fun e : Evu => e.isSet .lockout) (h02.at .evu)]
          rfl
      changes := h02.seq hcc.changes }

end

end Sys2Proof.Machine
end


section
/-! PROOF. The events that report a fault, up to FLM's taking of it (R14, R24, R36 to R38, R43, R64, R72). -/
namespace Sys2Proof.Machine

section
variable {m : Addr} {k : FaultKind} {p : Bool} {c : Instr} {s t u v w : State} {x : MState} {r : NodeReport}

/-! ## Severities (R130) -/

theorem severityOf_event (hp : p = true → k = .drawExcess) (hx : k ≠ .doorLock ∨ (x ≠ .armed ∧ x ≠ .starting)) :
    severityOf k p x = eventSeverity k p := by
  cases p with
  | true =>
    obtain rfl := hp rfl
    rfl
  | false =>
    cases k with
    | doorLock =>
      obtain ⟨h1, h2⟩ := hx.resolve_left (by simp)
      unfold severityOf
      cases x with
      | armed => exact absurd rfl h1
      | starting => exact absurd rfl h2
      | _ => rfl
    | _ => rfl

theorem eventSeverity_ne_retry (k : FaultKind) (p : Bool) : eventSeverity k p ≠ .retry := by
  unfold eventSeverity
  split <;> simp

theorem RaisesFault.excess_of_persisting (h : RaisesFault s c m k p) (hp : p = true) : k = .drawExcess := by
  cases h with
  | persisting => rfl
  | _ => cases hp

/-! ## The state in which FLM takes the fault -/

/-- What a row has done before FLM takes its fault. -/
structure BeforeFault (m : Addr) (s u : State) : Prop where
  msv     : u.msv = s.msv
  granted : (u.grant m).granted = (s.grant m).granted
  fba     : u.fba = { s.fba with entries := u.fba.entries }
  known   : (s.node m).known = true → (u.node m).known = true
  lockout : u.evu.isSet .lockout = s.evu.isSet .lockout
  changes : ChangesOnly [.mbc, .fba, .evu] s u

theorem BeforeFault.refl (m : Addr) (s : State) : BeforeFault m s s := ⟨rfl, rfl, rfl, id, rfl, .refl _ s⟩

theorem BeforeFault.trans (h : BeforeFault m s u) (k : BeforeFault m u v) : BeforeFault m s v where
  msv := k.msv.trans h.msv
  granted := k.granted.trans h.granted
  fba := by rw [k.fba, h.fba]
  known := fun hn => k.known (h.known hn)
  lockout := k.lockout.trans h.lockout
  changes := h.changes.seq k.changes

theorem BeforeFault.record (h : BeforeFault m s u) (k : Addr) : u.record k = s.record k := by
  unfold State.record
  rw [h.msv]

theorem beforeFault_grant {f : GrantEntry → GrantEntry} (hf : ∀ e, (f e).granted = e.granted) : BeforeFault m s (mapGrant m f s) where
  msv := rfl
  granted := by rw [mapGrant_self, hf]
  fba := rfl
  known := id
  lockout := rfl
  changes := (mapGrant_changes m f s).seq (.refl [] _)

theorem beforeFault_node {f : NodeEntry → NodeEntry} (hf : ∀ n, n.known = true → (f n).known = true) : BeforeFault m s (mapNode m f s) where
  msv := rfl
  granted := rfl
  fba := rfl
  known := fun h => by
    have : (mapNode m f s).node m = f (s.node m) := by simp [mapNode]
    rw [this]
    exact hf _ h
  lockout := rfl
  changes := (mapNode_changes m f s).seq (.refl [] _)

/-- R37: the steps of a clash before its fault. -/
theorem beforeFault_clash : BeforeFault m s (setEvent .addressClash (mapNode m NodeEntry.clashed s)) := by
  have h := beforeFault_node (m := m) (s := s) (f := NodeEntry.clashed) fun _ _ => rfl
  have he := setEvent_changes .addressClash (mapNode m NodeEntry.clashed s)
  exact
    { msv := h.msv, granted := h.granted, fba := h.fba, known := h.known
      lockout := (setEvent_isSet .addressClash .lockout _).trans h.lockout
      changes := h.changes.seq he }

/-- R43: a lost command before its fault. -/
theorem beforeFault_lost (c : CommandClass) (e : BusEntry) : BeforeFault m s (tellOwner m e.command false (dropCommand m c s)) := by
  have hd : BeforeFault m s (dropCommand m c s) :=
    ⟨rfl, rfl, rfl, id, rfl, (dropCommand_changes m c s).seq (.refl [] _)⟩
  generalize dropCommand m c s = u at *
  unfold tellOwner
  split
  · exact hd
  · have hg := beforeFault_grant (m := m) (s := u) (f := fun e => { e with pending := false }) fun _ => rfl
    exact hd.trans hg
  all_goals exact hd

/-- The rows that bring no report have FLM take their fault last. -/
theorem raises_exec (hrun : s.phase = .running) (h : RaisesFault s c m k p) (hno : s.broughtBy m c = none) :
    ∃ u, BeforeFault m s u ∧ exec c s = .next (takeFault m k p u) := by
  cases h with
  | overrun _ z hx hz hk h0 =>
    refine ⟨s, .refl m s, ?_⟩
    show Host.Outcome.next (whenRunning (whenDue _ _) s) = _
    rw [whenRunning_of_running hrun, whenDue_of_due]
    simp [State.sessionDue, hx, hz, Session.guardDue, hk, h0]
  | silent _ hz hs h0 hx =>
    refine ⟨s, .refl m s, ?_⟩
    show Host.Outcome.next (whenRunning (whenDue _ _) s) = _
    rw [whenRunning_of_running hrun, whenDue_of_due]
    unfold State.silentTimerDue
    rw [Option.ne_none_iff_isSome] at hz
    rcases hx with hx | hx | hx <;> simp [hz, hs, h0, hx]
  | held _ e he hm h0 =>
    refine ⟨s, .refl m s, ?_⟩
    show Host.Outcome.next (whenRunning (whenDue _ _) s) = _
    rw [whenRunning_of_running hrun, whenDue_of_due]
    exact List.any_eq_true.mpr ⟨e, he, by simp [hm, h0]⟩
  | excess _ ho =>
    refine ⟨_, beforeFault_grant (f := fun e => { e with excessOwed := false }) fun _ => rfl, ?_⟩
    show Host.Outcome.next (whenRunning (whenDue _ _) s) = _
    rw [whenRunning_of_running hrun, whenDue_of_due ho]
    rfl
  | persisting _ ho =>
    refine ⟨_, beforeFault_grant (f := fun e => { e with persistOwed := false }) fun _ => rfl, ?_⟩
    show Host.Outcome.next (whenRunning (whenDue _ _) s) = _
    rw [whenRunning_of_running hrun, whenDue_of_due ho]
    rfl
  | clash _ ho =>
    refine ⟨_, beforeFault_clash, ?_⟩
    show Host.Outcome.next (whenRunning (whenDue _ _) s) = _
    rw [whenRunning_of_running hrun, whenDue_of_due ho]
    rfl
  | lost _ cl e he hs hn =>
    refine ⟨_, beforeFault_lost cl e, ?_⟩
    show Host.Outcome.next (whenRunning (whenDue _ _) s) = _
    rw [whenRunning_of_running hrun, whenDue_of_due]
    · unfold loseCommand
      rw [he]
    · unfold State.lostDue
      rw [he]
      simp [hn, Config.sendLimit, hs]
  | stale _ r hh _ _ _ =>
    rw [State.broughtBy] at hno
    rw [hno] at hh
    cases hh
  | reported _ rep r k hrep _ _ _ _ =>
    rw [State.broughtBy] at hno
    rw [hrep.2.1] at hno
    cases hno

/-! ## A report that brings a fault code (R38) -/

theorem applyNodeState_fault_stays (hr : r.state = .nFault)
    (hx : (s.record m).state = .armed ∨ (s.record m).state = .starting ∨ (s.record m).state = .running ∨
      (s.record m).state = .aborting ∨ (s.record m).state = .idle ∨ (s.record m).state = .reserved ∨
      (s.record m).state = .outOfService) : applyNodeState m r s = s := by
  unfold applyNodeState
  rcases hx with hx | hx | hx | hx | hx | hx | hx <;> rw [hx]
  case inl => unfold armedReport; rw [hr]
  case inr.inl => unfold startingReport; rw [hr]
  case inr.inr.inl => unfold runningReport; dsimp only; rw [hr]
  case inr.inr.inr.inl => unfold abortingReport; rw [hr]
  case inr.inr.inr.inr.inl => unfold commandUnpaid unpaidCommand; rw [hr]
  case inr.inr.inr.inr.inr.inr => unfold commandUnpaid unpaidCommand; rw [hr]

theorem commandUnpaid_fault (hr : r.state = .nFault) (s : State) : commandUnpaid m r.state s = s := by
  unfold commandUnpaid unpaidCommand
  rw [hr]

/-- R3, R19, R21: a report with a fault code frees a machine that it finds ABSENT or OFFLINE, or opened after its run. -/
theorem applyNodeState_fault_frees (hr : r.state = .nFault) :
    ((s.record m).state = .absent ∨ (s.record m).state = .offline → applyNodeState m r s = enterState m .idle s) ∧
    ((s.record m).state = .done ∨ (s.record m).state = .faulted → applyNodeState m r s = doorRelease m r.door s) := by
  unfold applyNodeState
  refine ⟨fun h => ?_, fun h => ?_⟩
  · rcases h with h | h <;> rw [h] <;> exact commandUnpaid_fault hr _
  · rcases h with h | h <;> rw [h] <;> exact congrArg (doorRelease m r.door) (commandUnpaid_fault hr _)

/-- R27: with N_FAULT a recovery ends, and a CLOSED room disarms what has not begun to run. -/
theorem applyNodeState_fault_recovers {y : Retained} (hr : r.state = .nFault) (hx : (s.record m).state = .recovering)
    (hret : (s.record m).retained = some y) (hroom : y ≠ .running → s.sst.roomMode ≠ .closed) :
    applyNodeState m r s = endRecovery m s := by
  rw [applyNodeState_recovering hx]
  by_cases hy : y = .running
  · subst hy
    exact resolve_goesOn hx hret (.inr hr)
  · rw [resolve_fault hret hx hy hr]
    refine disarmIfClosed_open ?_
    rw [(endRecovery_changes m s).at .sst]
    exact hroom hy

/-- R57, R59: FBA takes a report's levels without a START of the machine granted. -/
theorem record_feederReport (h : s.startStands m r.kind) :
    (feederReport m r s).record m = s.record m ∧ (s.fba.hasStart m = false → (feederReport m r s).fba.hasStart m = false) := by
  have hc := mapGrant_changes m (·.reported r) s
  by_cases hx : (s.record m).state = .starting
  · have hnoted : (mapGrant m (·.reported r) s).record m = s.record m ∧
        (s.fba.hasStart m = false → (mapGrant m (·.reported r) s).fba.hasStart m = false) := ⟨hc.record m, id⟩
    rw [feederReport_starting hx]
    split
    · exact hnoted
    split
    · next hk =>
      have hover := (h.resolve_left (by rw [hk.2]; simp)).2.resolve_left (by rw [hk.1]; simp)
      have hadd := addStart_changes m r.wanted false (mapGrant m (·.reported r) s)
      have hfba : (addStart m r.wanted false (mapGrant m (·.reported r) s)).fba.overBudget = s.fba.overBudget ∧
          (addStart m r.wanted false (mapGrant m (·.reported r) s)).fba.beff = s.fba.beff ∧
          (addStart m r.wanted false (mapGrant m (·.reported r) s)).fba.committed = (mapGrant m (·.reported r) s).fba.committed := by
        unfold addStart
        split <;> exact ⟨rfl, rfl, rfl⟩
      rw [review_over (by rw [hfba.1]; exact hover.1) (by rw [hfba.2.1, hfba.2.2, (sums_reported m r s).1]; exact hover.2)]
      refine ⟨(hadd.record m).trans (hc.record m), fun hs => ?_⟩
      rw [hk.2] at hs
      cases hs
    · exact hnoted
  · exact ⟨(stands_feederReport hx (h.resolve_right fun hs => hx hs.1)).1,
      fun hs => (stands_feederReport hx hs).2⟩

/-- R38: the state in which FLM takes a report's fault code, after what MSV has made of the report. -/
structure CodeComes (m : Addr) (y u : State) : Prop where
  record  : u.record m = y.record m
  start   : y.fba.hasStart m = false → u.fba.hasStart m = false
  node    : u.node m = { y.node m with lastFault := (u.node m).lastFault }
  granted : (y.grant m).granted.isSome = true → (u.grant m).granted.isSome = true
  lockout : u.evu.isSet .lockout = y.evu.isSet .lockout
  changes : ChangesOnly [.msv, .mbc, .fba, .evu] y u

/-- R38, R45: FLM takes the code, and a discovery its answer. -/
def answering (b : Bool) (s : State) : State := if b then assignAnswered s else s

theorem answering_changes (b : Bool) (s : State) : ChangesOnly [.mbc] s (answering b s) := .ite (assignAnswered_changes s) (.refl _ s)

theorem answering_sameBus (b : Bool) (s : State) : SameBus m s (answering b s) := by
  unfold answering
  split
  · exact ⟨node_assignAnswered s m, fun c => waiting_assignAnswered s m c⟩
  · exact .refl m s

theorem reportTail_code {y : State} (hf : r.fault = some k) (hlast : (y.node m).lastFault ≠ some k) (hstands : y.startStands m r.kind)
    (b : Bool) : ∃ u, CodeComes m y u ∧ reportTail m r b y = answering b (takeFault m k false u) := by
  have hal := allots_feederReport m m r y
  have hrec := record_feederReport hstands
  have hset := feederReport_setsAmong m r y
  have hc := feederReport_changes m r y
  have heq : reportTail m r b y = answering b (faultCode m r (feederReport m r y)) := rfl
  have hcode : faultCode m r (feederReport m r y) =
      takeFault m k false (mapNode m (fun n => { n with lastFault := some k }) (feederReport m r y)) := by
    unfold faultCode
    rw [hf]
    exact if_neg (by rw [hal.node]; exact hlast)
  refine ⟨_, ?_, heq.trans (congrArg _ hcode)⟩
  generalize feederReport m r y = v at *
  have hm := mapNode_changes m (fun n => { n with lastFault := some k }) v
  have hself : (mapNode m (fun n => { n with lastFault := some k }) v).node m = { v.node m with lastFault := some k } := by
    simp [mapNode]
  exact
    { record := (hm.record m).trans hrec.1
      start := fun h => by rw [hm.at .fba]; exact hrec.2 h
      node := by rw [hself, hal.node]
      granted := fun h => by rw [hm.grant m]; exact hal.granted h
      lockout := by rw [hm.at .evu]; exact hset .lockout (by decide)
      changes := hc.seq hm }

/-! ## What the state of a fault shares with the state before its row -/

/-- The fault record, the books, the clock, the settings and LOCKOUT stand as the row found them. -/
structure FaultFound (m : Addr) (s u : State) : Prop where
  faults  : u.faults m = s.faults m
  sst     : u.sst = s.sst
  books   : SameBooks s u
  lockout : u.evu.isSet .lockout = s.evu.isSet .lockout
  known   : (s.node m).known = true → (u.node m).known = true
  granted : (s.grant m).granted.isSome = true → (u.grant m).granted.isSome = true
  changes : ChangesOnly [.msv, .mbc, .fba, .flm, .evu] s u

theorem BeforeFault.found (h : BeforeFault m s u) : FaultFound m s u where
  faults := h.changes.faults m
  sst := h.changes.at .sst
  books := h.changes.sameBooks
  lockout := h.lockout
  known := h.known
  granted := fun hg => by rw [h.granted]; exact hg
  changes := h.changes.seq (.refl [] _)

theorem CodeComes.found {y : State} (h : CodeComes m y u) (hy : FaultFound m s y) : FaultFound m s u where
  faults := (h.changes.faults m).trans hy.faults
  sst := (h.changes.at .sst).trans hy.sst
  books := hy.books.trans h.changes.sameBooks
  lockout := h.lockout.trans hy.lockout
  known := fun hn => by rw [h.node]; exact hy.known hn
  granted := fun hg => h.granted (hy.granted hg)
  changes := hy.changes.seq h.changes

theorem Arrived.found (h : Arrived m r s w) : FaultFound m s w where
  faults := h.changes.faults m
  sst := h.changes.at .sst
  books := h.changes.sameBooks
  lockout := congrArg (fun e : Evu => e.isSet .lockout) (h.changes.at .evu)
  known := fun _ => by rw [h.node]; rfl
  granted := fun hg => by rw [h.grant]; exact hg
  changes := h.changes.seq (.refl [] _)

variable {own : Severity} {e : Option (Nat × Nat)}

theorem FaultFound.escalates (h : FaultFound m s u) (own : Severity) : u.escalates m own = s.escalates m own ∧
    u.stopsCounted m = s.stopsCounted m := by
  unfold State.escalates State.stopsCounted
  rw [h.faults, h.sst]
  exact ⟨rfl, rfl⟩

theorem FaultFound.raised (h : FaultFound m s u) (own : Severity) : u.raised m own = s.raised m own := by
  unfold State.raised
  rw [(h.escalates own).1]

theorem FaultFound.refunded (h : FaultFound m s u) (n : Addr) (payer a : Nat) : SameBooks (s.refunded n payer a) (u.refunded n payer a) :=
  booksOnly_refunded n payer a _ _ h.books

/-- A primary taken of the state just before it is one of the state that the row found. -/
theorem primaryTaken_of_found (h : PrimaryTaken u t m k own x e) (hf : FaultFound m s u) : PrimaryTaken s t m k own x e := by
  obtain ⟨h1, h2, h3, h4⟩ := h
  obtain ⟨he, hn⟩ := hf.escalates own
  rw [he, hn, hf.faults, hf.books.stamp] at h1
  rw [he] at h2
  rw [he, hf.lockout] at h4
  refine ⟨h1, ?_, h3, h4⟩
  cases e with
  | none => exact h2.same hf.books rfl
  | some a => exact h2.same (hf.refunded m a.1 a.2) rfl

/-- What follows the fault leaves it taken. -/
theorem primaryTaken_after (h : PrimaryTaken s t m k own x e) (hf : v.faults m = { t.faults m with openMark := (v.faults m).openMark })
    (hj : v.jrn = t.jrn) (he : v.evu.isSet .fault = t.evu.isSet .fault) (hl : v.evu.isSet .lockout = t.evu.isSet .lockout) :
    PrimaryTaken s v m k own x e := by
  obtain ⟨h1, h2, h3, h4⟩ := h
  refine ⟨?_, ?_, he.trans h3, hl.trans h4⟩
  · rw [h1] at hf
    exact hf
  · unfold TookFree at h2 ⊢
    rw [hj]
    exact h2

end

end Sys2Proof.Machine
end


section
/-! PROOF. The rest of a report that finds no session: it frees the machine, or brings an abort to its end (R3, R5, R19, R21, R36). -/
namespace Sys2Proof.Machine

section
variable {m : Addr} {s t u w y : State} {r : NodeReport}

/-! ## What MSV makes of it -/

/-- R3, R19, R21: a record without a session, after a report. -/
structure MsvLands (m : Addr) (r : NodeReport) (s t : State) : Prop where
  state   : (t.record m).state =
    (s.record m).state.landedBy (if (s.record m).stopDest = some .outOfService then .outOfService else .faulted) (some r)
  kept    : (t.record m).session = (s.record m).session ∧ (t.record m).silenceTimer = (s.record m).silenceTimer ∧
    (t.record m).retained = (s.record m).retained ∧ (t.record m).lockoutPending = (s.record m).lockoutPending ∧
    (t.record m).reserving = (s.record m).reserving
  dest    : (t.record m).state = .aborting → (t.record m).stopDest = (s.record m).stopDest
  faults  : t.faults m = { s.faults m with openMark := (s.faults m).openMark && !(s.record m).state.freedBy r.door }
  raise   : s.fba.hasRaise m = false → t.fba.hasRaise m = false
  start   : s.fba.hasStart m = false → t.fba.hasStart m = false
  node    : t.node m = s.node m
  changes : ChangesOnly [.msv, .mbc, .fba, .flm] s t

/-- Where the record, its fault record and its queue entries stand, nothing has landed but what stood. -/
theorem MsvLands.of_mbc (h : ChangesOnly [.mbc] s t) (hn : t.node m = s.node m)
    (hx : (s.record m).state = (s.record m).state.landedBy
      (if (s.record m).stopDest = some .outOfService then .outOfService else .faulted) (some r))
    (hf : (s.record m).state.freedBy r.door = false) : MsvLands m r s t where
  state := by rw [h.record m]; exact hx
  kept := by rw [h.record m]; exact ⟨rfl, rfl, rfl, rfl, rfl⟩
  dest := fun _ => by rw [h.record m]
  faults := by rw [h.faults m, hf, Bool.not_false, Bool.and_true]
  raise := by rw [h.at .fba]; exact id
  start := by rw [h.at .fba]; exact id
  node := hn
  changes := h.seq (.refl [] _)

theorem commandUnpaid_node (m : Addr) (n : NodeState) (s : State) : (commandUnpaid m n s).node m = s.node m := by
  unfold commandUnpaid
  split
  · exact node_queueControl m m _ s
  · rfl

theorem MsvLands.after (h : MsvLands m r s t) (hc : ChangesOnly [.mbc] t u) (hn : u.node m = t.node m) : MsvLands m r s u where
  state := by rw [hc.record m]; exact h.state
  kept := by rw [hc.record m]; exact h.kept
  dest := by rw [hc.record m]; exact h.dest
  faults := by rw [hc.faults m]; exact h.faults
  raise := by rw [hc.at .fba]; exact h.raise
  start := by rw [hc.at .fba]; exact h.start
  node := hn.trans h.node
  changes := h.changes.seq hc

/-- R19, R21: a record freed by a report. -/
theorem msvLands_enterIdle (hheard : (s.record m).silent = false) (hf : (s.record m).state.freedBy r.door = true) :
    MsvLands m r s (enterState m .idle s) := by
  have hu := unpaid_enterIdle hheard
  have hc := enterState_changes m .idle s
  generalize enterState m .idle s = t at *
  have hrec : t.record m = { s.record m with state := .idle, unloadTimer := 0 } := hu.record
  have hland : (s.record m).state.landedBy
      (if (s.record m).stopDest = some .outOfService then .outOfService else .faulted) (some r) = .idle := by
    revert hf
    unfold MState.freedBy MState.landedBy
    cases hx : (s.record m).state <;> simp
  exact
    { state := by rw [hrec, hland]
      kept := by rw [hrec]; exact ⟨rfl, rfl, rfl, rfl, rfl⟩
      dest := fun h => by rw [hrec] at h; cases h
      faults := by rw [hf, State.faults, hu.faults, PerMachine.at_put_self]
      raise := by rw [hc.at .fba]; exact id
      start := by rw [hc.at .fba]; exact id
      node := hu.nodes m
      changes := hc.seq (.refl [] _) }

theorem MsvLands.before (h : MsvLands m r u t) (hc : ChangesOnly [.mbc] s u) (hn : u.node m = s.node m) : MsvLands m r s t where
  state := by rw [← hc.record m]; exact h.state
  kept := by rw [← hc.record m]; exact h.kept
  dest := by rw [← hc.record m]; exact h.dest
  faults := by rw [← hc.record m, ← hc.faults m]; exact h.faults
  raise := by rw [← hc.at .fba]; exact h.raise
  start := by rw [← hc.at .fba]; exact h.start
  node := h.node.trans hn
  changes := hc.seq h.changes

/-- R21: the record and the fault record that the end of an abort leaves. -/
theorem abortingStopped_leaves (hheard : (s.record m).silent = false) :
    (abortingStopped m s).record m = { s.record m with
      stopDest := none, unloadTimer := 0
      state := if (s.record m).stopDest = some .outOfService then .outOfService else .faulted } ∧
    (abortingStopped m s).flm = s.flm := by
  have hrel := released_releaseGrant m s
  have hrc := releaseGrant_changes m s
  rw [abortingStopped_eq]
  generalize releaseGrant m s = u at *
  have hv := mapRecord_changes m (fun x => { x with stopDest := none }) u
  have hvr : (mapRecord m (fun x => { x with stopDest := none }) u).record m = { s.record m with stopDest := none } := by
    simp [mapRecord, hrel.record]
  generalize mapRecord m (fun x => { x with stopDest := none }) u = v at *
  generalize hd : (if (s.record m).stopDest = some .outOfService then MState.outOfService else .faulted) = d
  have hd2 : d = .outOfService ∨ d = .faulted := by
    rw [← hd]
    split <;> simp
  have hland : (v.record m).landing d = d := by
    unfold MachineRecord.landing
    rw [hvr]
    rcases hd2 with h | h <;> rw [h]
    exact if_neg (by simp [hheard])
  refine ⟨?_, ?_⟩
  · rw [enterState_record, hland, hvr]
    rcases hd2 with h | h <;> rw [h] <;> rfl
  · rw [enterState_flm, hland, if_neg (by rcases hd2 with h | h <;> simp [h]), hv.at .flm]
    exact hrc.at .flm

/-- R21: the end of an abort. -/
theorem msvLands_abortingStopped (hheard : (s.record m).silent = false) (hx : (s.record m).state = .aborting)
    (hr : r.state = .nStopped ∨ r.state = .nEnd ∨ r.state = .nIdle) : MsvLands m r s (abortingStopped m s) := by
  obtain ⟨hrec, hflm⟩ := abortingStopped_leaves hheard
  have h := halted_abortingStopped hheard
  generalize abortingStopped m s = t at *
  exact
    { state := by
        rw [hrec, hx]
        exact (if_pos hr).symm
      kept := by rw [hrec]; exact ⟨rfl, rfl, rfl, rfl, rfl⟩
      dest := fun ha => by
        rw [hrec] at ha
        dsimp only at ha
        split at ha <;> cases ha
      faults := by
        have hfree : (s.record m).state.freedBy r.door = false := by rw [hx]; rfl
        rw [hfree, State.faults, hflm, Bool.not_false, Bool.and_true]
        rfl
      raise := fun _ => h.raise
      start := fun _ => h.start
      node := h.node
      changes := h.changes }

/-- R3, R5, R7, R19, R21: MSV takes a report of a machine without a session. -/
theorem msvLands_applyNodeState (hx : (s.record m).state.rests = true ∨ (s.record m).state = .aborting)
    (hheard : (s.record m).silent = false) : MsvLands m r s (applyNodeState m r s) := by
  have hcmd := commandUnpaid_changes m r.state s
  have hcmdn := commandUnpaid_node m r.state s
  have hstays : ∀ x : MState, x = .idle ∨ x = .reserved ∨ x = .outOfService → (s.record m).state = x →
      (s.record m).state = (s.record m).state.landedBy
        (if (s.record m).stopDest = some .outOfService then .outOfService else .faulted) (some r) ∧
      (s.record m).state.freedBy r.door = false := by
    rintro x (rfl | rfl | rfl) h <;> rw [h] <;> exact ⟨rfl, rfl⟩
  have hdoor : (s.record m).state = .done ∨ (s.record m).state = .faulted →
      MsvLands m r s (doorRelease m r.door (commandUnpaid m r.state s)) := fun h => by
    have hu : ((commandUnpaid m r.state s).record m).state = (s.record m).state := by rw [hcmd.record m]
    cases hd : r.door with
    | opened =>
      refine (msvLands_enterIdle (s := commandUnpaid m r.state s) (by rw [hcmd.record m]; exact hheard) ?_).before hcmd hcmdn
      rw [hu, hd]
      rcases h with h | h <;> rw [h] <;> rfl
    | closed =>
      refine .of_mbc hcmd hcmdn ?_ ?_ <;> rcases h with h | h <;> rw [h]
      · exact (if_neg (by simp [hd])).symm
      · exact (if_neg (by simp [hd])).symm
      · rw [hd]; rfl
      · rw [hd]; rfl
  cases hst : (s.record m).state with
  | absent | offline =>
    have h := msvLands_enterIdle (r := r) hheard (by rw [hst]; rfl)
    unfold applyNodeState
    rw [hst]
    exact h.after (commandUnpaid_changes m r.state _) (commandUnpaid_node m r.state _)
  | idle =>
    obtain ⟨h1, h2⟩ := hstays _ (.inl rfl) hst
    unfold applyNodeState
    rw [hst]
    exact .of_mbc hcmd hcmdn h1 h2
  | outOfService =>
    obtain ⟨h1, h2⟩ := hstays _ (.inr (.inr rfl)) hst
    unfold applyNodeState
    rw [hst]
    exact .of_mbc hcmd hcmdn h1 h2
  | reserved =>
    obtain ⟨h1, h2⟩ := hstays _ (.inr (.inl rfl)) hst
    unfold applyNodeState
    rw [hst]
    exact .of_mbc (.refl _ s) rfl h1 h2
  | done => unfold applyNodeState; rw [hst]; exact hdoor (.inl hst)
  | faulted => unfold applyNodeState; rw [hst]; exact hdoor (.inr hst)
  | aborting =>
    by_cases hr : r.state = .nStopped ∨ r.state = .nEnd ∨ r.state = .nIdle
    · rw [(applyNodeState_aborting hst r).1 hr]
      exact msvLands_abortingStopped hheard hst hr
    · have hland : (s.record m).state = (s.record m).state.landedBy
          (if (s.record m).stopDest = some .outOfService then .outOfService else .faulted) (some r) := by
        rw [hst]
        exact (if_neg hr).symm
      by_cases hf : r.state = .nFault
      · rw [applyNodeState_fault_stays hf (.inr (.inr (.inr (.inl hst))))]
        exact .of_mbc (.refl _ s) rfl hland (by rw [hst]; rfl)
      · rw [(applyNodeState_aborting hst r).2 hr hf]
        exact .of_mbc (queueControl_changes m _ s) (node_queueControl m m _ s) hland (by rw [hst]; rfl)
  | armed | starting | running | recovering =>
    rw [hst] at hx
    rcases hx with h | h <;> cases h

/-! ## The rest of the report (R32 steps 7 and 8) -/

/-- R3, R19, R21, R55: a report of a machine without a session has been taken to its end. -/
structure Landed (m : Addr) (r : NodeReport) (s t : State) : Prop where
  state   : (t.record m).state =
    (s.record m).state.landedBy (if (s.record m).stopDest = some .outOfService then .outOfService else .faulted) (some r)
  kept    : (t.record m).session = (s.record m).session ∧ (t.record m).retained = (s.record m).retained ∧
    (t.record m).lockoutPending = (s.record m).lockoutPending ∧ (t.record m).reserving = (s.record m).reserving
  silence : (s.record m).silenceTimer = 0 → (t.record m).silenceTimer = 0
  dest    : (t.record m).state = .aborting → (t.record m).stopDest = (s.record m).stopDest
  faults  : t.faults m = { s.faults m with openMark := (s.faults m).openMark && !(s.record m).state.freedBy r.door }
  raise   : s.fba.hasRaise m = false → t.fba.hasRaise m = false
  start   : s.fba.hasStart m = false → t.fba.hasStart m = false
  flags   : SetsAmong [.overBudget] s t
  changes : ChangesOnly [.msv, .mbc, .fba, .flm, .evu] s t

theorem landedBy_rests {x dest : MState} (hx : x.rests = true ∨ x = .aborting) (hd : dest = .outOfService ∨ dest = .faulted)
    (o : Option NodeReport) : x.landedBy dest o ≠ .running ∧ x.landedBy dest o ≠ .starting := by
  cases o with
  | none =>
    rcases hx with h | h
    · exact ⟨(MState.notActive_of_rests h).1, (MState.notActive_of_rests h).2.2⟩
    · rw [h]; exact ⟨by simp [MState.landedBy], by simp [MState.landedBy]⟩
  | some r =>
    unfold MState.landedBy
    rcases hx with h | h
    · cases x <;> simp [MState.rests] at h ⊢ <;> split <;> simp
    · subst h
      dsimp only
      split
      · rcases hd with h | h <;> rw [h] <;> simp
      · simp

theorem landed_reportTail (hx : (s.record m).state.rests = true ∨ (s.record m).state = .aborting)
    (hheard : (s.record m).silent = false) (hs : s.fba.hasStart m = false)
    (hl : r.fault = none ∨ (s.node m).lastFault = r.fault) :
    Landed m r s (reportTail m r false (applyNodeState m r s)) := by
  have hy := msvLands_applyNodeState (r := r) hx hheard
  generalize applyNodeState m r s = y at *
  have hne := landedBy_rests hx (dest := if (s.record m).stopDest = some .outOfService then .outOfService else .faulted)
    (by split <;> simp) (some r)
  rw [← hy.state] at hne
  have hrec := (stands_feederReport (m := m) (r := r) (s := y) hne.2 (hy.start hs)).1
  have hst := (stands_feederReport (m := m) (r := r) (s := y) hne.2 (hy.start hs)).2
  have hraise : y.fba.hasRaise m = false → (feederReport m r y).fba.hasRaise m = false := fun h =>
    (unqueued_feederReport hne.1 hne.2 h (hy.start hs)).raise
  have hflags := feederReport_setsAmong m r y
  have hc := feederReport_changes m r y
  have hq := quiet_reportTail (m := m) (r := r) (u := y) (by rw [hy.node]; exact hl)
  generalize feederReport m r y = v at *
  generalize reportTail m r false y = t at *
  have hvt : t.record m = v.record m := hq.changes.record m
  have hall : ChangesOnly [.msv, .mbc, .fba, .evu] y t := hc.seq hq.changes
  obtain ⟨hk1, hk2, hk3, hk4, hk5⟩ := hy.kept
  exact
    { state := by rw [hvt, hrec]; exact hy.state
      kept := by rw [hvt, hrec]; exact ⟨hk1, hk3, hk4, hk5⟩
      silence := fun h => by rw [hvt, hrec, hk2]; exact h
      dest := by rw [hvt, hrec]; exact hy.dest
      faults := by rw [hall.faults m]; exact hy.faults
      raise := fun h => by rw [hq.changes.at .fba]; exact hraise (hy.raise h)
      start := fun _ => by rw [hq.changes.at .fba]; exact hst
      flags := (hy.changes.setsAmong.trans hflags).trans hq.changes.setsAmong
      changes := hy.changes.seq hall }

theorem kindDiffers_of_free {x : MachineRecord} (hx : x.state.rests = true ∨ x.state = .aborting) (k : Kind) :
    x.kindDiffers k = false := hx.elim (kindDiffers_of_rests · k) (kindDiffers_of_aborting · k)

/-- R32 step 6, R3: the state in which MSV takes the rest of a report. -/
def resumed (m : Addr) (r : NodeReport) (s : State) : State :=
  mapRecord m (·.heard r) (mapNode m (fun n => { n with kind := some r.kind }) s)

structure Resumed (m : Addr) (r : NodeReport) (s w : State) : Prop where
  record  : w.record m = (s.record m).heard r
  node    : w.node m = { s.node m with kind := some r.kind }
  changes : ChangesOnly [.msv, .mbc] s w

theorem resumed_resumed (m : Addr) (r : NodeReport) (s : State) : Resumed m r s (resumed m r s) := by
  have hn := mapNode_changes m (fun n => { n with kind := some r.kind }) s
  have hself : (mapNode m (fun n => { n with kind := some r.kind }) s).node m = { s.node m with kind := some r.kind } := by
    simp [mapNode]
  unfold resumed
  generalize mapNode m (fun n => { n with kind := some r.kind }) s = u at *
  have hm := mapRecord_changes m (·.heard r) u
  exact ⟨by rw [← hn.record m]; simp [mapRecord], (hm.node m).trans hself, hn.seq hm⟩

/-- R32 steps 6 to 8: the rest of a report whose kind is that of the record, or finds nothing paid. -/
theorem finishReport_eq (h : (s.record m).kindDiffers r.kind = false) :
    finishReport m r s = reportTail m r false (applyNodeState m r (resumed m r s)) := by
  have hdiff : ((mapNode m (fun n => { n with kind := some r.kind }) s).record m).kindDiffers r.kind = false := h
  unfold finishReport sessionsReport resumed
  dsimp only
  rw [hdiff]
  rfl

/-- R32 steps 6 to 8: the rest of a report whose machine has no session. -/
theorem landed_finishReport (hx : (s.record m).state.rests = true ∨ (s.record m).state = .aborting) (hs : s.fba.hasStart m = false)
    (hl : r.fault = none ∨ (s.node m).lastFault = r.fault) : Landed m r s (finishReport m r s) := by
  have hw := resumed_resumed m r s
  rw [finishReport_eq (kindDiffers_of_free hx r.kind)]
  generalize resumed m r s = w at *
  have h := landed_reportTail (m := m) (r := r) (s := w) (by rw [hw.record]; exact hx) (by rw [hw.record]; rfl)
    (by rw [hw.changes.at .fba]; exact hs) (by rw [hw.node]; exact hl)
  generalize reportTail m r false (applyNodeState m r w) = t at *
  have hstate := h.state
  have hkept := h.kept
  have hdest := h.dest
  have hfaults := h.faults
  rw [hw.record] at hstate hkept hdest hfaults
  exact
    { state := hstate
      kept := hkept
      silence := fun hz => h.silence (by
        rw [hw.record]
        show (if (s.record m).silent then 0 else (s.record m).silenceTimer) = 0
        split
        · rfl
        · exact hz)
      dest := hdest
      faults := by rw [hfaults, hw.changes.faults m]; rfl
      raise := fun hr => h.raise (by rw [hw.changes.at .fba]; exact hr)
      start := fun hr => h.start (by rw [hw.changes.at .fba]; exact hr)
      flags := hw.changes.setsAmong.trans h.flags
      changes := hw.changes.seq h.changes }

/-- R21, R55: the rest of a report of N_RUN that finds an abort under way. -/
theorem finishReport_abortsOn (hx : (s.record m).state = .aborting) (hr : r.state = .nRun)
    (hl : r.fault = none ∨ (s.node m).lastFault = r.fault) (hsilent : (s.grant m).heldSilent = false) :
    ((s.node m).known = true → Commanded (finishReport m r s) m (.stop true)) ∧
      ((finishReport m r s).grant m).granted = (s.grant m).granted := by
  have hw := resumed_resumed m r s
  rw [finishReport_eq (kindDiffers_of_aborting hx r.kind)]
  generalize resumed m r s = w at *
  have hwx : (w.record m).state = .aborting := by rw [hw.record]; exact hx
  rw [(applyNodeState_aborting hwx r).2 (by simp [hr]) (by simp [hr])]
  have hq := queueControl_changes m (.stop true) w
  have hcmd : (s.node m).known = true → Commanded (queueControl m (.stop true) w) m (.stop true) := fun hknown =>
    commanded_queueControl rfl (by rw [hw.node]; exact hknown)
  have hn := node_queueControl m m (.stop true) w
  generalize queueControl m (.stop true) w = y at *
  have hgy : y.grant m = s.grant m := (hq.grant m).trans (hw.changes.grant m)
  have hquiet := quiet_reportTail (m := m) (r := r) (u := y) (by rw [hn, hw.node]; exact hl)
  refine ⟨fun hknown => hquiet.commanded (commanded_feederReport (hcmd hknown)), ?_⟩
  rw [hquiet.changes.grant m, feederReport_aborting (by rw [hq.record m]; exact hwx),
    rebuildIfHeld_clear (by rw [mapGrant_self, (sameGrant_reported _ r).heldSilent, hgy]; exact hsilent), ite_self, mapGrant_self,
    (sameGrant_reported _ r).granted, hgy]

end

end Sys2Proof.Machine
end


section
/-! PROOF. Faults that end sessions, and faults that find none (R131 to R135, R20). -/
namespace Sys2Proof.Machine

section
variable {m : Addr} {k : FaultKind} {p : Bool} {c : Instr} {s t u v w y : State} {x : MState} {r : NodeReport} {z : Session}

/-! ## A session that a fault finds -/

/-- The session as FLM's fault finds it. -/
structure SessionFound (m : Addr) (x : MState) (z : Session) (s u : State) : Prop where
  found    : FaultFound m s u
  session  : ∃ a, (u.record m).session = some { z with armAcked := a }
  stands   : (u.record m).standsIn x
  retained : (s.record m).state = .recovering → (u.record m).state = .recovering ∨ (u.record m).retained = none
  pending  : (u.record m).lockoutPending = (s.record m).lockoutPending
  start    : s.fba.hasStart m = false → u.fba.hasStart m = false

theorem sessionFound_before (h : BeforeFault m s u) (hz : (s.record m).session = some z) (hx : (s.record m).standsIn x) :
    SessionFound m x z s u where
  found := h.found
  session := ⟨z.armAcked, by rw [h.record]; exact hz⟩
  stands := by rw [h.record]; exact hx
  retained := fun hr => .inl (by rw [h.record]; exact hr)
  pending := by rw [h.record]
  start := by rw [h.fba]; exact id

theorem startStands_of {k : Kind} (h : s.startStands m k) (hf : y.fba = { s.fba with entries := y.fba.entries })
    (hc : y.fba.committed = s.fba.committed) (hx : (s.record m).state = .starting → (y.record m).state = .starting) :
    y.startStands m k := by
  rcases h with h | ⟨hs, h⟩
  · exact .inl (by rw [hf]; exact h)
  · refine .inr ⟨hx hs, h.imp id fun ⟨h1, h2⟩ => ⟨by rw [hf]; exact h1, ?_⟩⟩
    rw [hc, hf]
    exact h2

/-- R27, R38: what MSV makes of a report with a fault code where a session stands. -/
theorem sessionFound_reported {a : Bool} (hw : Arrived m r s w) (hr : r.state = .nFault) (hz : (s.record m).session = some z)
    (hx : (s.record m).standsIn x) (hxs : x = .armed ∨ x = .starting ∨ x = .running) (ha : s.armEchoed m r.ctlTag = a)
    (hroom : (s.record m).state = .recovering → x ≠ .running → s.sst.roomMode ≠ .closed) :
    SessionFound m x z s (applyNodeState m r w) ∧ ((applyNodeState m r w).record m).silent = false ∧
      (applyNodeState m r w).fba = { s.fba with entries := (applyNodeState m r w).fba.entries } ∧
      (applyNodeState m r w).fba.committed = s.fba.committed ∧ (applyNodeState m r w).node m = (s.node m).reporting r ∧
      ((s.record m).state = .starting → ((applyNodeState m r w).record m).state = .starting) := by
  have hzw : (w.record m).session = some { z with armAcked := z.armAcked || a } := by
    rw [hw.record, ← ha]
    exact congrArg (Option.map _) hz
  have hne := standsIn_ne_recovering hxs
  rcases hx with hx | ⟨hx, hret⟩
  · have hwx : (w.record m).state = x := by rw [hw.record]; exact hx
    have hstay : applyNodeState m r w = w := applyNodeState_fault_stays hr (by
      rw [hwx]
      rcases hxs with h | h | h <;> simp [h])
    rw [hstay]
    refine ⟨?_, by rw [hw.record]; rfl, hw.fba, hw.sums.1, hw.node, fun h => by rw [hw.record]; exact h⟩
    exact
      { found := hw.found
        session := ⟨_, hzw⟩
        stands := .inl hwx
        retained := fun h => absurd (hx.symm.trans h) hne
        pending := by rw [hw.record]; rfl
        start := by rw [hw.fba]; exact id }
  · obtain ⟨q, hq, hqx⟩ := Option.map_eq_some_iff.mp hret
    have hwx : (w.record m).state = .recovering := by rw [hw.record]; exact hx
    have hwr : (w.record m).retained = some q := by rw [hw.record]; exact hq
    have hstay : applyNodeState m r w = endRecovery m w := applyNodeState_fault_recovers hr hwx hwr fun hnr => by
      rw [hw.changes.at .sst]
      refine hroom hx fun hxr => hnr ?_
      rw [hxr] at hqx
      cases q <;> simp [Retained.state] at hqx ⊢
    have hrec := endRecovery_of hwx hwr
    have he := endRecovery_changes m w
    rw [hstay]
    generalize endRecovery m w = u at *
    refine ⟨?_, by rw [hrec, hw.record]; rfl, by rw [he.at .fba]; exact hw.fba, by rw [he.at .fba]; exact hw.sums.1,
      (he.node m).trans hw.node, fun h => absurd (hx.symm.trans h) (by simp)⟩
    exact
      { found :=
          { faults := (he.faults m).trans hw.found.faults
            sst := (he.at .sst).trans hw.found.sst
            books := hw.found.books.trans he.sameBooks
            lockout := (congrArg (fun e : Evu => e.isSet .lockout) (he.at .evu)).trans hw.found.lockout
            known := fun h => by rw [he.node m]; exact hw.found.known h
            granted := fun h => by rw [he.grant m]; exact hw.found.granted h
            changes := hw.found.changes.seq he }
        session := ⟨_, by rw [hrec]; exact hzw⟩
        stands := .inl (by rw [hrec]; exact hqx)
        retained := fun _ => .inr (by rw [hrec])
        pending := by rw [hrec, hw.record]; rfl
        start := by rw [he.at .fba, hw.fba]; exact id }

theorem SessionFound.code (h : SessionFound m x z s y) (hc : CodeComes m y u) : SessionFound m x z s u where
  found := hc.found h.found
  session := by rw [hc.record]; exact h.session
  stands := by rw [hc.record]; exact h.stands
  retained := by rw [hc.record]; exact h.retained
  pending := by rw [hc.record]; exact h.pending
  start := fun hs => hc.start (h.start hs)

/-! ## The rows that report a fault -/

/-- R36: a report in hand, as its NODE_STALE finds it. -/
structure StaleFound (m : Addr) (r : NodeReport) (s u : State) : Prop where
  hand    : (s.node m).inHand = some r
  before  : BeforeFault m s u
  grant   : u.grant m = s.grant m
  last    : r.fault = none ∨ (u.node m).lastFault = r.fault
  start   : s.fba.hasStart m = false
  running : (s.record m).state = .running → r.state = .nRun ∧ (s.record m).kind = some r.kind ∧ (s.grant m).heldSilent = false ∧
    (s.grant m).granted.any (fun g => g.kind == r.kind) = true
  exec    : exec (.nodeStale m) s = .next (finishReport m r (takeFault m .nodeStale false u))

theorem stale_exec (hrun : s.phase = .running) (h : RaisesFault s (.nodeStale m) m k p) :
    k = .nodeStale ∧ p = false ∧ ∃ r u, StaleFound m r s u := by
  cases h with
  | stale _ r hh hl hs hrunning =>
    refine ⟨rfl, rfl, r, mapNode m (fun n => { n with inHand := none }) s, hh, beforeFault_node fun _ hn => hn, rfl, ?_, hs, hrunning, ?_⟩
    · have hself : (mapNode m (fun n => { n with inHand := none }) s).node m = { s.node m with inHand := none } := by simp [mapNode]
      rw [hself]
      exact hl
    · show Host.Outcome.next (whenRunning (staleIfDue m) s) = _
      have hdue : staleIfDue m s = reportStale m s := whenDue_of_due (by rw [hh]; rfl)
      rw [whenRunning_of_running hrun, hdue]
      unfold reportStale
      rw [hh]

/-- R38: a report that brings a new fault code where a session stands. -/
theorem reported_exec {rep : SlotReport} (h : RaisesFault s (.validReport m rep) m k p) (hz : (s.record m).session = some z)
    (hx : (s.record m).standsIn x) (hxs : x = .armed ∨ x = .starting ∨ x = .running)
    (hroom : (s.record m).state = .recovering → x ≠ .running → s.sst.roomMode ≠ .closed) :
    p = false ∧ ∃ b u, SessionFound m x z s u ∧ (u.record m).silent = false ∧
      exec (.validReport m rep) s = .next (answering b (takeFault m k false u)) := by
  cases h with
  | reported _ _ r k hrep hf hlast hdiff hstands =>
    have hr : r.state = .nFault := by
      by_contra hne
      rw [(reportable_of_decode hrep.2.1).fault.mpr hne] at hf
      cases hf
    obtain ⟨hfound, hsilent, hfba, hcom, hnode, hstarting⟩ :=
      sessionFound_reported (arrived_arrived hrep.2.2.2) hr hz hx hxs rfl hroom
    have hexec := exec_report hrep
    rw [hdiff] at hexec
    change exec _ s = .next (reportTail m r _ (applyNodeState m r (arrived m r s))) at hexec
    generalize applyNodeState m r (arrived m r s) = y at *
    obtain ⟨u, hu, htail⟩ := reportTail_code (y := y) hf (by rw [hnode]; exact hlast) (startStands_of hstands hfba hcom hstarting)
      (s.mbc.discovery.answeredBy m)
    rw [htail] at hexec
    exact ⟨rfl, _, u, hfound.code hu, by rw [hu.record]; exact hsilent, hexec⟩

/-- How a row that is no NODE_STALE has FLM take its fault where a session stands. -/
structure TakesSession (m : Addr) (x : MState) (z : Session) (c : Instr) (k : FaultKind) (p : Bool) (s u : State) : Prop where
  found   : SessionFound m x z s u
  silent  : (u.record m).silent = true ↔ (s.record m).silent = true ∧ s.broughtBy m c = none
  granted : (∀ rep, c ≠ .validReport m rep) → (u.grant m).granted = (s.grant m).granted
  exec    : ∃ b, exec c s = .next (answering b (takeFault m k p u))

theorem takesSession_of (hrun : s.phase = .running) (h : RaisesFault s c m k p) (hstale : c ≠ .nodeStale m)
    (hz : (s.record m).session = some z) (hx : (s.record m).standsIn x) (hxs : x = .armed ∨ x = .starting ∨ x = .running)
    (hroom : ∀ rep, c = .validReport m rep → (s.record m).state = .recovering → x ≠ .running → s.sst.roomMode ≠ .closed) :
    ∃ u, TakesSession m x z c k p s u := by
  cases hb : s.broughtBy m c with
  | none =>
    obtain ⟨u, hu, hexec⟩ := raises_exec hrun h hb
    refine ⟨u, sessionFound_before hu hz hx, ?_, fun _ => hu.granted, false, hexec⟩
    rw [hu.record, hb]
    simp
  | some r =>
    have hrep : ∃ rep, c = .validReport m rep := by
      cases h with
      | stale => exact absurd rfl hstale
      | reported _ rep => exact ⟨rep, rfl⟩
      | overrun | silent | held | excess | persisting | clash | lost => cases hb
    obtain ⟨rep, rfl⟩ := hrep
    obtain ⟨rfl, b, u, hu, hsilent, hexec⟩ := reported_exec h hz hx hxs (hroom rep rfl)
    refine ⟨u, hu, ?_, fun hno => absurd rfl (hno rep), b, hexec⟩
    rw [hsilent, hb]
    simp

/-! ## A session ended by a fault, as the row shows it -/

variable {own : Severity} {b : Bool}

/-- R132, R133, R20: what the fault of a row leaves of the session that it found; `b` says that the node was silent then. -/
structure StruckFrom (m : Addr) (k : FaultKind) (own : Severity) (x : MState) (z : Session) (b : Bool) (s t : State) : Prop where
  state    : (t.record m).state = (s.raised m own).leaves x b
  retained : (s.record m).state = .recovering → (t.record m).retained = none
  dest     : x = .running → (t.record m).stopDest = some (s.raised m own).stopDest
  gone     : SessionGone s t m z.payer (z.refund x s.sst.working.limits.grace)
  command  : (s.node m).known = true → Commanded t m x.orderCommand
  granted  : (s.grant m).granted.isSome = true → (t.grant m).granted.isSome = true
  taken    : PrimaryTaken s t m k own x (some (z.payer, z.refund x s.sst.working.limits.grace))
  mark     : (s.record m).lockoutPending = false ∨ x = .running →
    (t.faults m).openMark = decide ((s.raised m own).leaves x b ≠ .offline)
  changes  : ChangesOnly sessionParts s t

theorem struckFrom_takeFault (hu : SessionFound m x z s u) (hb : (u.record m).silent = b) (hopen : (s.faults m).openMark = false)
    (hxs : x = .armed ∨ x = .starting ∨ x = .running) (hown : severityOf k p x = own) (hne : own ≠ .retry) :
    StruckFrom m k own x z b s (takeFault m k p u) ∧ ((takeFault m k p u).grant m) = u.grant m ∧
      (takeFault m k p u).node m = u.node m := by
  obtain ⟨a, hz⟩ := hu.session
  have hprim : takeFault m k p u = takePrimary m k p u := if_neg (by rw [hu.found.faults, hopen]; simp)
  have h := struck_takePrimary hz hu.stands hxs hown hne
  rw [hprim]
  generalize takePrimary m k p u = t at *
  have hraised := hu.found.raised own
  have hsst := hu.found.sst
  have hrefund : ({ z with armAcked := a } : Session).refund x u.sst.working.limits.grace = z.refund x s.sst.working.limits.grace := by
    rw [hsst]
    rfl
  have hgone := h.gone
  have htaken := h.taken
  rw [hrefund] at hgone htaken
  refine ⟨?_, h.grant, h.node⟩
  exact
    { state := by rw [h.record, hb, hraised]
      retained := fun hrec => by
        rw [h.record]
        rcases hu.retained hrec with h1 | h1
        · exact if_pos h1
        · exact (ite_eq_left_iff.mpr fun _ => h1)
      dest := fun hx => by rw [h.record, if_pos hx, hraised]
      gone := ⟨hgone.1, hgone.2.1, by rw [hgone.2.2.1]; exact (hu.found.refunded m _ _).cru, hgone.2.2.2⟩
      command := fun hn => h.command (hu.found.known hn)
      granted := fun hg => by rw [h.grant]; exact hu.found.granted hg
      taken := primaryTaken_of_found htaken hu.found
      mark := fun hm => by
        have := h.mark (by rw [hu.pending]; exact hm)
        rw [this, hb, hraised]
      changes := hu.found.changes.seq h.changes }

theorem StruckFrom.answering (h : StruckFrom m k own x z b s t) (d : Bool) : StruckFrom m k own x z b s (answering d t) := by
  have hc := answering_changes d t
  have hbus := answering_sameBus (m := m) d t
  generalize Machine.answering d t = v at *
  exact
    { state := by rw [hc.record m]; exact h.state
      retained := fun hr => by rw [hc.record m]; exact h.retained hr
      dest := fun hx => by rw [hc.record m]; exact h.dest hx
      gone := h.gone.of_changes hc
      command := fun hn => (h.command hn).of_sameBus hbus
      granted := fun hg => by rw [hc.grant m]; exact h.granted hg
      taken := primaryTaken_after h.taken (by rw [hc.faults m]) (hc.at .jrn) (by rw [hc.at .evu]) (by rw [hc.at .evu])
      mark := fun hm => by rw [hc.faults m]; exact h.mark hm
      changes := h.changes.seq hc }

/-! ## NODE_STALE and the rest of its report (R36) -/

theorem landedBy_dest {x : MState} (hx : x ≠ .aborting) (d e : MState) (o : Option NodeReport) : x.landedBy d o = x.landedBy e o := by
  cases o with
  | none => rfl
  | some r =>
    cases x with
    | aborting => exact absurd rfl hx
    | _ => rfl

theorem leaves_free (sev : Severity) (x : MState) (b : Bool) : (sev.leaves x b).rests = true ∨ sev.leaves x b = .aborting := by
  unfold Severity.leaves
  split
  · exact .inr rfl
  · split
    · exact .inl rfl
    · split <;> exact .inl rfl

theorem leaves_aborting {sev : Severity} {x : MState} {b : Bool} (h : sev.leaves x b = .aborting) : x = .running := by
  unfold Severity.leaves at h
  by_contra hx
  rw [if_neg hx] at h
  split at h
  · cases h
  · split at h <;> cases h

/-- R20: the stop destination as a state. -/
def Severity.landing (sev : Severity) : MState := if sev = .lockout then .outOfService else .faulted

/-- R131, R32: the open mark after the rest of the report. -/
theorem mark_landed (sev : Severity) (x : MState) (b : Bool) (r : NodeReport) :
    (decide (sev.leaves x b ≠ .offline) && !(sev.leaves x b).freedBy r.door) =
      decide ((sev.leaves x b).landedBy sev.landing (some r) ≠ .idle ∧ (sev.leaves x b).landedBy sev.landing (some r) ≠ .offline) := by
  have hland : sev.landing = .outOfService ∨ sev.landing = .faulted := by
    unfold Severity.landing
    split <;> simp
  have hleft : sev.leaves x b = .aborting ∨ sev.leaves x b = .outOfService ∨ sev.leaves x b = .offline ∨ sev.leaves x b = .faulted := by
    unfold Severity.leaves
    split
    · simp
    · split
      · simp
      · split <;> simp
  rcases hleft with h | h | h | h <;> rw [h]
  · by_cases hr : r.state = .nStopped ∨ r.state = .nEnd ∨ r.state = .nIdle
    · rw [show MState.aborting.landedBy sev.landing (some r) = sev.landing from if_pos hr]
      rcases hland with h | h <;> rw [h] <;> rfl
    · rw [show MState.aborting.landedBy sev.landing (some r) = .aborting from if_neg hr]
      rfl
  · rfl
  · rfl
  · cases hd : r.door with
    | opened =>
      rw [show MState.faulted.landedBy sev.landing (some r) = .idle from if_pos hd]
      rfl
    | closed =>
      rw [show MState.faulted.landedBy sev.landing (some r) = .faulted from if_neg (by simp [hd])]
      rfl

/-- R36, R132: what a row leaves that reports a fault of a session; `o` is the report that it takes after the fault. -/
structure StruckRow (m : Addr) (k : FaultKind) (own : Severity) (x : MState) (z : Session) (b : Bool) (o : Option NodeReport)
    (s t : State) : Prop where
  state    : (t.record m).state = ((s.raised m own).leaves x b).landedBy (s.raised m own).landing o
  retained : (s.record m).state = .recovering → (t.record m).retained = none
  dest     : (t.record m).state = .aborting → (t.record m).stopDest = some (s.raised m own).stopDest
  gone     : SessionGone s t m z.payer (z.refund x s.sst.working.limits.grace)
  taken    : PrimaryTaken s t m k own x (some (z.payer, z.refund x s.sst.working.limits.grace))
  mark     : (s.record m).lockoutPending = false ∨ x = .running →
    (t.faults m).openMark = decide ((t.record m).state ≠ .idle ∧ (t.record m).state ≠ .offline)
  changes  : ChangesOnly sessionParts s t

theorem leaves_ne_idle (sev : Severity) (x : MState) (b : Bool) : sev.leaves x b ≠ .idle := by
  unfold Severity.leaves
  split
  · simp
  · split
    · simp
    · split <;> simp

theorem StruckFrom.row (h : StruckFrom m k own x z b s t) : StruckRow m k own x z b none s t :=
  { h with
    dest := fun ha => h.dest (leaves_aborting (h.state.symm.trans ha))
    mark := fun hm => by
      rw [h.mark hm, ← h.state]
      have hne : (t.record m).state ≠ .idle := by
        rw [h.state]
        exact leaves_ne_idle _ x b
      simp [hne] }

/-- The rest of the report in hand, after its fault. -/
theorem StruckFrom.finished (h : StruckFrom m k own x z b s t) (hl : r.fault = none ∨ (t.node m).lastFault = r.fault) :
    StruckRow m k own x z b (some r) s (finishReport m r t) := by
  obtain ⟨hg1, hg2, hg3, hg4, hg5⟩ := h.gone
  have hland := landed_finishReport (m := m) (r := r) (s := t) (by rw [h.state]; exact leaves_free _ x b) hg4 hl
  generalize finishReport m r t = v at *
  have hstate : (v.record m).state = ((s.raised m own).leaves x b).landedBy (s.raised m own).landing (some r) := by
    rw [hland.state, h.state]
    by_cases ha : (s.raised m own).leaves x b = .aborting
    · rw [h.dest (leaves_aborting ha)]
      unfold Severity.stopDest Severity.landing
      split <;> rfl
    · exact landedBy_dest ha _ _ _
  have hflag : ∀ f, f ∉ [EventFlag.overBudget] → v.evu.isSet f = t.evu.isSet f := hland.flags
  exact
    { state := hstate
      retained := fun hr => hland.kept.2.1.trans (h.retained hr)
      dest := fun ha => by
        rw [hland.dest ha]
        rw [hstate] at ha
        refine h.dest (leaves_aborting (b := b) (sev := s.raised m own) ?_)
        by_contra hne
        revert ha
        rcases (leaves_free (s.raised m own) x b).resolve_right hne with hrest
        revert hrest
        cases (s.raised m own).leaves x b <;> simp [MState.rests, MState.landedBy] <;> split <;> simp
      gone := ⟨hland.kept.1.trans hg1, hland.silence hg2, (hland.changes.at .cru).trans hg3, hland.start hg4, hland.raise hg5⟩
      taken := primaryTaken_after h.taken (by rw [hland.faults]) (hland.changes.at .jrn) (hflag _ (by decide)) (hflag _ (by decide))
      mark := fun hm => by
        rw [hland.faults, hstate, ← mark_landed]
        show ((t.faults m).openMark && _) = _
        rw [h.mark hm, h.state]
      changes := h.changes.seq hland.changes }

end

end Sys2Proof.Machine
end


section
/-! PROOF. O45, sessions: a fault ends a run or a session that has not begun to run (R132, R133, R135, R20). -/
namespace Sys2Proof.Machine

section
variable {m : Addr} {k : FaultKind} {p : Bool} {c : Instr} {s t u : State} {x : MState} {r : NodeReport} {z : Session}
  {own : Severity} {b : Bool} {o : Option NodeReport}

/-- R20: where an order leaves a session, by the destination of its severity. -/
theorem leaves_eq (sev : Severity) (x : MState) (b : Bool) :
    sev.leaves x b = if x = .running then .aborting else if sev.landing = .faulted ∧ b = true then .offline else sev.landing := by
  unfold Severity.leaves Severity.landing
  cases sev <;> cases b <;> rfl

/-- A row that takes a fault of the session, whether its report comes before the fault, after it, or not at all. -/
theorem struckRow_exec (hrun : s.phase = .running) (h : RaisesFault s c m k p) (hz : (s.record m).session = some z)
    (hx : (s.record m).standsIn x) (hxs : x = .armed ∨ x = .starting ∨ x = .running) (hdoor : k ≠ .doorLock ∨ x = .running)
    (hopen : (s.faults m).openMark = false)
    (hroom : ∀ rep, c = .validReport m rep → (s.record m).state = .recovering → x ≠ .running → s.sst.roomMode ≠ .closed) :
    ∃ t b o, exec c s = .next t ∧ StruckRow m k (eventSeverity k p) x z b o s t ∧
      (b = true ↔ (s.record m).silent = true ∧ (c = .nodeStale m ∨ s.broughtBy m c = none)) ∧
      (c = .nodeStale m → o = s.broughtBy m c) ∧ (c ≠ .nodeStale m → o = none) ∧
      (c ≠ .nodeStale m → (s.node m).known = true → Commanded t m x.orderCommand) := by
  have hown : severityOf k p x = eventSeverity k p := severityOf_event h.excess_of_persisting (hdoor.imp id fun hr => by simp [hr])
  have hne := eventSeverity_ne_retry k p
  by_cases hst : c = .nodeStale m
  · subst hst
    obtain ⟨rfl, rfl, r, u, hu⟩ := stale_exec hrun h
    obtain ⟨hfrom, -, hnode⟩ := struckFrom_takeFault (sessionFound_before hu.before hz hx) rfl hopen hxs hown hne
    refine ⟨_, _, some r, hu.exec, hfrom.finished (by rw [hnode]; exact hu.last), ?_, fun _ => hu.hand.symm,
      fun h => absurd rfl h, fun h => absurd rfl h⟩
    rw [hu.before.record]
    simp
  · obtain ⟨u, hu⟩ := takesSession_of hrun h hst hz hx hxs hroom
    obtain ⟨d, hexec⟩ := hu.exec
    have hfrom := (struckFrom_takeFault hu.found rfl hopen hxs hown hne).1.answering d
    refine ⟨_, _, none, hexec, hfrom.row, ?_, fun h => absurd h hst, fun _ => rfl, fun _ => hfrom.command⟩
    rw [hu.silent]
    simp [hst]

/-- R20, R21, R64: the node of a run that a fault has ended. -/
theorem runStopped_exec (hrun : s.phase = .running) (h : RaisesFault s c m k p) (hz : (s.record m).session = some z)
    (hx : (s.record m).state = .running) (hopen : (s.faults m).openMark = false) (ht : exec c s = .next t) :
    (t.record m).state = .aborting ∧ ((s.node m).known = true → Commanded t m (.stop true)) ∧
      ((s.grant m).granted ≠ none → (t.grant m).granted ≠ none) ∧
      ((∀ rep, c ≠ .validReport m rep) → (t.grant m).granted = (s.grant m).granted) := by
  have hown : severityOf k p .running = eventSeverity k p := severityOf_event h.excess_of_persisting (.inr (by simp))
  have hne := eventSeverity_ne_retry k p
  have hxs : MState.running = .armed ∨ MState.running = .starting ∨ MState.running = .running := .inr (.inr rfl)
  by_cases hst : c = .nodeStale m
  · subst hst
    obtain ⟨rfl, rfl, r, u, hu⟩ := stale_exec hrun h
    obtain rfl : finishReport m r (takeFault m .nodeStale false u) = t := by
      rw [hu.exec] at ht
      exact Host.Outcome.next.inj ht
    obtain ⟨hfrom, hgrant, hnode⟩ := struckFrom_takeFault (sessionFound_before hu.before hz (.inl hx)) rfl hopen hxs hown hne
    have hl : r.fault = none ∨ ((takeFault m .nodeStale false u).node m).lastFault = r.fault := by rw [hnode]; exact hu.last
    obtain ⟨hnrun, -, hsilent, -⟩ := hu.running hx
    have hon := finishReport_abortsOn (r := r) (s := takeFault m .nodeStale false u) (m := m) hfrom.state hnrun hl
      (by rw [hgrant, hu.grant]; exact hsilent)
    have hg : ((finishReport m r (takeFault m .nodeStale false u)).grant m).granted = (s.grant m).granted := by
      rw [hon.2, hgrant, hu.grant]
    refine ⟨?_, fun hk => hon.1 (by rw [hnode]; exact hu.before.known hk), by rw [hg]; exact id, fun _ => hg⟩
    rw [(hfrom.finished hl).state]
    exact if_neg (by simp [hnrun])
  · obtain ⟨u, hu⟩ := takesSession_of hrun h hst hz (.inl hx) hxs fun _ _ _ hno => absurd rfl hno
    obtain ⟨d, hexec⟩ := hu.exec
    obtain rfl : answering d (takeFault m k p u) = t := by
      rw [hexec] at ht
      exact Host.Outcome.next.inj ht
    obtain ⟨hfrom, hgrant, -⟩ := struckFrom_takeFault hu.found rfl hopen hxs hown hne
    have hans := answering_changes d (takeFault m k p u)
    have hrow := hfrom.answering d
    refine ⟨hrow.state, hrow.command, ?_, fun hno => ?_⟩
    · rw [Option.ne_none_iff_isSome, Option.ne_none_iff_isSome]
      exact hrow.granted
    · rw [hans.grant m, hgrant]
      exact hu.granted hno

end

/-- R132 to R135, R20: the fault of a run. -/
theorem faultAborts_run (c : Instr) (m : Addr) (k : FaultKind) (p : Bool) (z : Session) (s : State) (hrun : s.phase = .running)
    (h : RaisesFault s c m k p) (hx : (s.record m).state = .running) (hz : (s.record m).session = some z)
    (hopen : (s.faults m).openMark = false) : ∃ t, exec c s = .next t ∧
      let own := eventSeverity k p
      let sev := if s.escalates m own then Severity.lockout else own
      let r := z.refund .running s.sst.working.limits.grace
      SessionGone s t m z.payer r ∧ ((s.node m).known = true → Commanded t m (.stop true)) ∧
      (t.record m).state = .aborting ∧
      (t.record m).stopDest = some (if sev = .lockout then .outOfService else .faulted) ∧
      (t.faults m).openMark = true ∧ PrimaryTaken s t m k own .running (some (z.payer, r)) ∧
      ((s.grant m).granted ≠ none → (t.grant m).granted ≠ none) ∧
      ((∀ rep, c ≠ .validReport m rep) → (t.grant m).granted = (s.grant m).granted) ∧
      ChangesOnly [.msv, .mbc, .fba, .cru, .flm, .jrn, .evu] s t := by
  obtain ⟨t, b, o, hexec, hrow, -⟩ := struckRow_exec hrun h hz (.inl hx) (.inr (.inr rfl)) (.inr rfl) hopen
    fun _ _ _ hno => absurd rfl hno
  obtain ⟨hstate, hcmd, hgranted, hsame⟩ := runStopped_exec hrun h hz hx hopen hexec
  refine ⟨t, hexec, hrow.gone, hcmd, hstate, hrow.dest hstate, ?_, hrow.taken, hgranted, hsame, hrow.changes.seq (.refl [] _)⟩
  rw [hrow.mark (.inr rfl), hstate]
  rfl

/-- R132 to R135, R20, R27: the fault of a session that is not in RUNNING. -/
theorem faultAborts_session (c : Instr) (m : Addr) (k : FaultKind) (p : Bool) (z : Session) (x : MState) (s : State)
    (hrun : s.phase = .running) (h : RaisesFault s c m k p) (hz : (s.record m).session = some z) (hx : (s.record m).standsIn x)
    (hxs : x = .armed ∨ x = .starting ∨ x = .running) (hdoor : k ≠ .doorLock ∨ x = .running)
    (hopen : (s.faults m).openMark = false) (hpend : (s.record m).lockoutPending = false)
    (hroom : ∀ rep, c = .validReport m rep → (s.record m).state = .recovering → x ≠ .running → s.sst.roomMode ≠ .closed) :
    ∃ t, exec c s = .next t ∧
      let own := eventSeverity k p
      let dest := if own = .lockout ∨ s.escalates m own = true then MState.outOfService else .faulted
      let r := if x = .running then z.refund .running s.sst.working.limits.grace else z.total
      let stale := c = .nodeStale m
      let silent := (s.record m).silent = true ∧ (stale ∨ s.broughtBy m c = none)
      let left := if x = .running then MState.aborting else if dest = .faulted ∧ silent then .offline else dest
      let y := left.landedBy dest (if stale then s.broughtBy m c else none)
      SessionGone s t m z.payer r ∧ (t.record m).state = y ∧ ((s.record m).state = .recovering → (t.record m).retained = none) ∧
      (y = .aborting →
        (t.record m).stopDest = some (if dest = .outOfService then StopDest.outOfService else .faulted)) ∧
      (¬stale → (s.node m).known = true → Commanded t m (if x = .running then .stop true else .disarm)) ∧
      (t.faults m).openMark = decide (y ≠ .idle ∧ y ≠ .offline) ∧ PrimaryTaken s t m k own x (some (z.payer, r)) ∧
      ChangesOnly [.msv, .mbc, .fba, .cru, .flm, .jrn, .evu] s t := by
  obtain ⟨t, b, o, hexec, hrow, hb, hostale, hono, hcmd⟩ := struckRow_exec hrun h hz hx hxs hdoor hopen hroom
  have hdest : (s.raised m (eventSeverity k p)).landing =
      if eventSeverity k p = .lockout ∨ s.escalates m (eventSeverity k p) = true then MState.outOfService else .faulted :=
    if_congr (raised_eq_lockout s m) rfl rfl
  have hstop : (s.raised m (eventSeverity k p)).stopDest =
      if (s.raised m (eventSeverity k p)).landing = .outOfService then StopDest.outOfService else .faulted := by
    unfold Severity.landing Severity.stopDest
    split <;> rfl
  have ho : o = if c = .nodeStale m then s.broughtBy m c else none := by
    split
    · next h => exact hostale h
    · next h => exact hono h
  have hstate := hrow.state
  rw [leaves_eq, ho] at hstate
  have hdst := hrow.dest
  have hmark := hrow.mark (.inl hpend)
  have hgone := hrow.gone
  have htaken := hrow.taken
  rw [refund_eq] at hgone htaken
  rw [hstop] at hdst
  rw [hdest] at hstate hdst
  refine ⟨t, hexec, ?_⟩
  intro own dest r stale silent left y
  have hy : (t.record m).state = y := by
    rw [hstate]
    refine congrArg (fun l : MState => l.landedBy dest (if c = .nodeStale m then s.broughtBy m c else none)) ?_
    exact ite_congr rfl (fun _ => rfl) fun _ => if_congr (and_congr_right fun _ => hb) rfl rfl
  refine ⟨hgone, hy, hrow.retained, fun ha => hdst (hy.trans ha), hcmd, ?_, htaken, hrow.changes.seq (.refl [] _)⟩
  rw [hmark, hy]

end Sys2Proof.Machine
end


section
/-! PROOF. O45: a fault that finds no session, DOOR_LOCK before a run, and the four parts together (R132, R135, R20, R27). -/
namespace Sys2Proof.Machine

section
variable {m : Addr} {k : FaultKind} {p : Bool} {c : Instr} {s t u w : State} {x : MState} {r : NodeReport} {z : Session}
  {own : Severity} {b : RecordBody}

/-- R150: a record written in free room leaves the reservations. -/
theorem TookFree.reservations (h : TookFree s t b) : t.jrn.reservations = s.jrn.reservations := by
  rcases Nat.eq_zero_or_pos s.jrn.free with h0 | h0
  · rw [h.2 h0]
  · rw [h.1 h0]
    rfl

/-! ## A machine at rest (R132, R20) -/

/-- R132: what a row leaves that reports a fault of a machine at rest, found in the state `x`. -/
structure BareRow (m : Addr) (k : FaultKind) (own : Severity) (x : MState) (s t : State) : Prop where
  state   : (t.record m).state = if own = .lockout ∧ x ≠ .reserved then .outOfService else x
  free    : (t.record m).session = none
  stop    : own = .stop → (t.faults m).openMark = false
  lockout : own = .lockout → (t.faults m).openMark = true
  pending : own = .lockout → x = .reserved →
    (t.record m).lockoutPending = true ∧ (t.record m).reserving = (s.record m).reserving
  taken   : PrimaryTaken s t m k own x none
  changes : ChangesOnly [.msv, .mbc, .fba, .flm, .jrn, .evu] s t

theorem lockedOut_state (y : MachineRecord) : y.lockedOut.state = if y.state ≠ .reserved then .outOfService else y.state := by
  unfold MachineRecord.lockedOut
  by_cases h1 : y.state = .reserved
  · rw [if_pos h1, if_neg (not_not.mpr h1)]
  · rw [if_neg h1, if_pos h1]
    split
    · next h2 => exact h2
    · rfl

theorem lockedOut_session (y : MachineRecord) : y.lockedOut.session = y.session := by
  unfold MachineRecord.lockedOut
  split
  · rfl
  · split <;> rfl

theorem bareRow_takeFault (hf : FaultFound m s u) (hz : (u.record m).session = none) (hx : (u.record m).state = x)
    (hidle : x.idles = true) (hkeep : (u.record m).reserving = (s.record m).reserving) (hopen : (s.faults m).openMark = false)
    (hown : severityOf k p x = own) (hne : own ≠ .retry) :
    BareRow m k own x s (takeFault m k p u) ∧ (own = .stop → (takeFault m k p u).msv = u.msv) ∧
      (takeFault m k p u).fba = u.fba ∧ (takeFault m k p u).mbc = u.mbc := by
  have hprim : takeFault m k p u = takePrimary m k p u := if_neg (by rw [hf.faults, hopen]; simp)
  have h := struckBare_takePrimary (m := m) (k := k) (p := p) hz (by rw [hx]; exact hidle) (by rw [hx]; exact hown) hne
  rw [hprim]
  generalize takePrimary m k p u = t at *
  refine ⟨?_, fun hs => (h.stop hs).1, h.changes.at .fba, h.changes.at .mbc⟩
  have hrec : own = .stop → t.record m = u.record m := fun hs => by
    unfold State.record
    rw [(h.stop hs).1]
  have htaken := h.taken
  rw [hx] at htaken
  exact
    { state := by
        cases own with
        | retry => exact absurd rfl hne
        | stop => rw [hrec rfl, hx]; rfl
        | lockout => rw [(h.lockout rfl).1, lockedOut_state, hx]; simp
      free := by
        cases own with
        | retry => exact absurd rfl hne
        | stop => rw [hrec rfl, hz]
        | lockout => rw [(h.lockout rfl).1, lockedOut_session, hz]
      stop := fun hs => by rw [(h.stop hs).2, hf.faults, hopen]
      lockout := fun hl => (h.lockout hl).2
      pending := fun hl hr => by
        have hlock : (u.record m).lockedOut = { u.record m with lockoutPending := true } := if_pos (hx.trans hr)
        rw [(h.lockout hl).1, hlock]
        exact ⟨rfl, hkeep⟩
      taken := primaryTaken_of_found htaken hf
      changes := hf.changes.seq h.changes }

theorem BareRow.answering (h : BareRow m k own x s t) (d : Bool) : BareRow m k own x s (answering d t) := by
  have hc := answering_changes d t
  generalize Machine.answering d t = v at *
  exact
    { state := by rw [hc.record m]; exact h.state
      free := by rw [hc.record m]; exact h.free
      stop := fun hs => by rw [hc.faults m]; exact h.stop hs
      lockout := fun hl => by rw [hc.faults m]; exact h.lockout hl
      pending := fun hl hr => by rw [hc.record m]; exact h.pending hl hr
      taken := primaryTaken_after h.taken (by rw [hc.faults m]) (hc.at .jrn) (by rw [hc.at .evu]) (by rw [hc.at .evu])
      changes := h.changes.seq hc }

theorem idles_rests (h : x.idles = true) : x.rests = true := by
  cases x <;> simp [MState.idles, MState.rests] at h ⊢

theorem idles_landedBy (h : x.idles = true) (d : MState) (o : Option NodeReport) : (x.landedBy d o).idles = true := by
  cases o with
  | none => exact h
  | some r =>
    unfold MState.landedBy
    cases x with
    | done =>
      dsimp only
      split <;> rfl
    | faulted | armed | starting | running | aborting | recovering => cases h
    | _ => rfl

/-- R3: a report with a fault code finds a machine at rest. -/
theorem fault_applyNodeState (hr : r.state = .nFault) (hx : (s.record m).state.idles = true) :
    ChangesOnly [.msv, .flm] s (applyNodeState m r s) := by
  cases hst : (s.record m).state with
  | absent | offline =>
    rw [(applyNodeState_fault_frees hr).1 (by simp [hst])]
    exact enterState_changes m _ s
  | done =>
    rw [(applyNodeState_fault_frees hr).2 (by simp [hst])]
    exact doorRelease_changes m _ s
  | idle | reserved | outOfService =>
    rw [applyNodeState_fault_stays hr (by simp [hst])]
    exact .refl _ s
  | _ =>
    rw [hst] at hx
    cases hx

/-- R38, R132: a fault code that a report brings of a machine at rest. -/
theorem bareRow_reported {rep : SlotReport} (h : RaisesFault s (.validReport m rep) m k p) (hz : (s.record m).session = none)
    (hidle : (s.record m).state.idles = true) (hopen : (s.faults m).openMark = false) :
    ∃ t, exec (.validReport m rep) s = .next t ∧
      BareRow m k (eventSeverity k p) ((s.record m).state.landedBy .faulted (decodeReport m rep)) s t := by
  cases h with
  | reported _ _ r k hrep hf hlast hdiff hstands =>
    have hr : r.state = .nFault := by
      by_contra hne
      rw [(reportable_of_decode hrep.2.1).fault.mpr hne] at hf
      cases hf
    have hw := arrived_arrived (m := m) (s := s) hrep.2.2.2
    have hexec := exec_report hrep
    rw [hdiff] at hexec
    change exec _ s = .next (reportTail m r _ (applyNodeState m r (arrived m r s))) at hexec
    generalize arrived m r s = w at *
    have hwx : (w.record m).state = (s.record m).state := by rw [hw.record]; rfl
    have hwz : (w.record m).session = none := by
      rw [hw.record]
      exact congrArg (Option.map _) hz
    have hc := fault_applyNodeState (m := m) (r := r) (s := w) hr (by rw [hwx]; exact hidle)
    have hy := msvLands_applyNodeState (m := m) (r := r) (s := w) (.inl (by rw [hwx]; exact idles_rests hidle))
      (by rw [hw.record]; rfl)
    generalize applyNodeState m r w = y at *
    have hstate : (y.record m).state = (s.record m).state.landedBy .faulted (some r) := by
      rw [hy.state, hwx]
      exact landedBy_dest (by intro h; rw [h] at hidle; cases hidle) _ _ _
    have hfaults : y.faults m = s.faults m := by
      rw [hy.faults, hw.found.faults, hopen, Bool.false_and, ← hopen]
    have hfound : FaultFound m s y :=
      { faults := hfaults
        sst := (hc.at .sst).trans hw.found.sst
        books := hw.found.books.trans hc.sameBooks
        lockout := (congrArg (fun e : Evu => e.isSet .lockout) (hc.at .evu)).trans hw.found.lockout
        known := fun hn => by rw [hy.node]; exact hw.found.known hn
        granted := fun hg => by rw [hc.grant m]; exact hw.found.granted hg
        changes := hw.found.changes.seq hc }
    have hstands' : y.startStands m r.kind := startStands_of hstands (by rw [hc.at .fba]; exact hw.fba)
      (by rw [hc.at .fba]; exact hw.sums.1) fun hs => by rw [hs] at hidle; cases hidle
    obtain ⟨u, hu, htail⟩ := reportTail_code (y := y) hf (by rw [hy.node, hw.node]; exact hlast) hstands'
      (s.mbc.discovery.answeredBy m)
    rw [htail] at hexec
    refine ⟨_, hexec, ?_⟩
    rw [hrep.2.1]
    have hland := idles_landedBy hidle .faulted (some r)
    refine ((bareRow_takeFault (hu.found hfound) ?_ (by rw [hu.record]; exact hstate) hland ?_ hopen ?_
      (eventSeverity_ne_retry k false)).1).answering _
    · rw [hu.record, hy.kept.1, hwz]
    · rw [hu.record, hy.kept.2.2.2.2, hw.record]
      rfl
    · refine severityOf_event (by simp) (.inr ⟨fun h => ?_, fun h => ?_⟩) <;> rw [h] at hland <;> cases hland

/-- R132, R135: the fault of a machine at rest. -/
theorem faultAborts_none (c : Instr) (m : Addr) (k : FaultKind) (p : Bool) (s : State) (hrun : s.phase = .running)
    (h : RaisesFault s c m k p) (hz : (s.record m).session = none) (hidle : (s.record m).state.idles = true)
    (hopen : (s.faults m).openMark = false) : ∃ t, exec c s = .next t ∧
      let own := eventSeverity k p
      let stale := c = .nodeStale m
      let x := (s.record m).state.landedBy .faulted (if stale then none else s.broughtBy m c)
      let left := if own = .lockout ∧ x ≠ .reserved then MState.outOfService else x
      let y := left.landedBy .faulted (if stale then s.broughtBy m c else none)
      (t.record m).state = y ∧
      (own = .stop → (t.faults m).openMark = false ∧ (s.broughtBy m c = none → t.msv = s.msv)) ∧
      (own = .lockout → (t.faults m).openMark = true ∧
        (x = .reserved → (t.record m).lockoutPending = true ∧ (t.record m).reserving = (s.record m).reserving)) ∧
      PrimaryTaken s t m k own x none ∧ t.cru = s.cru ∧ t.jrn.reservations = s.jrn.reservations ∧
      ChangesOnly [.msv, .mbc, .fba, .flm, .jrn, .evu] s t := by
  have hne := eventSeverity_ne_retry k p
  have hown : severityOf k p (s.record m).state = eventSeverity k p := by
    refine severityOf_event h.excess_of_persisting (.inr ⟨fun h => ?_, fun h => ?_⟩) <;> rw [h] at hidle <;> cases hidle
  by_cases hst : c = .nodeStale m
  · subst hst
    obtain ⟨rfl, rfl, r, u, hu⟩ := stale_exec hrun h
    obtain ⟨hrow, hmsv, hfba, hmbc⟩ := bareRow_takeFault hu.before.found (by rw [hu.before.record]; exact hz)
      (by rw [hu.before.record]) hidle (by rw [hu.before.record]) hopen hown hne
    have hstart : (takeFault m .nodeStale false u).fba.hasStart m = false := by
      rw [hfba, hu.before.fba]
      exact hu.start
    have hlast : r.fault = none ∨ ((takeFault m .nodeStale false u).node m).lastFault = r.fault := by
      unfold State.node
      rw [hmbc]
      exact hu.last
    have hexec := hu.exec
    generalize takeFault m .nodeStale false u = t at *
    have hleft : (t.record m).state = (s.record m).state := hrow.state
    have hrest : (t.record m).state.rests = true := by rw [hleft]; exact idles_rests hidle
    have hland := landed_finishReport (m := m) (r := r) (s := t) (.inl hrest) hstart hlast
    generalize finishReport m r t = v at *
    have hbrought : s.broughtBy m (.nodeStale m) = some r := hu.hand
    have htaken := primaryTaken_after hrow.taken (by rw [hland.faults]) (hland.changes.at .jrn) (hland.flags .fault (by decide))
      (hland.flags .lockout (by decide))
    refine ⟨v, hexec, ?_⟩
    simp only [↓reduceIte, hbrought]
    refine ⟨?_, fun _ => ⟨?_, fun hno => by cases hno⟩, fun hl => absurd hl (by decide), htaken,
      (hland.changes.at .cru).trans (hrow.changes.at .cru), htaken.2.1.reservations, hrow.changes.seq hland.changes⟩
    · rw [hland.state, hleft]
      exact landedBy_dest (fun h => by rw [h] at hidle; cases hidle) _ _ _
    · rw [hland.faults]
      show ((t.faults m).openMark && _) = false
      rw [hrow.stop rfl, Bool.false_and]
  · obtain ⟨t, hexec, hrow, hmsv⟩ : ∃ t, exec c s = .next t ∧
        BareRow m k (eventSeverity k p) ((s.record m).state.landedBy .faulted (s.broughtBy m c)) s t ∧
        (eventSeverity k p = .stop → s.broughtBy m c = none → t.msv = s.msv) := by
      cases hb : s.broughtBy m c with
      | none =>
        obtain ⟨u, hu, hexec⟩ := raises_exec hrun h hb
        obtain ⟨hrow, hmsv, -⟩ := bareRow_takeFault hu.found (by rw [hu.record]; exact hz) (by rw [hu.record]) hidle
          (by rw [hu.record]) hopen hown hne
        exact ⟨_, hexec, hrow, fun hs _ => (hmsv hs).trans hu.msv⟩
      | some r =>
        have hrep : ∃ rep, c = .validReport m rep := by
          cases h with
          | stale => exact absurd rfl hst
          | reported _ rep => exact ⟨rep, rfl⟩
          | overrun | silent | held | excess | persisting | clash | lost => cases hb
        obtain ⟨rep, rfl⟩ := hrep
        obtain ⟨t, hexec, hrow⟩ := bareRow_reported h hz hidle hopen
        rw [← hb]
        exact ⟨t, hexec, hrow, fun _ hno => by rw [hb] at hno; cases hno⟩
    refine ⟨t, hexec, ?_⟩
    simp only [hst, if_false]
    exact ⟨hrow.state, fun hs => ⟨hrow.stop hs, hmsv hs⟩, fun hl => ⟨hrow.lockout hl, hrow.pending hl⟩, hrow.taken,
      hrow.changes.at .cru, hrow.taken.2.1.reservations, hrow.changes⟩

/-! ## DOOR_LOCK before a run (R129, R20, R27) -/

/-- R129, R20, R27: DOOR_LOCK in ARMED and STARTING orders RETRY. -/
theorem faultAborts_retry (m : Addr) (rep : SlotReport) (r : NodeReport) (z : Session) (x : MState) (s : State)
    (hrep : ReportTaken s m rep r) (hf : r.fault = some .doorLock) (hlast : (s.node m).lastFault ≠ some .doorLock)
    (hdiff : (s.record m).kindDiffers r.kind = false) (hstands : s.startStands m r.kind)
    (hz : (s.record m).session = some z) (hx : (s.record m).standsIn x) (hxs : x = .armed ∨ x = .starting)
    (hopen : (s.faults m).openMark = false) (hpend : (s.record m).lockoutPending = false)
    (hroom : (s.record m).state = .recovering → s.sst.roomMode ≠ .closed) :
    ∃ t, exec (.validReport m rep) s = .next t ∧
      (t.record m).state = .armed ∧ ((s.record m).state = .recovering → (t.record m).retained = none) ∧
      t.fba.hasStart m = false ∧
      (x = .starting → t.fba.hasRaise m = false) ∧
      (∃ acked, (t.record m).session =
        some { z with armAcked := acked, startWait := if x = .starting then 0 else z.startWait }) ∧
      (t.faults m).openMark = false ∧ PrimaryTaken s t m .doorLock .retry x none ∧ t.cru = s.cru ∧
      t.jrn.reservations = s.jrn.reservations := by
  have hxs' : x = .armed ∨ x = .starting ∨ x = .running := hxs.imp id .inl
  obtain ⟨-, b, u, hu, -, hexec⟩ := reported_exec (.reported m rep r .doorLock hrep hf hlast hdiff hstands) hz hx hxs'
    fun h _ => hroom h
  obtain ⟨a, hzu⟩ := hu.session
  have hprim : takeFault m .doorLock false u = takePrimary m .doorLock false u := if_neg (by rw [hu.found.faults, hopen]; simp)
  have h := retried_takePrimary (m := m) (k := .doorLock) (p := false) hzu hu.stands hxs (by rcases hxs with rfl | rfl <;> rfl)
  rw [hprim] at hexec
  generalize takePrimary m .doorLock false u = t at *
  have hc := answering_changes b t
  have hstart : x = .starting ∨ u.fba.hasStart m = false := by
    rcases hxs with rfl | rfl
    · refine .inr (hu.start (hstands.resolve_right fun hst => ?_))
      rcases hx with hx | ⟨hx, -⟩ <;> rw [hx] at hst <;> cases hst.1
    · exact .inl rfl
  have htaken := primaryTaken_after (primaryTaken_of_found h.taken hu.found) (v := answering b t) (by rw [hc.faults m]) (hc.at .jrn)
    (by rw [hc.at .evu]) (by rw [hc.at .evu])
  refine ⟨_, hexec, ?_, fun hrec => ?_, ?_, fun hst => ?_, ⟨a, ?_⟩, ?_, htaken, ?_, htaken.2.1.reservations⟩
  · rw [hc.record m, h.record]
  · rw [hc.record m, h.record]
    exact (hu.retained hrec).elim (fun h1 => if_pos h1) fun h1 => ite_eq_left_iff.mpr fun _ => h1
  · rw [hc.at .fba]
    exact h.start hstart
  · rw [hc.at .fba]
    exact h.raise hst
  · rw [hc.record m, h.record]
    rcases hxs with rfl | rfl <;> rfl
  · rw [hc.faults m, h.mark (hu.pending.trans hpend), hu.found.faults, hopen]
  · exact (hc.at .cru).trans ((h.changes.at .cru).trans (hu.found.changes.at .cru))

end

/-- Settles O45: the fault of a run, of a session before or outside it, of a machine at rest, and RETRY. -/
theorem faultAbortsRun : Obligations.FaultAbortsRun := by
  refine ⟨?_, ?_, ?_, ?_⟩
  · intro c m k p z s hrun h hx hz hopen
    exact faultAborts_run c m k p z s hrun h hx hz hopen
  · intro c m k p z x s hrun h hz hx _ hxs hdoor hopen hpend hroom
    exact faultAborts_session c m k p z x s hrun h hz hx hxs hdoor hopen hpend hroom
  · intro c m k p s hrun h hz hidle hopen
    refine faultAborts_none c m k p s hrun h hz ?_ hopen
    revert hidle
    cases (s.record m).state <;> simp [MState.idles]
  · intro m rep r z x s hrep hf hlast hdiff hstands hz hx hxs hopen hpend hroom
    exact faultAborts_retry m rep r z x s hrep hf hlast hdiff hstands hz hx hxs hopen hpend hroom

end Sys2Proof.Machine
end


section
/-! PROOF. A secondary fault (R136), and what every fault leaves of the history, the addresses and the grant (R37, R43, R138). -/
namespace Sys2Proof.Machine

section
variable {m : Addr} {k : FaultKind} {p : Bool} {s t u v w y : State} {own sev : Severity} {cf : CurrentFault} {r : NodeReport}

/-! ## An order touches no more of a fault record than the open mark (R20, R131) -/

/-- Machine m's fault record stands but for the open mark. -/
def OnlyMark (m : Addr) (s t : State) : Prop := t.faults m = { s.faults m with openMark := (t.faults m).openMark }

theorem OnlyMark.trans (h : OnlyMark m s t) (k : OnlyMark m t u) : OnlyMark m s u := by
  unfold OnlyMark at *
  rw [k, h]

theorem OnlyMark.of_changes {ps : List Part} (h : ChangesOnly ps s t) (hp : ps.contains .flm = false := by rfl) : OnlyMark m s t := by
  unfold OnlyMark
  rw [h.faults m hp]

theorem onlyMark_enterState (x : MState) (s : State) : OnlyMark m s (enterState m x s) := by
  unfold OnlyMark State.faults
  rw [enterState_flm]
  split
  · rw [PerMachine.at_put_self]
    rfl
  · rfl

theorem onlyMark_abortIn (sev : Severity) (b : Bool) (s : State) : OnlyMark m s (abortIn m sev b s) := by
  have hunstarted : ∀ d, OnlyMark m s (abortUnstarted m b d s) := fun d => by
    have h1 := (removeEntries_changes m s).seq (review_changes _) (rs := [.msv, .mbc, .fba])
    have h2 := (h1.seq (queueControl_changes m .disarm _) (rs := [.msv, .mbc, .fba])).seq
      (disposeSession_changes m (s.orderRefund m b) _) (rs := [.msv, .mbc, .fba, .jrn, .cru, .evu])
    exact (OnlyMark.of_changes h2).trans (onlyMark_enterState d _)
  have hrunning : ∀ d, OnlyMark m s (abortRunning m b d s) := fun d => by
    have h1 := ((queueControl_changes m (.stop true) s).seq (removeEntries_changes m _) (rs := [.mbc, .fba])).seq
      (review_changes _) (rs := [.msv, .mbc, .fba])
    have h2 := (h1.seq (disposeSession_changes m (s.orderRefund m b) _) (rs := [.msv, .mbc, .fba, .jrn, .cru, .evu])).seq
      (mapRecord_changes m (fun x => { x with state := .aborting, stopDest := some d }) _) (rs := [.msv, .mbc, .fba, .jrn, .cru, .evu])
    exact OnlyMark.of_changes h2
  unfold abortIn
  split
  · exact hunstarted _
  · exact hunstarted _
  · exact .of_changes (backToArmed_changes m s)
  · exact hunstarted _
  · exact hunstarted _
  · exact hrunning _
  · exact hrunning _
  · exact .of_changes (mapRecord_changes m _ s)
  · exact .of_changes (mapRecord_changes m _ s)
  iterate 5 exact onlyMark_enterState .outOfService s
  · rfl

theorem onlyMark_applyAbort (m : Addr) (sev : Severity) (b : Bool) (s : State) : OnlyMark m s (applyAbort m sev b s) :=
  (OnlyMark.of_changes (endRecovery_changes m s)).trans (onlyMark_abortIn sev b _)

theorem history_orderAbort (m : Addr) (sev : Severity) (b : Bool) (s : State) :
    ((orderAbort m sev b s).faults m).history = (s.faults m).history := by
  have h : ((applyAbort m sev b s).faults m).history = (s.faults m).history := by rw [onlyMark_applyAbort m sev b s]
  unfold orderAbort storeRefund
  split
  · rw [← h]
    simp
  · exact h

theorem grant_applyAbort (m : Addr) (sev : Severity) (b : Bool) (s : State) : (applyAbort m sev b s).grant m = s.grant m :=
  (grant_abortIn m sev b _).trans ((endRecovery_changes m s).grant m)

/-! ## A secondary (R136) -/

/-- R131: the states of a machine without a session in which the open mark stands. -/
def MState.marked : MState → Bool
  | .aborting | .faulted | .outOfService | .reserved => true
  | _ => false

/-- R20: LOCKOUT of a machine whose open mark stands. -/
def MachineRecord.lockedAgain (y : MachineRecord) : MachineRecord :=
  if y.state = .aborting then { y with stopDest := some .outOfService } else y.lockedOut

theorem applyAbort_marked (h : (s.record m).state.marked = true) (b : Bool) :
    (applyAbort m .lockout b s).record m = (s.record m).lockedAgain ∧ (applyAbort m .lockout b s).faults m = s.faults m ∧
      ChangesOnly [.msv, .flm] s (applyAbort m .lockout b s) := by
  have hagain : (s.record m).state ≠ .aborting → (s.record m).lockedAgain = (s.record m).lockedOut := fun h => if_neg h
  have happ : (s.record m).state ≠ .recovering → applyAbort m .lockout b s = abortIn m .lockout b s := fun hne => by
    unfold applyAbort
    rw [endRecovery_same hne]
  cases hx : (s.record m).state with
  | reserved | outOfService =>
    rw [hagain (by simp [hx])]
    exact applyAbort_lockout (by rw [hx]; rfl) b
  | aborting =>
    have ha : abortIn m .lockout b s = mapRecord m (fun x => { x with stopDest := some .outOfService }) s := by unfold abortIn; rw [hx]
    rw [happ (by simp [hx]), ha, show (s.record m).lockedAgain = { s.record m with stopDest := some .outOfService } from if_pos hx]
    exact ⟨by simp [mapRecord], rfl, (mapRecord_changes m _ s).seq (.refl [] _)⟩
  | faulted =>
    have ha : abortIn m .lockout b s = enterState m .outOfService s := by unfold abortIn; rw [hx]
    have hout : (s.record m).lockedOut = { s.record m with state := .outOfService, unloadTimer := 0 } := by
      unfold MachineRecord.lockedOut
      rw [if_neg (by simp [hx]), if_neg (by simp [hx])]
    rw [happ (by simp [hx]), ha, hagain (by simp [hx]), hout]
    refine ⟨enterState_record m .outOfService s, ?_, enterState_changes m _ s⟩
    unfold State.faults
    rw [enterState_flm]
    rfl
  | _ =>
    rw [hx] at h
    cases h

/-- R136 steps 3 and 4: the current fault with a secondary. -/
theorem joined_eq (c : CurrentFault) (k : FaultKind) (sev : Severity) :
    c.joined k sev = { c with
      secondary := if c.secondary = none ∨ c.severity.rank < sev.rank then some k else c.secondary
      severity := if c.severity.rank < sev.rank then sev else c.severity } := by
  unfold CurrentFault.joined Severity.max
  have : (if (c.secondary.isNone || decide (c.severity.rank < sev.rank)) = true then some k else c.secondary) =
      if c.secondary = none ∨ c.severity.rank < sev.rank then some k else c.secondary := if_congr (by simp) rfl rfl
  rw [this]

/-- R136 steps 1 to 4. -/
def State.joining (s : State) (m : Addr) (k : FaultKind) (own : Severity) : State :=
  s.setFaults m { (s.faults m).counted k with current := (s.faults m).current.map fun c => c.joined k own }

/-- R136 steps 5 to 7: LOCKOUT where the severity rose to it, the record, and the events. -/
def writeSecondary (m : Addr) (k : FaultKind) (own : Severity) (raised : Bool) (s : State) : State :=
  setEvent .fault (writeFree (faultTaken m k own false true none)
    (setEventIf raised .lockout (if raised = true then applyAbort m .lockout false s else s)))

theorem takeSecondary_eq (m : Addr) (k : FaultKind) (p : Bool) (s : State) :
    let own := severityOf k p (s.record m).effective
    takeSecondary m k p s =
      writeSecondary m k own ((s.faults m).current.any fun c => c.severity != .lockout && own == .lockout) (s.joining m k own) := by
  intro own
  unfold takeSecondary
  dsimp only
  rw [faultBody_eq]
  rfl

/-- R136 steps 5 to 7: what they leave after the order. -/
structure WroteSecondary (m : Addr) (k : FaultKind) (own : Severity) (raised : Bool) (s t : State) : Prop where
  jrn     : t.jrn = (writeFree (faultTaken m k own false true none) s).jrn
  fault   : t.evu.isSet .fault = true
  lockout : t.evu.isSet .lockout = (raised || s.evu.isSet .lockout)
  changes : ChangesOnly [.jrn, .evu] s t

theorem wroteSecondary_writeSecondary (m : Addr) (k : FaultKind) (own : Severity) (raised : Bool) (s : State) :
    WroteSecondary m k own raised (if raised = true then applyAbort m .lockout false s else s) (writeSecondary m k own raised s) := by
  unfold writeSecondary
  generalize (if raised = true then applyAbort m .lockout false s else s) = u
  have h1 := setEventIf_changes raised .lockout u
  have hl := setEventIf_isSet raised .lockout .lockout u
  generalize setEventIf raised .lockout u = v at *
  have h2 := writeFree_changes (faultTaken m k own false true none) v
  have hj := (booksOnly_writeFree (faultTaken m k own false true none) u v h1.sameBooks).jrn
  have hset := writeFree_setsAmong (faultTaken m k own false true none) v
  generalize writeFree (faultTaken m k own false true none) v = w at *
  have h3 := setEvent_changes .fault w
  exact
    { jrn := (h3.at .jrn).trans hj
      fault := by rw [setEvent_isSet]; simp
      lockout := by
        rw [setEvent_isSet, hset .lockout (by decide), hl]
        simp
      changes := h1.seq (h2.seq h3 (rs := [.jrn, .evu])) }

/-- R136: what a secondary leaves; `raised` says that it raised the severity to LOCKOUT. -/
structure Joined (m : Addr) (k : FaultKind) (own : Severity) (cf : CurrentFault) (s t : State) : Prop where
  faults  : t.faults m = { s.faults m with
    current := some (cf.joined k own), openMark := (t.faults m).openMark, history := countedHistory (s.faults m).history k }
  fault   : t.evu.isSet .fault = true
  changes : ChangesOnly sessionParts s t

/-- R136: the record, the journal and the events, where the severity does not rise to LOCKOUT. -/
structure JoinedCalm (m : Addr) (k : FaultKind) (own : Severity) (s t : State) : Prop where
  mark    : (t.faults m).openMark = (s.faults m).openMark
  took    : TookFree s t (faultTaken m k own false true none)
  lockout : t.evu.isSet .lockout = s.evu.isSet .lockout
  changes : ChangesOnly [.flm, .jrn, .evu] s t

/-- R136, R20: and where it does, in the states in which the open mark stands. -/
structure JoinedRaised (m : Addr) (k : FaultKind) (own : Severity) (s t : State) : Prop where
  record  : t.record m = (s.record m).lockedAgain
  mark    : (t.faults m).openMark = (s.faults m).openMark
  took    : TookFree s t (faultTaken m k own false true none)
  changes : ChangesOnly [.msv, .flm, .jrn, .evu] s t

theorem joined_takeSecondary (hc : (s.faults m).current = some cf) (hown : severityOf k p (s.record m).effective = own) :
    let t := takeSecondary m k p s
    Joined m k own cf s t ∧
    (cf.severity = .lockout ∨ own ≠ .lockout → JoinedCalm m k own s t) ∧
    (cf.severity ≠ .lockout → own = .lockout →
      t.evu.isSet .lockout = true ∧ ((s.record m).state.marked = true → JoinedRaised m k own s t)) := by
  intro t
  have heq := takeSecondary_eq m k p s
  have hall := takeSecondary_changes m k p s
  change t = _ at heq
  change ChangesOnly sessionParts s t at hall
  clear_value t
  rw [hown, hc] at heq
  change t = writeSecondary m k own (cf.severity != .lockout && own == .lockout) _ at heq
  have h1 : ChangesOnly [.flm] s (s.joining m k own) := setFaults_changes m _ s
  have hf1 : (s.joining m k own).faults m = { s.faults m with
      current := some (cf.joined k own), openMark := (s.faults m).openMark, history := countedHistory (s.faults m).history k } := by
    rw [← counted_history]
    simp [State.joining, hc]
    exact ⟨rfl, rfl⟩
  generalize s.joining m k own = s1 at *
  have hr := wroteSecondary_writeSecondary m k own (cf.severity != .lockout && own == .lockout) s1
  rw [← heq] at hr
  have hmark : OnlyMark m s1 (if (cf.severity != .lockout && own == .lockout) = true then applyAbort m .lockout false s1 else s1) := by
    split
    · exact onlyMark_applyAbort m _ _ s1
    · rfl
  refine ⟨⟨?_, hr.fault, hall⟩, fun hcalm => ?_, fun hne hlock => ?_⟩
  · rw [hr.changes.faults m, hmark, hf1]
  · have hno : (cf.severity != .lockout && own == .lockout) = false := by
      rcases hcalm with h | h <;> simp [h]
    rw [hno] at hr
    have hr : WroteSecondary m k own false s1 t := hr
    exact
      { mark := by rw [hr.changes.faults m, hf1]
        took := .of_same (h1.at .jrn) h1.sameBooks.stamp hr.jrn
        lockout := by rw [hr.lockout, congrArg (fun e : Evu => e.isSet .lockout) (h1.at .evu)]; rfl
        changes := h1.seq hr.changes }
  · have hyes : (cf.severity != .lockout && own == .lockout) = true := by simp [hne, hlock]
    rw [hyes] at hr
    have hr : WroteSecondary m k own true (applyAbort m .lockout false s1) t := hr
    refine ⟨hr.lockout, fun hmarked => ?_⟩
    obtain ⟨hrec, hflt, hc2⟩ := applyAbort_marked (m := m) (s := s1) (by rw [h1.record m]; exact hmarked) false
    generalize applyAbort m .lockout false s1 = s2 at *
    have h12 : ChangesOnly [.msv, .flm] s s2 := h1.seq hc2
    exact
      { record := by rw [hr.changes.record m, hrec, h1.record m]
        mark := by rw [hr.changes.faults m, hflt, hf1]
        took := .of_same (h12.at .jrn) h12.sameBooks.stamp hr.jrn
        changes := h12.seq hr.changes }

/-! ## What any fault leaves (R138, R37, R43) -/

theorem history_takeFault (m : Addr) (k : FaultKind) (p : Bool) (s : State) :
    ((takeFault m k p s).faults m).history = countedHistory (s.faults m).history k := by
  unfold takeFault
  split
  · rw [takeSecondary_eq]
    have hr := wroteSecondary_writeSecondary m k (severityOf k p (s.record m).effective)
      ((s.faults m).current.any fun c => c.severity != .lockout && severityOf k p (s.record m).effective == .lockout)
      (s.joining m k (severityOf k p (s.record m).effective))
    rw [hr.changes.faults m]
    have hj : ((s.joining m k (severityOf k p (s.record m).effective)).faults m).history = countedHistory (s.faults m).history k := by
      rw [← counted_history]
      simp [State.joining]
    rw [← hj]
    split
    · rw [onlyMark_applyAbort]
    · rfl
  · rw [takePrimary_eq]
    rw [(concluded_concluded _ _ _ _ _).faults]
    dsimp only
    rw [history_orderAbort, noting_faults]

theorem grant_takeFault (m : Addr) (k : FaultKind) (p : Bool) (s : State) : (takeFault m k p s).grant m = s.grant m := by
  unfold takeFault
  split
  · rw [takeSecondary_eq, (wroteSecondary_writeSecondary _ _ _ _ _).changes.grant m]
    split
    · exact grant_applyAbort m .lockout false _
    · rfl
  · rw [takePrimary_eq]
    rw [(concluded_concluded _ _ _ _ _).changes.grant m]
    unfold orderAbort
    rw [(storeRefund_changes m _ _).grant m, grant_applyAbort]
    rfl

end

end Sys2Proof.Machine
end


section
/-! PROOF. O46: a fault under an open mark, ADDRESS_CLASH, and a lost command (R136, R37, R43). -/
namespace Sys2Proof.Machine

section
variable {m : Addr} {k : FaultKind} {p : Bool} {c : Instr} {s t u v w : State} {x y : MachineRecord} {own : Severity}
  {cf : CurrentFault} {r : NodeReport}

/-! ## A secondary, as its row shows it -/

/-- R136: what a row leaves that reports a fault under an open mark; FLM found the record `y`. -/
structure JoinedRow (m : Addr) (k : FaultKind) (own : Severity) (cf : CurrentFault) (y : MachineRecord) (s t : State) : Prop where
  faults : t.faults m = { s.faults m with
    current := some (cf.joined k own), openMark := (t.faults m).openMark, history := countedHistory (s.faults m).history k }
  fault  : t.evu.isSet .fault = true
  calm   : cf.severity = .lockout ∨ own ≠ .lockout → t.record m = y ∧ (t.faults m).openMark = true ∧ t.cru = s.cru ∧
    TookFree s t (faultTaken m k own false true none) ∧ t.evu.isSet .lockout = s.evu.isSet .lockout
  raised : cf.severity ≠ .lockout → own = .lockout → t.evu.isSet .lockout = true ∧ (y.state.marked = true →
    t.record m = y.lockedAgain ∧ (t.faults m).openMark = true ∧ TookFree s t (faultTaken m k own false true none))

theorem joinedRow_takeFault (hf : FaultFound m s u) (hopen : (s.faults m).openMark = true)
    (hc : (s.faults m).current = some cf) (hown : severityOf k p (u.record m).effective = own) :
    JoinedRow m k own cf (u.record m) s (takeFault m k p u) ∧
      (cf.severity = .lockout ∨ own ≠ .lockout → ChangesOnly [.flm, .jrn, .evu] u (takeFault m k p u)) := by
  have hsec : takeFault m k p u = takeSecondary m k p u := if_pos (by rw [hf.faults]; exact hopen)
  obtain ⟨hj, hcalm, hraised⟩ := joined_takeSecondary (p := p) (s := u) (by rw [hf.faults]; exact hc) hown
  rw [hsec]
  generalize takeSecondary m k p u = t at *
  refine ⟨?_, fun h => (hcalm h).changes⟩
  exact
    { faults := by rw [hj.faults, hf.faults]
      fault := hj.fault
      calm := fun h => by
        have hcm := hcalm h
        exact ⟨hcm.changes.record m, by rw [hcm.mark, hf.faults, hopen], (hcm.changes.at .cru).trans (hf.changes.at .cru),
          hcm.took.same hf.books rfl, hcm.lockout.trans hf.lockout⟩
      raised := fun hne hl => by
        obtain ⟨hset, hmarked⟩ := hraised hne hl
        refine ⟨hset, fun hy => ?_⟩
        have hr := hmarked hy
        exact ⟨hr.record, by rw [hr.mark, hf.faults, hopen], hr.took.same hf.books rfl⟩ }

theorem JoinedRow.answering (h : JoinedRow m k own cf y s t) (b : Bool) : JoinedRow m k own cf y s (answering b t) := by
  have hc := answering_changes b t
  generalize Machine.answering b t = v at *
  have htook : TookFree s t (faultTaken m k own false true none) → TookFree s v (faultTaken m k own false true none) := fun h =>
    h.same (.refl s) (hc.at .jrn)
  exact
    { faults := by rw [hc.faults m]; exact h.faults
      fault := by rw [hc.at .evu]; exact h.fault
      calm := fun hcm => by
        obtain ⟨h1, h2, h3, h4, h5⟩ := h.calm hcm
        exact ⟨(hc.record m).trans h1, by rw [hc.faults m]; exact h2, (hc.at .cru).trans h3, htook h4, by rw [hc.at .evu]; exact h5⟩
      raised := fun hne hl => by
        obtain ⟨hset, hmarked⟩ := h.raised hne hl
        refine ⟨by rw [hc.at .evu]; exact hset, fun hy => ?_⟩
        obtain ⟨h1, h2, h3⟩ := hmarked hy
        exact ⟨(hc.record m).trans h1, by rw [hc.faults m]; exact h2, htook h3⟩ }

theorem lockedAgain_marked (y : MachineRecord) :
    (y.state = .aborting → y.lockedAgain.state = .aborting ∧ y.lockedAgain.stopDest = some .outOfService ∧
      y.lockedAgain = { y with stopDest := some .outOfService }) ∧
    (y.state = .faulted ∨ y.state = .outOfService → y.lockedAgain.state = .outOfService) ∧
    (y.state = .reserved → y.lockedAgain.state = .reserved ∧ y.lockedAgain.lockoutPending = true) := by
  have hout : y.state ≠ .aborting → y.lockedAgain = y.lockedOut := fun h => if_neg h
  refine ⟨fun h => ?_, fun h => ?_, fun h => ?_⟩
  · rw [show y.lockedAgain = { y with stopDest := some .outOfService } from if_pos h]
    exact ⟨h, rfl, rfl⟩
  · rw [hout (by rcases h with h | h <;> simp [h]), lockedOut_state, if_pos (by rcases h with h | h <;> simp [h])]
  · rw [hout (by simp [h]), show y.lockedOut = { y with lockoutPending := true } from if_pos h]
    exact ⟨h, rfl⟩

/-! ## The rows -/

theorem RaisesFault.brings (h : RaisesFault s c m k p) :
    (s.broughtBy m c = none ∧ k ≠ .doorLock) ∨ (∃ rep, c = .validReport m rep) ∨ c = .nodeStale m := by
  cases h with
  | stale => exact .inr (.inr rfl)
  | reported _ rep => exact .inr (.inl ⟨rep, rfl⟩)
  | overrun | silent | held | excess | persisting | clash | lost => exact .inl ⟨rfl, by simp⟩

theorem marked_effective (h : y.state.marked = true) : y.effective = y.state := by
  unfold MachineRecord.effective
  split
  · next hx _ =>
    rw [hx] at h
    cases h
  · rfl

/-- R130: under an open mark a fault has the severity of its kind. -/
theorem severityOf_marked (h : RaisesFault s c m k p) (hy : y.state.marked = true) :
    severityOf k p y.effective = eventSeverity k p := by
  rw [marked_effective hy]
  refine severityOf_event h.excess_of_persisting (.inr ⟨fun hx => ?_, fun hx => ?_⟩) <;> rw [hx] at hy <;> cases hy

/-- R136: the rows that bring no report. -/
theorem joinedRow_bare (hrun : s.phase = .running) (h : RaisesFault s c m k p) (hno : s.broughtBy m c = none)
    (hdoor : k ≠ .doorLock) (hopen : (s.faults m).openMark = true) (hc : (s.faults m).current = some cf) :
    ∃ t, exec c s = .next t ∧ JoinedRow m k (eventSeverity k p) cf (s.record m) s t ∧
      (cf.severity = .lockout ∨ eventSeverity k p ≠ .lockout → t.msv = s.msv) := by
  obtain ⟨u, hu, hexec⟩ := raises_exec hrun h hno
  obtain ⟨hrow, hch⟩ := joinedRow_takeFault (p := p) hu.found hopen hc (severityOf_event h.excess_of_persisting (.inl hdoor))
  rw [hu.record] at hrow
  exact ⟨_, hexec, hrow, fun hcm => ((hch hcm).at .msv).trans hu.msv⟩

/-- R38, R136: a fault code that a report brings of a machine whose open mark stands. -/
theorem joinedRow_reported {rep : SlotReport} (h : RaisesFault s (.validReport m rep) m k p)
    (hx : (s.record m).state.marked = true)
    (hclosed : ∀ r, decodeReport m rep = some r → ¬((s.record m).state = .faulted ∧ r.door = .opened))
    (hopen : (s.faults m).openMark = true) (hc : (s.faults m).current = some cf) :
    ∃ t y r, exec (.validReport m rep) s = .next t ∧ JoinedRow m k (eventSeverity k p) cf y s t ∧ y.state = (s.record m).state ∧
      decodeReport m rep = some r ∧ r.state = .nFault := by
  cases h with
  | reported _ _ r k hrep hf hlast hdiff hstands =>
    have hr : r.state = .nFault := by
      by_contra hne
      rw [(reportable_of_decode hrep.2.1).fault.mpr hne] at hf
      cases hf
    have hw := arrived_arrived (m := m) (s := s) hrep.2.2.2
    have hexec := exec_report hrep
    rw [hdiff] at hexec
    change exec _ s = .next (reportTail m r _ (applyNodeState m r (arrived m r s))) at hexec
    generalize arrived m r s = w at *
    have hwx : (w.record m).state = (s.record m).state := by rw [hw.record]; rfl
    have hstay : applyNodeState m r w = w := by
      cases hst : (s.record m).state with
      | faulted =>
        rw [(applyNodeState_fault_frees hr).2 (.inr (hwx.trans hst))]
        cases hd : r.door with
        | opened => exact absurd ⟨hst, hd⟩ (hclosed r hrep.2.1)
        | closed => rfl
      | aborting | outOfService | reserved => exact applyNodeState_fault_stays hr (by rw [hwx, hst]; simp)
      | _ => rw [hst] at hx; cases hx
    rw [hstay] at hexec
    have hstands' : w.startStands m r.kind := startStands_of hstands hw.fba hw.sums.1 fun hs => by rw [hs] at hx; cases hx
    obtain ⟨u, hu, htail⟩ := reportTail_code (y := w) hf (by rw [hw.node]; exact hlast) hstands' (s.mbc.discovery.answeredBy m)
    rw [htail] at hexec
    have hux : (u.record m).state = (s.record m).state := by rw [hu.record, hwx]
    have hmarked : (u.record m).state.marked = true := by rw [hux]; exact hx
    exact ⟨_, u.record m, r, hexec, ((joinedRow_takeFault (p := false) (hu.found hw.found) hopen hc
      (severityOf_marked (.reported m rep r k hrep hf hlast hdiff hstands) hmarked)).1).answering _, hux, hrep.2.1, hr⟩

/-- R36, R136: NODE_STALE under an open mark, and the rest of its report. -/
structure StaleJoined (m : Addr) (r : NodeReport) (cf : CurrentFault) (s t : State) : Prop where
  faults  : t.faults m = { s.faults m with
    current := some (cf.joined .nodeStale .stop), openMark := (t.faults m).openMark
    history := countedHistory (s.faults m).history .nodeStale }
  fault   : t.evu.isSet .fault = true
  state   : (t.record m).state =
    (s.record m).state.landedBy (if (s.record m).stopDest = some .outOfService then .outOfService else .faulted) (some r)
  mark    : (t.faults m).openMark = !(s.record m).state.freedBy r.door
  cru     : t.cru = s.cru
  took    : TookFree s t (faultTaken m .nodeStale .stop false true none)
  lockout : t.evu.isSet .lockout = s.evu.isSet .lockout

theorem staleJoined_exec (hrun : s.phase = .running) (h : RaisesFault s (.nodeStale m) m k p)
    (hx : ∀ r, (s.node m).inHand = some r → (s.record m).state.marked = true) (hopen : (s.faults m).openMark = true)
    (hc : (s.faults m).current = some cf) :
    k = .nodeStale ∧ p = false ∧ ∃ t r, exec (.nodeStale m) s = .next t ∧ (s.node m).inHand = some r ∧ StaleJoined m r cf s t := by
  obtain ⟨rfl, rfl, r, u, hu⟩ := stale_exec hrun h
  have hmarked := hx r hu.hand
  have hux : (u.record m).state.marked = true := by rw [hu.before.record]; exact hmarked
  obtain ⟨hrow, hch⟩ := joinedRow_takeFault (p := false) hu.before.found hopen hc (severityOf_marked h hux)
  have hcm : cf.severity = .lockout ∨ eventSeverity .nodeStale false ≠ .lockout := .inr (by decide)
  have hcalm := hch hcm
  have hexec := hu.exec
  rw [hu.before.record] at hrow
  generalize takeFault m .nodeStale false u = t at *
  obtain ⟨hrec, hmark, hcru, htook, hlock⟩ := hrow.calm hcm
  have hfree : (t.record m).state.rests = true ∨ (t.record m).state = .aborting := by
    rw [hrec]
    revert hmarked
    cases (s.record m).state <;> simp [MState.marked, MState.rests]
  have hland := landed_finishReport (m := m) (r := r) (s := t) hfree (by rw [hcalm.at .fba, hu.before.fba]; exact hu.start)
    (by rw [hcalm.node m]; exact hu.last)
  generalize finishReport m r t = v at *
  refine ⟨rfl, rfl, v, r, hexec, hu.hand, ?_⟩
  have hstate := hland.state
  rw [hrec] at hstate
  exact
    { faults := by
        rw [hland.faults, hrow.faults]
        rfl
      fault := (hland.flags .fault (by decide)).trans hrow.fault
      state := hstate
      mark := by
        rw [hland.faults, hrec]
        show ((t.faults m).openMark && _) = _
        rw [hmark, Bool.true_and]
      cru := (hland.changes.at .cru).trans hcru
      took := htook.same (.refl s) (hland.changes.at .jrn)
      lockout := (hland.flags .lockout (by decide)).trans hlock }

/-! ## The state that a report leaves -/

theorem landedBy_marked {a d : MState} (h : a.marked = true) (r : NodeReport) :
    a.landedBy d (some r) =
      if a = .faulted ∧ (some r).any (·.door == .opened) = true then .idle
      else if a = .aborting ∧ (some r).any (fun r => r.state == .nStopped || r.state == .nEnd || r.state == .nIdle) = true then d
      else a := by
  cases a with
  | faulted => simp [MState.landedBy]
  | aborting => simp [MState.landedBy, or_assoc]
  | outOfService | reserved => simp [MState.landedBy]
  | _ => cases h

theorem freedBy_marked {a : MState} (h : a.marked = true) (r : NodeReport) :
    a.freedBy r.door = decide (a = .faulted ∧ (some r).any (·.door == .opened) = true) := by
  cases a with
  | faulted | aborting | outOfService | reserved => cases hd : r.door <;> simp [MState.freedBy, hd]
  | _ => cases h

end

end Sys2Proof.Machine
end


section
/-! PROOF. O46 put together: a secondary, ADDRESS_CLASH, and CMD_LOST (R136, R37, R43). -/
namespace Sys2Proof.Machine

section
variable {m : Addr} {k : FaultKind} {p : Bool} {c : Instr} {s t u v w : State} {x y : MachineRecord} {own : Severity}
  {cf : CurrentFault} {r : NodeReport} {b : Option NodeReport}

/-! ## A secondary -/

/-- R136: what a secondary of the severity `own` leaves, whose row brought the report `b`. -/
def SecondaryTaken (m : Addr) (k : FaultKind) (own : Severity) (cf : CurrentFault) (b : Option NodeReport) (s t : State) : Prop :=
  let freed := (s.record m).state = .faulted ∧ b.any (·.door == .opened) = true
  let ends := (s.record m).state = .aborting ∧ b.any (fun r => r.state == .nStopped || r.state == .nEnd || r.state == .nIdle) = true
  t.faults m = { s.faults m with
    current := some { cf with
      secondary := if cf.secondary = none ∨ cf.severity.rank < own.rank then some k else cf.secondary
      severity := if cf.severity.rank < own.rank then own else cf.severity }
    openMark := (t.faults m).openMark, history := countedHistory (s.faults m).history k } ∧
  t.evu.isSet .fault = true ∧
  (cf.severity = .lockout ∨ own = .stop →
    (t.record m).state =
      (if freed then .idle
       else if ends then (if (s.record m).stopDest = some .outOfService then .outOfService else .faulted)
       else (s.record m).state) ∧
    (t.faults m).openMark = !decide freed ∧ (b = none → t.msv = s.msv) ∧ t.cru = s.cru ∧
    TookFree s t (faultTaken m k own false true none) ∧ t.evu.isSet .lockout = s.evu.isSet .lockout) ∧
  (cf.severity = .stop → own = .lockout →
    t.evu.isSet .lockout = true ∧
    ((s.record m).state = .aborting →
      (t.record m).state = .aborting ∧ (t.record m).stopDest = some .outOfService ∧
      (b = none → t.record m = { s.record m with stopDest := some .outOfService })) ∧
    ((s.record m).state = .faulted ∨ (s.record m).state = .outOfService → (t.record m).state = .outOfService) ∧
    ((s.record m).state = .reserved → (t.record m).state = .reserved ∧ (t.record m).lockoutPending = true) ∧
    ((s.record m).state = .aborting ∨ (s.record m).state = .faulted ∨ (s.record m).state = .outOfService ∨
        (s.record m).state = .reserved →
      (t.faults m).openMark = true ∧ TookFree s t (faultTaken m k own false true none)))

theorem marked_iff {a : MState} : a.marked = true ↔ a = .aborting ∨ a = .faulted ∨ a = .outOfService ∨ a = .reserved := by
  cases a <;> simp [MState.marked]

/-- A report that neither frees the machine nor ends its stop leaves what FLM's fault has left. -/
theorem JoinedRow.secondaryTaken (h : JoinedRow m k own cf y s t) (hy : y.state = (s.record m).state)
    (hrec : b = none → y = s.record m)
    (hmsv : cf.severity = .lockout ∨ own ≠ .lockout → b = none → t.msv = s.msv)
    (hfreed : ¬((s.record m).state = .faulted ∧ b.any (·.door == .opened) = true))
    (hends : b.any (fun r => r.state == .nStopped || r.state == .nEnd || r.state == .nIdle) = false) :
    SecondaryTaken m k own cf b s t := by
  obtain ⟨habort, hout, hres⟩ := lockedAgain_marked y
  refine ⟨by rw [h.faults, joined_eq], h.fault, fun hc => ?_, fun hs hl => ?_⟩
  · have hcm : cf.severity = .lockout ∨ own ≠ .lockout := hc.imp id fun hs => by simp [hs]
    obtain ⟨h1, h2, h3, h4, h5⟩ := h.calm hcm
    refine ⟨?_, ?_, hmsv hcm, h3, h4, h5⟩
    · rw [if_neg hfreed, if_neg (by simp [hends]), h1, hy]
    · rw [h2, decide_eq_false hfreed]
      rfl
  · obtain ⟨hset, hmarked⟩ := h.raised (by simp [hs]) hl
    rw [hy] at habort hout hres hmarked
    refine ⟨hset, fun ha => ?_, fun ha => ?_, fun ha => ?_, fun ha => (hmarked (marked_iff.mpr ha)).2⟩
    · rw [(hmarked (marked_iff.mpr (.inl ha))).1]
      obtain ⟨h1, h2, h3⟩ := habort ha
      exact ⟨h1, h2, fun hb => by rw [h3, hrec hb]⟩
    · rw [(hmarked (marked_iff.mpr (.inr (ha.imp id .inl)))).1]
      exact hout ha
    · rw [(hmarked (marked_iff.mpr (.inr (.inr (.inr ha))))).1]
      exact hres ha

theorem StaleJoined.secondaryTaken (h : StaleJoined m r cf s t) (hx : (s.record m).state.marked = true) :
    SecondaryTaken m .nodeStale .stop cf (some r) s t := by
  refine ⟨by rw [h.faults, joined_eq], h.fault, fun _ => ?_, fun _ hl => by cases hl⟩
  exact ⟨by rw [h.state, landedBy_marked hx], by rw [h.mark, freedBy_marked hx], fun hb => absurd hb (by simp), h.cru, h.took, h.lockout⟩

/-- R131, R136: a fault reported under an open mark. -/
theorem openFault_secondary (hrun : s.phase = .running) (h : RaisesFault s c m k p) (hopen : (s.faults m).openMark = true)
    (hc : (s.faults m).current = some cf)
    (hx : ∀ r, s.broughtBy m c = some r → (s.record m).state = .aborting ∨ (s.record m).state = .faulted ∨
      (s.record m).state = .outOfService ∨ (s.record m).state = .reserved)
    (hclosed : ∀ rep r, c = .validReport m rep → decodeReport m rep = some r →
      ¬((s.record m).state = .faulted ∧ r.door = .opened)) :
    ∃ t, exec c s = .next t ∧ SecondaryTaken m k (eventSeverity k p) cf (s.broughtBy m c) s t := by
  rcases h.brings with ⟨hno, hdoor⟩ | ⟨rep, rfl⟩ | rfl
  · obtain ⟨t, hexec, hrow, hmsv⟩ := joinedRow_bare hrun h hno hdoor hopen hc
    refine ⟨t, hexec, ?_⟩
    rw [hno]
    exact hrow.secondaryTaken rfl (fun _ => rfl) (fun hcm _ => hmsv hcm) (by simp) rfl
  · have hmarked : (s.record m).state.marked = true := by
      cases h with
      | reported _ _ r _ hrep => exact marked_iff.mpr (hx r hrep.2.1)
    obtain ⟨t, y, r, hexec, hrow, hy, hr, hstate⟩ := joinedRow_reported h hmarked (fun r => hclosed rep r rfl) hopen hc
    refine ⟨t, hexec, ?_⟩
    have hb : s.broughtBy m (.validReport m rep) = some r := hr
    rw [hb]
    refine hrow.secondaryTaken hy (fun hno => by cases hno) (fun _ hno => by cases hno) ?_ (by simp [hstate])
    simpa using hclosed rep r rfl hr
  · obtain ⟨rfl, rfl, t, r, hexec, hhand, hj⟩ :=
      staleJoined_exec hrun h (fun r hr => marked_iff.mpr (hx r hr)) hopen hc
    refine ⟨t, hexec, ?_⟩
    have hb : s.broughtBy m (.nodeStale m) = some r := hhand
    rw [hb]
    exact hj.secondaryTaken (marked_iff.mpr (hx r hb))

/-! ## ADDRESS_CLASH (R37) -/

theorem clash_exec (hrun : s.phase = .running) : ∃ t, exec (.addressClash m) s = .next t ∧
    ((s.node m).clashOwed = false → t = s) ∧
    ((s.node m).clashOwed = true → t.node m = (s.node m).clashed ∧ (∀ a, a ≠ m → t.node a = s.node a) ∧
      t.evu.isSet .addressClash = true ∧ (t.faults m).history = countedHistory (s.faults m).history .addressClash) := by
  have hexec : exec (.addressClash m) s = .next (clashIfDue m s) := by
    show Host.Outcome.next (whenRunning (clashIfDue m) s) = _
    rw [whenRunning_of_running hrun]
  refine ⟨_, hexec, fun hno => whenDue_of_not_due hno, fun hdue => ?_⟩
  rw [show clashIfDue m s = takeClash m s from whenDue_of_due hdue]
  unfold takeClash
  have hn := mapNode_changes m NodeEntry.clashed s
  have hself : (mapNode m NodeEntry.clashed s).node m = (s.node m).clashed := by simp [mapNode]
  have hother : ∀ a, a ≠ m → (mapNode m NodeEntry.clashed s).node a = s.node a := fun a ha => by simp [mapNode, Ne.symm ha]
  generalize mapNode m NodeEntry.clashed s = u at *
  have he := setEvent_changes .addressClash u
  have hset : (setEvent .addressClash u).evu.isSet .addressClash = true := by rw [setEvent_isSet]; simp
  generalize setEvent .addressClash u = v at *
  have hq := takeFault_queues m .addressClash false v
  refine ⟨(hq.node m).trans ((he.node m).trans hself), fun a ha => (hq.node a).trans ((he.node a).trans (hother a ha)),
    (takeFault_keeps m .addressClash false v).steady.flags _ hset, ?_⟩
  rw [history_takeFault, he.faults m, hn.faults m]

/-! ## CMD_LOST (R43) -/

/-- R43: a lost command is out of the queue, and a GRANT lost is no longer pending; its grant stands. -/
structure Lost (m : Addr) (c : CommandClass) (s t : State) : Prop where
  queue   : ∀ e ∈ t.mbc.queue, e.fills m c = false
  pending : c = .level → (t.grant m).pending = false
  grant   : (t.grant m).granted = (s.grant m).granted ∧ (t.grant m).fill = (s.grant m).fill ∧ (t.grant m).draw = (s.grant m).draw
  faults  : t.faults m = s.faults m

theorem lost_tellOwner {c : CommandClass} {e : BusEntry} (he : s.mbc.waiting m c = some e) :
    Lost m c s (tellOwner m e.command false (dropCommand m c s)) := by
  have hfill : e.fills m c = true := List.find?_some (p := fun e : BusEntry => e.fills m c) he
  have hcls : e.command.cls = some c := (fills_iff.mp hfill).2
  have hd := dropCommand_changes m c s
  have hq : ∀ e ∈ (dropCommand m c s).mbc.queue, e.fills m c = false := fun e he => by
    have := List.of_mem_filter he
    simpa using this
  generalize dropCommand m c s = u at *
  have ht := tellOwner_changes m e.command false u
  have hgrant : (tellOwner m e.command false u).grant m = { u.grant m with pending := ((tellOwner m e.command false u).grant m).pending } := by
    unfold tellOwner
    split <;> simp
  have hpend : c = .level → ((tellOwner m e.command false u).grant m).pending = false := by
    rintro rfl
    generalize e.command = cmd at hcls
    cases cmd with
    | grant l f => simp [tellOwner]
    | arm | disarm | stop | hold | assign => cases hcls
  generalize tellOwner m e.command false u = v at *
  exact
    { queue := by rw [ht.at .mbc]; exact hq
      pending := hpend
      grant := by rw [hgrant, hd.grant m]; exact ⟨rfl, rfl, rfl⟩
      faults := (ht.faults m).trans (hd.faults m) }

theorem lost_exec {c : CommandClass} {e : BusEntry} (hrun : s.phase = .running) (he : s.mbc.waiting m c = some e) :
    ∃ t, exec (.cmdLost m c) s = .next t ∧ (e.sends < 3 ∨ e.sentNow = true → t = s) ∧
      (3 ≤ e.sends → e.sentNow = false →
        (∀ x ∈ t.mbc.queue, x.fills m c = true → x.sends = 0 ∧ x.tag = none) ∧
        (c = .level → (t.grant m).pending = false) ∧ (t.grant m).granted = (s.grant m).granted ∧
        (t.grant m).fill = (s.grant m).fill ∧ (t.grant m).draw = (s.grant m).draw ∧
        (t.faults m).history = countedHistory (s.faults m).history .cmdLost) := by
  have hexec : exec (.cmdLost m c) s = .next (whenDue (fun s => s.lostDue m c) (loseCommand m c) s) := by
    show Host.Outcome.next (whenRunning (whenDue _ _) s) = _
    rw [whenRunning_of_running hrun]
  have hdue : s.lostDue m c = (decide (3 ≤ e.sends) && !e.sentNow) := by
    unfold State.lostDue
    rw [he]
    rfl
  refine ⟨_, hexec, fun hno => whenDue_of_not_due ?_, fun hs hn => ?_⟩
  · show s.lostDue m c = false
    rw [hdue]
    rcases hno with h | h
    · simp [h]
    · simp [h]
  · rw [whenDue_of_due (show s.lostDue m c = true by rw [hdue]; simp [hs, hn])]
    unfold loseCommand
    rw [he]
    have hlost := lost_tellOwner he
    dsimp only
    generalize tellOwner m e.command false (dropCommand m c s) = u at *
    have hq := takeFault_queues m .cmdLost false u
    have hg := grant_takeFault m .cmdLost false u
    refine ⟨fun x hx hf => (hq.fresh x hx).resolve_left fun hold => ?_, fun hl => by rw [hg]; exact hlost.pending hl, ?_⟩
    · rw [hlost.queue x hold] at hf
      cases hf
    · rw [hg, history_takeFault, hlost.faults]
      exact ⟨hlost.grant.1, hlost.grant.2.1, hlost.grant.2.2, rfl⟩

end

/-- Settles O46: a secondary by the row that reports it, ADDRESS_CLASH, and CMD_LOST. -/
theorem openFaultTakesSecondary : Obligations.OpenFaultTakesSecondary := by
  refine ⟨?_, ?_, ?_⟩
  · intro c m k p cf s hrun h hopen hc hx hclosed
    exact openFault_secondary hrun h hopen hc hx hclosed
  · intro m s hrun
    exact clash_exec hrun
  · intro m c e s hrun he
    exact lost_exec hrun he

end Sys2Proof.Machine
end
